-- ==== Sys2Proof/Word.lean ====
section
/-! DEFINITION. The words of the UF7240: bytes, colours, session time. -/

namespace Sys2Proof

/-- One byte of a frame, a track or the flash. -/
abbrev Byte := BitVec 8

/-- A 24-bit RGB colour: red in bits 23..16, green in 15..8, blue in 7..0 (R194). -/
abbrev Colour := BitVec 24

/-- A glyph code (R124). -/
abbrev Code := BitVec 16

/-- Session time: milliseconds modulo 2^32 (00_scope, Time). -/
abbrev Time := BitVec 32

end Sys2Proof
end

