-- ==== Sys2Proof/Syntax.lean ====
section
/-! DEFINITION. The commands: one constructor per row of spec/opcode_table.json. A client command
carries its port and the fields of its parameter list at the widths of R194, unaltered, so that a
value outside its set reaches the block that refuses or clamps it. -/

namespace Sys2Proof

/-- The three client ports (00_scope, Connections). -/
inductive Port where
  | playback | console | venue
deriving DecidableEq, Repr

/-- An optional field of a parameter list: the presence byte and the field's byte (R194). -/
structure OptionalByte where
  presence : Byte
  value : Byte
deriving DecidableEq, Repr

/-- What the Compositor measures of one complete input video frame (R143): whether every active
line had the same width, that width, the count of active lines, whether the sync showed one frame
per VI_VS period, and the period in hundredths of a millisecond. -/
structure FrameMeasure where
  uniform : Bool
  width : Nat
  height : Nat
  progressive : Bool
  period : Nat
deriving DecidableEq, Repr

/-- The four 24-bit words of one TDM frame, slot 0 first (R159). -/
structure TdmWords where
  w0 : BitVec 24
  w1 : BitVec 24
  w2 : BitVec 24
  w3 : BitVec 24
deriving DecidableEq, Repr

/-- The commands of the UF7240. -/
inductive Instr where
  -- resets and port transactions
  | powerOnReset
  | sessionReset (port : Port)
  | writeTransaction (port : Port) (opens : Bool) (bytes : List Byte) (closes : Bool)
  | readTransaction (port : Port) (length : Nat)
  | unknownCommand (port : Port)
  -- Request Book
  | enqueue (port : Port) (song : BitVec 24) (tier : Byte) (tag : OptionalByte)
  | cancel (port : Port) (ticket : BitVec 16)
  | move (port : Port) (ticket : BitVec 16) (position : Byte)
  | bookHold (port : Port)
  | bookRelease (port : Port)
  | promote (port : Port) (ticket : BitVec 16)
  | setOrderMode (port : Port) (mode : Byte) (rotateOnTake : Byte)
  | setRotation (port : Port) (origin : Byte)
  | setOriginMask (port : Port) (origins : BitVec 16)
  | setCap (port : Port) (origin : Byte) (cap : Byte)
  | setQuota (port : Port) (quota : Byte) (window : BitVec 16)
  | setDuplicatePolicy (port : Port) (policy : Byte)
  | bookRead (port : Port) (start : Byte) (count : Byte)
  | bookPolicyRead (port : Port)
  -- panel loop
  | poll
  | replyWindowExpiry
  | badReply (byte : Byte) (framing : Bool)
  | replyByteTimeout
  | badReplyQuietExpiry
  | strayLoopByte (byte : Byte)
  | idle (panel : Fin 8) (seq : Byte)
  | request (panel : Fin 8) (seq : Byte) (song : BitVec 24) (tag : Byte)
  | panelCancel (panel : Fin 8) (seq : Byte) (ticket : BitVec 16)
  | whereTicket (panel : Fin 8) (seq : Byte) (ticket : BitVec 16)
  | verdict
  | answer
  | cycleGapExpiry
  | panelEnable (port : Port) (panel : Byte) (enable : Byte)
  | panelCountersClear (port : Port) (panel : Byte)
  | setLoopTiming (port : Port) (window : BitVec 16) (gap : BitVec 16)
  | panelRead (port : Port)
  -- stage
  | takeTurn (port : Port)
  | endTurn (port : Port) (ticket : BitVec 16) (reason : Byte)
  | abortTurn (port : Port) (ticket : BitVec 16)
  | setAutoEnd (port : Port) (value : Byte)
  | stageRead (port : Port)
  -- song slots
  | loadBegin (port : Port) (slot : Byte) (ticket : BitVec 16)
  | loadData (port : Port) (slot : Byte) (offset : BitVec 16) (data : List Byte)
  | loadEnd (port : Port) (slot : Byte) (length : BitVec 16) (sum : BitVec 16)
  | stallTimerExpiry (slot : Fin 4)
  | checkComplete (slot : Fin 4)
  | scrubComplete (slot : Fin 4)
  | setLookahead (port : Port) (depth : Byte)
  | retryStage (port : Port) (ticket : BitVec 16)
  | slotRead (port : Port)
  | slotDetail (port : Port) (slot : Byte)
  -- song clock
  | play (port : Port)
  | pause (port : Port)
  | resume (port : Port)
  | seek (port : Port) (position : BitVec 32)
  | sync (port : Port) (position : BitVec 32)
  | setTempo (port : Port) (tempo : BitVec 16)
  | setSlipWindow (port : Port) (window : BitVec 16)
  | setKey (port : Port) (semitones : Byte)
  | clockRead (port : Port)
  | timebaseTick
  -- lyric lines
  | scrollComplete
  | scoreShowExpiry
  | setBands (port : Port) (titleRows : Byte) (guideHeight : BitVec 16)
  | setStyle (port : Port) (style : Byte) (rows : Byte)
  | setLineTiming (port : Port) (lead hold linger : BitVec 16) (scrollTime : Byte)
  | setLyricColours (port : Port) (unsung sungA sungB sungBoth : Colour)
  | setScoreHold (port : Port) (ms : BitVec 16)
  | lineWindowRead (port : Port)
  | frameLatch
  -- glyph cache and font store
  | glyphFetchStart
  | glyphFetchComplete
  | cacheStatus (port : Port)
  | glyphQuery (port : Port) (code : Code)
  | fontScanComplete
  | fontMaintBegin (port : Port)
  | maintenanceEntry
  | fontWriteEnable (port : Port)
  | fontProtect (port : Port) (level : Byte)
  | fontProgram (port : Port) (address : BitVec 32) (data : List Byte)
  | fontErase (port : Port) (sector : BitVec 16)
  | flashOperationDone
  | flashOperationTimeout
  | fontRead (port : Port) (address : BitVec 32) (length : Byte)
  | fontStatus (port : Port)
  | fontMaintEnd (port : Port)
  -- compositor and video path
  | inputFrameStart (measure : FrameMeasure)
  | inputLossTimeout
  | wake (port : Port)
  | goStandby (port : Port)
  | setOverlay (port : Port) (switch content invert scope : Byte)
  | setPlane (port : Port) (opacity : Byte) (shade : Colour) (shadeOpacity : Byte) (fill : Colour)
  | setFmark (port : Port) (value : Byte)
  | displayCountersClear (port : Port)
  | displayStatus (port : Port)
  -- voice assessment
  | audioLossTimeout
  | audioRestored (words : TdmWords)
  | voiceFrameComplete
  | toneCheckEnd
  | setMicEnable (port : Port) (mic : Byte) (value : Byte)
  | setMicColour (port : Port) (mic : Byte) (colour : Colour)
  | setPart (port : Port) (mic : Byte) (part : Byte)
  | setScoring (port : Port) (gate : BitVec 16) (tolerance : Byte) (grace latency : BitVec 16)
      (folding pitchWeight noteWeight strayCost : Byte)
  | toneCheck (port : Port) (mic : Byte) (note : Byte)
  | voiceRead (port : Port)
  -- results
  | resultRead (port : Port) (selector : Byte) (value : BitVec 16)
  | resultTake (port : Port) (ticket : BitVec 16)
  | bestRead (port : Port)
  | bestClear (port : Port)
  -- notices and identity
  | noticeTake (port : Port)
  | noticeMask (port : Port) (mask : BitVec 16)
  | ident (port : Port)
  | replyByteReceived (byte : Byte)
  | tdmFrame (words : TdmWords)
deriving DecidableEq, Repr

end Sys2Proof
end

