-- ==== Sys2Proof/Config.lean ====
section
/-! DEFINITION. What the part fixes (sizes and limits of the spec) and the free values: constants
without a body, which no proof can evaluate. -/

namespace Sys2Proof.Config

/-- The largest song time (00_scope, Time). -/
def songLimit : Nat := 3599999

/-- Bytes of one song slot (R62). -/
def slotBytes : Nat := 49152

/-- Entries of the Request Book (R2). -/
def bookSize : Nat := 32

/-- PRIORITY entries of the Request Book (R12). -/
def priorityLimit : Nat := 4

/-- Entries of the Glyph Cache (R124). -/
def cacheSize : Nat := 640

/-- FETCHING entries of class PREFETCH (R127). -/
def prefetchLimit : Nat := 64

/-- Bytes of one glyph record (R135). -/
def glyphRecordBytes : Nat := 388

/-- Address limit while the working flash size is unknown: 64 MiB (R134). -/
def flashSpace : Nat := 64 * 1048576

/-- Samples of a voice frame (R160). -/
def voiceFrame : Nat := 960

/-- Voice frames of a tone check (R171). -/
def toneFrames : Nat := 50

/-- Records of the result ring (R180) and entries of the best list (R183). -/
def ringSize : Nat := 16
def bestSize : Nat := 5

/-- FREE VALUE (log 1): the sequence number the part takes from a panel frame whose sequence
byte is above 15. R27 gives sequence numbers 0 to 15, and R29 does not list such a byte among
the endings that make a reply bad. -/
opaque seqAbove15 : Byte → BitVec 4

/-- FREE VALUE (log 2): the byte the flash holds at an address it was programming or erasing when
the operation was abandoned (R139); the first argument tells one abandonment from another. -/
opaque flashLeft : Nat → Nat → Byte

/-- FREE VALUE (log 4): eight numbers that place the built-in substitute's hollow rectangle in its
cell (R129). -/
opaque substituteSides : Nat → Nat

/-- A number of the range from `low` up to, not including, `high`, by a free number. -/
def inRange (low high free : Nat) : Nat := low + free % (high - low)

/-- The rectangle along one axis of `n` pixels, by four of the free numbers from `first` on: where it
begins, where its hollow begins and ends, and where it ends, each beyond the one before. -/
def substituteSpan (n first : Nat) : Nat × Nat × Nat × Nat :=
  let start := inRange 0 (n - 2) (substituteSides first)
  let hollow := inRange (start + 1) (n - 1) (substituteSides (first + 1))
  let hollowEnd := inRange (hollow + 1) n (substituteSides (first + 2))
  (start, hollow, hollowEnd, inRange (hollowEnd + 1) (n + 1) (substituteSides (first + 3)))

/-- Whether the pixel (column, row) of the 32 by 48 cell lies on the outline of the built-in
substitute: in the rectangle and not in its hollow (R129, R150). -/
def substituteOutline (col row : Nat) : Bool :=
  let (left, holeLeft, holeRight, right) := substituteSpan 32 0
  let (top, holeTop, holeBottom, bottom) := substituteSpan 48 4
  left ≤ col && col < right && top ≤ row && row < bottom &&
    !(holeLeft ≤ col && col < holeRight && holeTop ≤ row && row < holeBottom)

/-- FREE VALUE (log 5): the row byte that LINE-WINDOW-READ gives for the LEAVING line, which stands
above row 0 (R106, R122). -/
opaque leavingRow : Byte

/-- The straps VADR1 and VADR0, fixed by the board (log 6). -/
opaque venueStraps : BitVec 2

/-- The venue port's 7-bit I2C address (00_scope, Connections). -/
def venueAddress : Nat := 0x48 + venueStraps.toNat

end Sys2Proof.Config
end

