-- ==== Sys2Proof/Machine/State.lean ====
section
/-! DEFINITION. The state of the UF7240: every piece of state the spec gives its twelve blocks, as
plain data, and its value after power-on reset. -/

namespace Sys2Proof.Machine

/-! ## Request Book (01) -/

/-- R1, R12. -/
inductive Tier where
  | normal | priority
deriving DecidableEq, Repr

/-- R1, R20. -/
inductive EntryState where
  | waiting | called
deriving DecidableEq, Repr

/-- One request in the Book (R1). -/
structure Entry where
  ticket : Nat
  songId : Nat
  origin : Nat
  tier : Tier
  round : Nat
  tag : Option Nat
  acceptedAt : Time
  moved : Bool
  state : EntryState
deriving DecidableEq, Repr

/-- R9. -/
inductive OrderMode where
  | arrival | rotate
deriving DecidableEq, Repr

/-- The reasons for which the Book refuses a request, in the order of its checks (R10). -/
inductive RefusalReason where
  | masked | badSong | duplicate | quota | cap | limit | full
deriving DecidableEq, Repr

/-- The Request Book (R25): its entries in running order and the venue's policies. -/
structure Book where
  entries : List Entry
  nextTicket : Nat
  lowest : Nat
  held : Bool
  quotaTimes : Vector (List Time) 8
  mode : OrderMode
  rotateOnTake : Bool
  masked : BitVec 10
  caps : Vector Nat 10
  quota : Nat
  quotaWindow : Nat
  noDuplicates : Bool
deriving DecidableEq, Repr

/-! ## Panel Loop Controller (02) -/

/-- R39. -/
inductive Presence where
  | present | absent
deriving DecidableEq, Repr

/-- The verdict of a panel's REQUEST or CANCEL (R27). -/
inductive Verdict where
  | accepted (ticket : Nat) (position : Nat)
  | refused (reason : RefusalReason)
  | cancelled | notYours | onStage | unknown
deriving DecidableEq, Repr

/-- The answer to a WHERE (R33). -/
inductive Answer where
  | waiting (position : Nat)
  | onStage
  | done (headline : Option Nat)
  | unknown
deriving DecidableEq, Repr

/-- One panel record (02, first table). -/
structure Panel where
  enabled : Bool
  presence : Presence
  missRun : Nat
  errors : Nat
  stored : Option (BitVec 4 × Verdict)
deriving DecidableEq, Repr

/-- R36 to R38. -/
inductive LoopPhase where
  | sweep | cycle | gap
deriving DecidableEq, Repr

/-- Where the exchange in progress stands (2.2): none; a POLL chosen and not yet sent; the reply
window running; a reply begun; the line ignored after a bad reply; a VERDICT or ANSWER due. -/
inductive Exchange where
  | none
  | toPoll (panel : Fin 8)
  | window (panel : Fin 8) (left : Nat)
  | receiving (panel : Fin 8) (bytes : List Byte)
  | ignoring (panel : Fin 8)
  | toVerdict (panel : Fin 8) (seq : BitVec 4) (verdict : Verdict)
  | toAnswer (panel : Fin 8) (seq : BitVec 4) (answer : Answer)
deriving DecidableEq, Repr

/-- The Panel Loop Controller (R42). `quiet` is how long the line has been quiet, in ms held at 3,
the longest quiet that R26 and R29 ask about; `lastVisit` tells whether the current visit is the
cycle's absent visit (R36); `sent` is the frame last sent on the line. -/
structure Loop where
  panels : Vector Panel 8
  phase : LoopPhase
  absentPointer : Fin 8
  replyWindow : Nat
  cycleGap : Nat
  exchange : Exchange
  visited : List (Fin 8)
  lastVisit : Bool
  gapLeft : Nat
  quiet : Nat
  sent : List Byte
deriving DecidableEq, Repr

/-! ## Turn Controller (03) -/

/-- The turn flags, in the order of R44 and R194. -/
structure TurnFlags where
  rewound : Bool
  skippedAhead : Bool
  keyChanged : Bool
  tempoChanged : Bool
  partChanged : Bool
  clockSlip : Bool
deriving DecidableEq, Repr

/-- The turn record (R43). -/
structure Turn where
  ticket : Nat
  songId : Nat
  slot : Fin 4
  origin : Nat
  tier : Tier
  tag : Option Nat
  startedAt : Time
  flags : TurnFlags
deriving DecidableEq, Repr

/-- R51 to R53, R179. -/
inductive EndReason where
  | complete | skipped | failed | aborted
deriving DecidableEq, Repr

/-! ## Slot Store (04) -/

/-- The slot states, in the order of 04's first table. -/
inductive SlotState where
  | free | reserved | loading | checking | ready | onStage | scrub | fault
deriving DecidableEq, Repr

/-- The fault reasons, in the order of R62. -/
inductive FaultReason where
  | overflow | stalled | length | sum | signature | version | songMismatch | truncated
  | order | overlap | range | limit | marks
deriving DecidableEq, Repr

/-- A part tag of a line or note (4.4). -/
inductive PartTag where
  | a | b | both
deriving DecidableEq, Repr

/-- A syllable of a line (4.4). -/
structure Syllable where
  start : Nat
  duration : Nat
  glyphs : List Code
deriving DecidableEq, Repr

/-- A line record (4.4). -/
structure Line where
  tag : PartTag
  syllables : List Syllable
deriving DecidableEq, Repr

/-- A note record (4.4). -/
structure Note where
  start : Nat
  duration : Nat
  number : Nat
  tag : PartTag
deriving DecidableEq, Repr

/-- A checked track: header fields, lines and notes in track order, END time and interlude spans
(R77). The other derived values are computed from these. -/
structure Track where
  partCount : Nat
  originalKey : Nat
  duration : Nat
  lineCount : Nat
  title : List Code
  artist : List Code
  lines : List Line
  notes : List Note
  endTime : Nat
  spans : List (Nat × Nat)
deriving DecidableEq, Repr

/-- The mark a tally gives a note (R166). -/
inductive TallyMark where
  | empty | counted | kept
deriving DecidableEq, Repr

/-- One slot record with its track bytes (R62). Bytes used is the count of `bytes`, and so is the
write offset in LOADING. `tallied` holds, for each channel, one optional mark per note. `timer` is
the time left of the interval that the slot's state runs: the stall timer in LOADING (R70), the
check in CHECKING (R72), the scrub in SCRUB (R80). -/
structure Slot where
  state : SlotState
  ticket : Option Nat
  bytes : List Byte
  fault : Option (FaultReason × Option Nat)
  track : Option Track
  tallied : Vector (List (Option TallyMark)) 4
  timer : Nat
deriving DecidableEq, Repr

/-! ## Song Clock (05) -/

/-- R85. -/
inductive ClockState where
  | stopped | cued | running | paused
deriving DecidableEq, Repr

/-- R97. -/
inductive Interlude where
  | inside | outside
deriving DecidableEq, Repr

/-- The Song Clock (R100). -/
structure Clock where
  state : ClockState
  position : Nat
  accumulator : Nat
  tempo : Nat
  key : Int
  interlude : Interlude
  slipWindow : Nat
  lastSync : Option Int
  endTime : Option Nat
  spans : List (Nat × Nat)
deriving DecidableEq, Repr

/-! ## Line Scheduler (06) -/

/-- R101. -/
inductive Canvas where
  | hd720 | hd1080
deriving DecidableEq, Repr

/-- R115. -/
inductive Style where
  | scroll | alternate
deriving DecidableEq, Repr

/-- R106. -/
inductive LineState where
  | posted | singing | done | leaving
deriving DecidableEq, Repr

/-- A line in the line window (R106): its index, its row (of no meaning while LEAVING), its state
and marks, and the glyph pins it took on entry, one per occurrence. -/
structure WindowLine where
  index : Nat
  row : Nat
  state : LineState
  clipped : Bool
  linger : Bool
  pins : List Code
deriving DecidableEq, Repr

/-- A line of the pending list with the state its events have given it (R106, R109). -/
structure PendingLine where
  index : Nat
  state : LineState
deriving DecidableEq, Repr

/-- A scroll in motion: latches done out of the scroll time (R110). -/
structure Scroll where
  total : Nat
  done : Nat
deriving DecidableEq, Repr

/-- What the title band shows (R118). -/
inductive TitleContent where
  | none
  | stage (slot : Fin 4)
  | nextUp (slot : Fin 4)
deriving DecidableEq, Repr

/-- The score show (R121). -/
structure ScoreShow where
  headline : Nat
  left : Nat
deriving DecidableEq, Repr

/-- The Line Scheduler (R123). `titleRows` are the glyph lists now shown and pinned for the title
band; `hinted` is the head (ticket, slot) whose title has been prefetched (R118); `stepTwoMade`
tells that step 2 of the coming latch has been made by SCROLL_COMPLETE (log 16). -/
structure LineScheduler where
  canvas : Canvas
  titleRowsSetting : Nat
  guideSetting : Nat
  style : Style
  lyricRows : Nat
  lead : Nat
  hold : Nat
  linger : Nat
  scrollTime : Nat
  window : List WindowLine
  pending : List PendingLine
  scroll : Option Scroll
  rebuild : Bool
  title : TitleContent
  titleRows : List (List Code)
  hinted : Option (Nat × Fin 4)
  scoreShow : Option ScoreShow
  unsung : Colour
  sungA : Colour
  sungB : Colour
  sungBoth : Colour
  scoreHold : Nat
  stepTwoMade : Bool
deriving DecidableEq, Repr

/-! ## Glyph Cache and Font Port (07) -/

/-- R125, R128. -/
inductive FetchClass where
  | demand | prefetch
deriving DecidableEq, Repr

/-- R124; the fetch class applies in FETCHING only. -/
inductive CacheState where
  | free
  | fetching (cls : FetchClass)
  | resident | stale
deriving DecidableEq, Repr

/-- The coverage of a bitmap: the record's 384 bytes (R135), or the built-in substitute (R129). -/
inductive Coverage where
  | record (bytes : List Byte)
  | substitute
deriving DecidableEq, Repr

/-- A bitmap with its advance (R124). -/
structure Bitmap where
  coverage : Coverage
  advance : Nat
deriving DecidableEq, Repr

/-- One cache entry (R124). -/
structure CacheEntry where
  code : Option Code
  state : CacheState
  bitmap : Option Bitmap
  substitute : Bool
  pins : Nat
  late : Bool
deriving DecidableEq, Repr

/-- The Glyph Cache: 640 entries, the recency order (least recent first), the order of entry into
FETCHING (earliest first) and the fetch in progress, all by entry number (R124, R128). -/
structure Cache where
  entries : List CacheEntry
  recency : List Nat
  fetchOrder : List Nat
  inProgress : Option Nat
deriving DecidableEq, Repr

/-- The values the font header gives (R134). -/
structure FontHeader where
  glyphCount : Nat
  tableBase : Nat
  sizeMiB : Nat
deriving DecidableEq, Repr

/-- A program or erase of the flash (R138). -/
inductive FlashOp where
  | program (address : Nat) (data : List Byte)
  | erase (sector : Nat)
deriving DecidableEq, Repr

/-- The font store states (7.4); in MAINTENANCE-BUSY the operation in progress and the time in ms
since it started (R140). -/
inductive StoreState where
  | scanning | ready | absent | maintenance
  | busy (op : FlashOp) (elapsed : Nat)
deriving DecidableEq, Repr

/-- The protection levels, in the order of R137. -/
inductive Protection where
  | none | upperQuarter | upperHalf | all
deriving DecidableEq, Repr

/-- The Font Port (R142). `maintWanted`: FONT-MAINT-BEGIN has been taken and waits for the fetch in
progress (R136). `maintScan`: the scan was started by FONT-MAINT-END (R141). -/
structure FontPort where
  store : StoreState
  header : Option FontHeader
  latch : Bool
  protection : Protection
  fault : Bool
  maintWanted : Bool
  maintScan : Bool
deriving DecidableEq, Repr

/-! ## Compositor (08) -/

/-- The four supported formats, in the order of 08. -/
inductive Format where
  | f720p50 | f720p60 | f1080p50 | f1080p60
deriving DecidableEq, Repr

/-- The class of a measured frame (R143). -/
inductive FrameClass where
  | supported (format : Format)
  | unsupported
deriving DecidableEq, Repr

/-- R144. -/
inductive PathState where
  | noInput | locked | changeover | unsupported
deriving DecidableEq, Repr

/-- The output timing (R144, R145): free-running, about to follow at the next input frame start,
or following the input. -/
inductive OutputTiming where
  | freeRunning | toFollow | following
deriving DecidableEq, Repr

/-- R147. -/
inductive Power where
  | standby | waking | active
deriving DecidableEq, Repr

/-- R148. -/
inductive Content where
  | normal | blank | fill
deriving DecidableEq, Repr

/-- R148. -/
inductive Scope where
  | full | lyricOnly
deriving DecidableEq, Repr

/-- A set of bands (R148, R153). -/
structure Bands where
  title : Bool
  lyric : Bool
  guide : Bool
deriving DecidableEq, Repr

/-- The layout of the bands on the canvas: canvas size, top edge and height of each band, and the
effective title rows and row count (R102, R103). -/
structure Layout where
  width : Nat
  height : Nat
  titleRows : Nat
  rows : Nat
  guide : Nat
  lyricTop : Nat
  guideTop : Nat
deriving DecidableEq, Repr

/-- What a glyph occurrence is drawn from (R130): its bitmap's coverage, or blank. -/
inductive Drawn where
  | blank
  | coverage (c : Coverage)
deriving DecidableEq, Repr

/-- One glyph occurrence of the captured picture: its code, its cell's top left corner, what it is
drawn from, the column left of which it takes the sung colour (R116), its two colours, and the
column from which it is not drawn (R105). -/
structure GlyphBox where
  code : Code
  x : Int
  y : Int
  drawn : Drawn
  split : Int
  sung : Colour
  unsung : Colour
  clip : Int
deriving DecidableEq, Repr

/-- A note bar or marker: columns x0 to x1 - 1, rows y0 to y1 - 1, filled or a one-pixel outline
(R119, R120). -/
structure Patch where
  x0 : Int
  y0 : Int
  x1 : Int
  y1 : Int
  colour : Colour
  filled : Bool
deriving DecidableEq, Repr

/-- What a frame latch captured (R149 step 3) and decided (step 4): all that the output video frame
is composed from, but for the passing picture itself. `black` tells that the picture beneath is
black (NO_INPUT; log 52). `mark` tells that FMARK was pulsed (step 5). -/
structure OutputFrame where
  position : Nat
  black : Bool
  layout : Layout
  keyed : Option Bands
  fillContent : Bool
  planeOpacity : Nat
  shade : Colour
  shadeOpacity : Nat
  fill : Colour
  titleGlyphs : List GlyphBox
  lyricGlyphs : List GlyphBox
  guideGlyphs : List GlyphBox
  bars : List Patch
  markers : List Patch
  mark : Bool
deriving DecidableEq, Repr

/-- The Compositor (R154). `inputQuiet`: ms since the last input frame start, held at 100.
`frameUnderWay`: an input frame has begun and is not yet complete (R143). -/
structure Compositor where
  path : PathState
  locked : Option Format
  runClass : Option FrameClass
  runCount : Nat
  freeRun : Format
  output : OutputTiming
  frameUnderWay : Bool
  inputQuiet : Nat
  power : Power
  switch : Bool
  content : Content
  invert : Bool
  scope : Scope
  planeOpacity : Nat
  shade : Colour
  shadeOpacity : Nat
  fill : Colour
  fmark : Bool
  glyphLate : Nat
  postLate : Nat
  lineClipped : Nat
  lastKeyed : Option Bands
  frame : Option OutputFrame
deriving DecidableEq, Repr

/-! ## Voice Assessment Unit (09) -/

/-- R155. -/
inductive Part where
  | a | b
deriving DecidableEq, Repr

/-- R169. -/
inductive Lock where
  | unlocked | locked
deriving DecidableEq, Repr

/-- R159. -/
inductive AudioState where
  | present | lost
deriving DecidableEq, Repr

/-- The channel flags, in the order of R194. -/
structure ChannelFlags where
  partial_ : Bool
  lateJoin : Bool
  saturated : Bool
  partChanged : Bool
deriving DecidableEq, Repr

/-- The note now being judged, with its counts (R164). `index` counts the note records of the track from
0 (DESIGN CHOICE, log 53). -/
structure OpenNote where
  index : Nat
  a : Nat
  h : Nat
deriving DecidableEq, Repr

/-- The first-miss capture (R170): judgement time, reference, pitch or UNVOICED. -/
structure FirstMiss where
  time : Nat
  reference : Int
  pitch : Option Int
deriving DecidableEq, Repr

/-- The last voice frame (R162): voiced with a pitch or unvoiced, and its completion time. -/
structure VoiceFrame where
  pitch : Option Int
  at_ : Time
deriving DecidableEq, Repr

/-- One microphone channel (09, first table). -/
structure Channel where
  enabled : Bool
  part : Part
  colour : Colour
  takingPart : Bool
  judged : Nat
  hits : Nat
  notes : Nat
  kept : Nat
  strays : Nat
  openNote : Option OpenNote
  lock : Lock
  hitRun : Nat
  missRun : Nat
  lockCount : Nat
  firstMiss : Option FirstMiss
  flags : ChannelFlags
  frozen : Bool
  lastFrame : Option VoiceFrame
deriving DecidableEq, Repr

/-- The eight scoring settings (R158). -/
structure Scoring where
  gate : Nat
  tolerance : Nat
  grace : Nat
  latency : Nat
  folding : Bool
  pitchWeight : Nat
  noteWeight : Nat
  strayCost : Nat
deriving DecidableEq, Repr

/-- A running tone check (R171): mic, note, frames done, frames voiced, sum of pitches, and the
samples of the square wave made so far, or none before its first voice frame has begun. -/
structure ToneCheck where
  mic : Fin 4
  note : Nat
  done : Nat
  voiced : Nat
  sum : Nat
  made : Option Nat
deriving DecidableEq, Repr

/-- R172. -/
inductive ToneOutcome where
  | pass | fail | aborted
deriving DecidableEq, Repr

/-- The result of the last tone check (R172). -/
structure ToneResult where
  mic : Fin 4
  note : Nat
  voiced : Nat
  average : Option Nat
  outcome : ToneOutcome
deriving DecidableEq, Repr

/-- The 16-bit samples of one TDM frame, channel 0 first (R159). -/
abbrev Samples := Vector (BitVec 16) 4

/-- The Voice Assessment Unit (R174). `quiet`: ms since the last word clock edge, held at 50.
`frame`: the samples of the voice frames under way, which all channels begin and complete together
(R160), in order of arrival. -/
structure Voice where
  audio : AudioState
  quiet : Nat
  frame : List Samples
  channels : Vector Channel 4
  scoring : Scoring
  tone : Option ToneCheck
  lastTone : Option ToneResult
deriving DecidableEq, Repr

/-! ## Result Store (10) -/

/-- One channel result of a result record (R179); `final` is absent exactly when UNSCORED. -/
structure ChannelResult where
  mic : Fin 4
  part : Part
  assessed : Part
  judged : Nat
  hits : Nat
  strays : Nat
  notes : Nat
  kept : Nat
  final : Option Nat
  lockCount : Nat
  flags : ChannelFlags
  firstMiss : Option FirstMiss
deriving DecidableEq, Repr

/-- A result record (R179). -/
structure ResultRecord where
  ticket : Nat
  songId : Nat
  origin : Nat
  tag : Option Nat
  reason : EndReason
  flags : TurnFlags
  key : Int
  startedAt : Time
  endedAt : Time
  headline : Option Nat
  channels : List ChannelResult
  collected : Bool
deriving DecidableEq, Repr

/-- A best entry (R183). -/
structure BestEntry where
  ticket : Nat
  songId : Nat
  origin : Nat
  tag : Option Nat
  headline : Nat
  endedAt : Time
deriving DecidableEq, Repr

/-! ## Client ports and notices (11) -/

/-- The result codes, in the order of the table of R188 (R194). -/
inductive ResultCode where
  | ok | okClamped | noTurn | busy | unknownCommand | badLength | notPermitted | state | notFound
  | range | full | limit | stale | order | protected_ | notEnabled | notOnStage | refused
deriving DecidableEq, Repr

/-- A command frame: code and parameters (R186). -/
structure Frame where
  code : Byte
  params : List Byte
deriving DecidableEq, Repr

/-- A reply: echoed command code, result code and data (R186). -/
structure Reply where
  code : Byte
  result : ResultCode
  data : List Byte
deriving DecidableEq, Repr

/-- A notice with its summary, one constructor per class of 11.3 in priority order. -/
inductive Notice where
  | sessionReset
  | call (ticket : Nat) (slot : Fin 4)
  | callWithdrawn (ticket : Nat)
  | turnEnded (ticket : Nat) (reason : EndReason)
  | stageWanted (ticket : Nat) (slot : Fin 4) (songId : Nat)
  | slotFault (slot : Fin 4) (ticket : Nat) (reason : FaultReason)
  | turnStarted (ticket : Nat) (slot : Fin 4)
  | resultReady (ticket : Nat) (reason : EndReason) (headline : Option Nat)
  | resultOverwritten (ticket : Nat)
  | queueChanged (entries : Nat)
  | clockSlip (ticket : Nat) (before : Nat) (after : Nat)
  | videoState (path : PathState) (format : Option Format)
  | audioState (state : AudioState)
  | panelState (panel : Fin 8) (presence : Presence)
  | fontDone (state : StoreState) (fault : Bool)
  | toneDone (mic : Fin 4) (outcome : ToneOutcome)
deriving DecidableEq, Repr

/-- R186. -/
inductive LinkState where
  | ready | receiving | waiting
deriving DecidableEq, Repr

/-- A read given in pieces that is under way (R195, log 10): what it has still to return, and whether it
is returning the waiting reply, so that REPLY_WAITING is cleared when it has returned all of it or ends
before (R187). -/
structure ReadUnderWay where
  rest : List Byte
  clears : Bool
deriving DecidableEq, Repr

/-- One client port (11, first table). `gathered`: the bytes of the transaction under way in
RECEIVING. `held`: the accepted frame in WAITING. `notices`: for each class, by its place in
priority order, its summary while it is pending. `shifted`: the bytes the part last shifted out.
`reading`: the SPI read given in pieces that is under way, if one is (log 10). -/
structure PortState where
  link : LinkState
  gathered : List Byte
  held : Option Frame
  reply : Option Reply
  replyWaiting : Bool
  discarded : Bool
  notices : Vector (Option Notice) 16
  mask : BitVec 16
  shifted : List Byte
  reading : Option ReadUnderWay
deriving DecidableEq, Repr

/-- The three ports. -/
structure Ports where
  playback : PortState
  console : PortState
  venue : PortState
deriving DecidableEq, Repr

/-! ## The whole part -/

/-- The state of the UF7240. `turn` is the turn on stage, absent while the stage is EMPTY (R43).
`flash` holds the cells of the font flash that do not read 0xFF. `freeCount` numbers the operations
the flash abandoned and is the model's own (log 2). `pending` is the queue of commands waiting,
first in, first out. -/
structure State where
  sessionTime : Time
  book : Book
  loop : Loop
  turn : Option Turn
  autoEnd : Bool
  slots : Vector Slot 4
  depth : Nat
  clock : Clock
  lines : LineScheduler
  cache : Cache
  font : FontPort
  flash : List Host.Cell
  video : Compositor
  voice : Voice
  ring : List ResultRecord
  best : List BestEntry
  ports : Ports
  freeCount : Nat
  pending : List Instr
deriving DecidableEq, Repr

/-- Reasons for which a command would stop the part. No rule of the spec stops it: a command that
is not taken is answered with a result code, and what goes wrong inside (a spoiled track, a spoiled
reply, an abandoned flash operation) is state. The type is therefore empty. -/
inductive Fault where
deriving DecidableEq, Repr

/-- Reasons for which the model would not run a command. -/
inductive Refusal where
  /-- Raised by `exec` for a command that has no meaning yet; safe. No arm raises it now. -/
  | notModelled (mnemonic : String)
deriving DecidableEq, Repr

/-- What a command answers. -/
abbrev Answered := Host.Outcome State Fault Refusal

/-! ## Power-on reset -/

def Book.reset : Book :=
  { entries := [], nextTicket := 1, lowest := 9, held := false
    quotaTimes := Vector.replicate 8 [], mode := .rotate, rotateOnTake := true, masked := 0
    caps := #v[3, 3, 3, 3, 3, 3, 3, 3, 8, 8], quota := 3, quotaWindow := 120
    noDuplicates := false }

def Panel.reset : Panel :=
  { enabled := true, presence := .absent, missRun := 0, errors := 0, stored := none }

/-- R42, with the sweep's first visit chosen (R37): a POLL to panel 0 is due. -/
def Loop.reset : Loop :=
  { panels := Vector.replicate 8 Panel.reset, phase := .sweep, absentPointer := 7
    replyWindow := 20, cycleGap := 50, exchange := .toPoll 0, visited := [0], lastVisit := false
    gapLeft := 0, quiet := 0, sent := [] }

/-- A slot after power-on and after a scrub (R62, R80). -/
def Slot.empty : Slot :=
  { state := .free, ticket := none, bytes := [], fault := none, track := none
    tallied := Vector.replicate 4 [], timer := 0 }

def Clock.reset : Clock :=
  { state := .stopped, position := 0, accumulator := 0, tempo := 1000, key := 0
    interlude := .outside, slipWindow := 20, lastSync := none, endTime := none, spans := [] }

def LineScheduler.reset : LineScheduler :=
  { canvas := .hd1080, titleRowsSetting := 1, guideSetting := 160, style := .scroll
    lyricRows := 3, lead := 1500, hold := 300, linger := 3000, scrollTime := 12
    window := [], pending := [], scroll := none, rebuild := false, title := .none
    titleRows := [], hinted := none, scoreShow := none
    unsung := 0xFFFFFF, sungA := 0x00A0FF, sungB := 0xFF4080, sungBoth := 0x40D040
    scoreHold := 6000, stepTwoMade := false }

def CacheEntry.empty : CacheEntry :=
  { code := none, state := .free, bitmap := none, substitute := false, pins := 0, late := false }

def Cache.reset : Cache :=
  { entries := List.replicate Config.cacheSize CacheEntry.empty, recency := [], fetchOrder := []
    inProgress := none }

def FontPort.reset : FontPort :=
  { store := .scanning, header := none, latch := false, protection := .none, fault := false
    maintWanted := false, maintScan := false }

def Compositor.reset : Compositor :=
  { path := .noInput, locked := none, runClass := none, runCount := 0, freeRun := .f1080p60
    output := .freeRunning, frameUnderWay := false, inputQuiet := 0, power := .standby
    switch := true, content := .normal, invert := false, scope := .full, planeOpacity := 16
    shade := 0, shadeOpacity := 6, fill := 0, fmark := false, glyphLate := 0, postLate := 0
    lineClipped := 0, lastKeyed := none, frame := none }

def ChannelFlags.clear : ChannelFlags :=
  { partial_ := false, lateJoin := false, saturated := false, partChanged := false }

def TurnFlags.clear : TurnFlags :=
  { rewound := false, skippedAhead := false, keyChanged := false, tempoChanged := false
    partChanged := false, clockSlip := false }

def Channel.reset (part : Part) (colour : Colour) : Channel :=
  { enabled := true, part := part, colour := colour, takingPart := false, judged := 0, hits := 0
    notes := 0, kept := 0, strays := 0, openNote := none, lock := .unlocked, hitRun := 0
    missRun := 0, lockCount := 0, firstMiss := none, flags := ChannelFlags.clear
    frozen := false, lastFrame := none }

def Voice.reset : Voice :=
  { audio := .lost, quiet := 0, frame := []
    channels := #v[Channel.reset .a 0xFFD000, Channel.reset .b 0xFF6000,
      Channel.reset .a 0x00E0E0, Channel.reset .b 0xC080FF]
    scoring := { gate := 400, tolerance := 4, grace := 40, latency := 60, folding := true
                 pitchWeight := 3, noteWeight := 1, strayCost := 2 }
    tone := none, lastTone := none }

def PortState.reset : PortState :=
  { link := .ready, gathered := [], held := none, reply := none, replyWaiting := false
    discarded := false, notices := Vector.replicate 16 none, mask := 0, shifted := []
    reading := none }

/-- The part right after power-on reset: each block's power-on column (R25, R42, R61, R83, R100,
R123, R142, R154, R174, R185, R193), the flash blank (log 3), no command waiting. -/
def State.reset : State :=
  { sessionTime := 0, book := Book.reset, loop := Loop.reset, turn := none, autoEnd := true
    slots := Vector.replicate 4 Slot.empty, depth := 2, clock := Clock.reset
    lines := LineScheduler.reset, cache := Cache.reset, font := FontPort.reset, flash := []
    video := Compositor.reset, voice := Voice.reset, ring := [], best := []
    ports := { playback := PortState.reset, console := PortState.reset, venue := PortState.reset }
    freeCount := 0, pending := [] }

end Sys2Proof.Machine
end

