-- ==== Sys2Proof/Machine/Operands.lean ====
section
/-! DEFINITION. Operand forms: how the fields of a command's parameter list are read and clamped
(00_scope Parameters out of range, R194). -/

namespace Sys2Proof.Machine

/-- A setting brought to the nearest value in range (00_scope, Parameters out of range). -/
def clampNat (lo hi n : Nat) : Nat := max lo (min n hi)

/-- Whether a setting was out of range. -/
def outside (lo hi n : Nat) : Bool := n < lo || hi < n

/-- The nearest value in range of a signed setting. -/
def clampInt (lo hi n : Int) : Int := max lo (min n hi)

/-- The result code of a setting command (00_scope): OK_CLAMPED if any value was brought into
range. -/
def okCode (clamped : Bool) : ResultCode := if clamped then .okClamped else .ok

/-- An on or off byte: the place in the list "on, off" (R194, log 12). -/
def onOff (b : Byte) : Option Bool :=
  if b = 0 then some true else if b = 1 then some false else none

/-- A tier byte (R194: NORMAL, PRIORITY). -/
def tierOf (b : Byte) : Option Tier :=
  if b = 0 then some .normal else if b = 1 then some .priority else none

/-- A singer tag of a parameter list: none, or 0 to 15; anything else is outside its set
(R15, R194). -/
def tagOf (t : OptionalByte) : Option (Option Nat) :=
  if t.presence = 0 then some none
  else if t.presence = 1 && t.value.toNat < 16 then some (some t.value.toNat)
  else none

/-- A singer tag of a panel's REQUEST: a value outside 0 to 15 is read as none (R29). -/
def panelTag (b : Byte) : Option Nat := if b.toNat < 16 then some b.toNat else none

/-- The sequence number of a panel frame (R27); above 15 a free value (log 1). -/
def seqOf (b : Byte) : BitVec 4 := if b.toNat < 16 then b.setWidth 4 else Config.seqAbove15 b

/-- An order mode byte (R9: ARRIVAL, ROTATE). -/
def modeOf (b : Byte) : Option OrderMode :=
  if b = 0 then some .arrival else if b = 1 then some .rotate else none

/-- An end reason that END-TURN may give (R51: COMPLETE, SKIPPED, FAILED). -/
def endReasonOf (b : Byte) : Option EndReason :=
  if b = 0 then some .complete else if b = 1 then some .skipped
  else if b = 2 then some .failed else none

/-- A style byte (R115: SCROLL, ALTERNATE). -/
def styleOf (b : Byte) : Option Style :=
  if b = 0 then some .scroll else if b = 1 then some .alternate else none

/-- A part byte (R157: A, B). -/
def partOf (b : Byte) : Option Part :=
  if b = 0 then some .a else if b = 1 then some .b else none

/-- A protection level byte (R137). -/
def protectionOf (b : Byte) : Option Protection :=
  if b = 0 then some .none else if b = 1 then some .upperQuarter
  else if b = 2 then some .upperHalf else if b = 3 then some .all else none

/-- A content byte (R148: NORMAL, BLANK, FILL). -/
def contentOf (b : Byte) : Option Content :=
  if b = 0 then some .normal else if b = 1 then some .blank else if b = 2 then some .fill else none

/-- A scope byte (R148: FULL, LYRIC_ONLY). -/
def scopeOf (b : Byte) : Option Scope :=
  if b = 0 then some .full else if b = 1 then some .lyricOnly else none

/-- A slot number (R68). -/
def slotOf (b : Byte) : Option (Fin 4) :=
  if h : b.toNat < 4 then some ⟨b.toNat, h⟩ else none

/-- A mic number (R156). -/
def micOf (b : Byte) : Option (Fin 4) := slotOf b

/-- A panel address (R40). -/
def panelOf (b : Byte) : Option (Fin 8) :=
  if h : b.toNat < 8 then some ⟨b.toNat, h⟩ else none

/-- An origin (R8, R12). -/
def originOf (b : Byte) : Option (Fin 10) :=
  if h : b.toNat < 10 then some ⟨b.toNat, h⟩ else none

/-- The origin of a port's own requests (R15); the playback port has none. -/
def portOrigin : Port → Option (Fin 10)
  | .playback => none
  | .console => some 8
  | .venue => some 9

/-- The origin of a panel: its address (00_scope, Identities). -/
def panelOrigin (p : Fin 8) : Fin 10 := p.castLE (by decide)

/-- The four slots in order. -/
def slotNumbers : List (Fin 4) := [0, 1, 2, 3]

/-- The four mics in order. -/
def micNumbers : List (Fin 4) := [0, 1, 2, 3]

/-- The eight panel addresses in order. -/
def panelNumbers : List (Fin 8) := [0, 1, 2, 3, 4, 5, 6, 7]

/-- x mod m for a possibly negative x, in 0 to m - 1. -/
def modInt (x : Int) (m : Nat) : Int := x % (m : Int)

/-- A count that holds at its maximum (00_scope, saturating). -/
def bump (limit n : Nat) : Nat := min limit (n + 1)

end Sys2Proof.Machine
end

