-- ==== Sys2Proof/Machine/Flags.lean ====
section
/-! DEFINITION. Flags and status: the places of enumeration values, the sets of flags as bytes and
the status byte of a port (R194, R195). -/

namespace Sys2Proof.Machine

/-! ## Places of enumeration values (R194): the place, from 0, in the owning rule's list -/

/-- A mark or setting with the values "set, clear" or "on, off" (log 12). -/
def boolPlace (b : Bool) : Nat := if b then 0 else 1

def Port.place : Port → Nat
  | .playback => 0 | .console => 1 | .venue => 2

def Tier.place : Tier → Nat
  | .normal => 0 | .priority => 1

def EntryState.place : EntryState → Nat
  | .waiting => 0 | .called => 1

def OrderMode.place : OrderMode → Nat
  | .arrival => 0 | .rotate => 1

/-- MASKED 1 to FULL 7 (R194). -/
def RefusalReason.number : RefusalReason → Nat
  | .masked => 1 | .badSong => 2 | .duplicate => 3 | .quota => 4 | .cap => 5 | .limit => 6
  | .full => 7

def Presence.place : Presence → Nat
  | .present => 0 | .absent => 1

def LoopPhase.place : LoopPhase → Nat
  | .sweep => 0 | .cycle => 1 | .gap => 2

def EndReason.place : EndReason → Nat
  | .complete => 0 | .skipped => 1 | .failed => 2 | .aborted => 3

def SlotState.place : SlotState → Nat
  | .free => 0 | .reserved => 1 | .loading => 2 | .checking => 3 | .ready => 4 | .onStage => 5
  | .scrub => 6 | .fault => 7

def FaultReason.place : FaultReason → Nat
  | .overflow => 0 | .stalled => 1 | .length => 2 | .sum => 3 | .signature => 4 | .version => 5
  | .songMismatch => 6 | .truncated => 7 | .order => 8 | .overlap => 9 | .range => 10
  | .limit => 11 | .marks => 12

def ClockState.place : ClockState → Nat
  | .stopped => 0 | .cued => 1 | .running => 2 | .paused => 3

def Interlude.place : Interlude → Nat
  | .inside => 0 | .outside => 1

def Canvas.place : Canvas → Nat
  | .hd720 => 0 | .hd1080 => 1

def Style.place : Style → Nat
  | .scroll => 0 | .alternate => 1

def LineState.place : LineState → Nat
  | .posted => 0 | .singing => 1 | .done => 2 | .leaving => 3

def FetchClass.place : FetchClass → Nat
  | .demand => 0 | .prefetch => 1

def CacheState.place : CacheState → Nat
  | .free => 0 | .fetching _ => 1 | .resident => 2 | .stale => 3

def StoreState.place : StoreState → Nat
  | .scanning => 0 | .ready => 1 | .absent => 2 | .maintenance => 3 | .busy _ _ => 4

def Protection.place : Protection → Nat
  | .none => 0 | .upperQuarter => 1 | .upperHalf => 2 | .all => 3

def Format.place : Format → Nat
  | .f720p50 => 0 | .f720p60 => 1 | .f1080p50 => 2 | .f1080p60 => 3

/-- The four supported formats, then UNSUPPORTED (R143). -/
def FrameClass.place : FrameClass → Nat
  | .supported f => f.place | .unsupported => 4

def PathState.place : PathState → Nat
  | .noInput => 0 | .locked => 1 | .changeover => 2 | .unsupported => 3

def Power.place : Power → Nat
  | .standby => 0 | .waking => 1 | .active => 2

def Content.place : Content → Nat
  | .normal => 0 | .blank => 1 | .fill => 2

def Scope.place : Scope → Nat
  | .full => 0 | .lyricOnly => 1

def Part.place : Part → Nat
  | .a => 0 | .b => 1

def Lock.place : Lock → Nat
  | .unlocked => 0 | .locked => 1

def AudioState.place : AudioState → Nat
  | .present => 0 | .lost => 1

def ToneOutcome.place : ToneOutcome → Nat
  | .pass => 0 | .fail => 1 | .aborted => 2

/-- Result codes 0x00 to 0x10 in the order of R188's table, REFUSED 0x11 (R194). -/
def ResultCode.number : ResultCode → Nat
  | .ok => 0 | .okClamped => 1 | .noTurn => 2 | .busy => 3 | .unknownCommand => 4
  | .badLength => 5 | .notPermitted => 6 | .state => 7 | .notFound => 8 | .range => 9
  | .full => 10 | .limit => 11 | .stale => 12 | .order => 13 | .protected_ => 14
  | .notEnabled => 15 | .notOnStage => 16 | .refused => 17

/-! ## Sets of flags (R194) -/

/-- A byte with bit n set for the flag at place n of the list. -/
def flagByte : List Bool → Nat
  | [] => 0
  | b :: bs => (if b then 1 else 0) + 2 * flagByte bs

def TurnFlags.byte (f : TurnFlags) : Nat :=
  flagByte [f.rewound, f.skippedAhead, f.keyChanged, f.tempoChanged, f.partChanged, f.clockSlip]

def ChannelFlags.byte (f : ChannelFlags) : Nat :=
  flagByte [f.partial_, f.lateJoin, f.saturated, f.partChanged]

/-! ## Notice classes (11.3) -/

/-- The class of a notice, by its place in priority order: priority p is place p - 1. -/
def Notice.cls : Notice → Fin 16
  | .sessionReset => 0
  | .call _ _ => 1
  | .callWithdrawn _ => 2
  | .turnEnded _ _ => 3
  | .stageWanted _ _ _ => 4
  | .slotFault _ _ _ => 5
  | .turnStarted _ _ => 6
  | .resultReady _ _ _ => 7
  | .resultOverwritten _ => 8
  | .queueChanged _ => 9
  | .clockSlip _ _ _ => 10
  | .videoState _ _ => 11
  | .audioState _ => 12
  | .panelState _ _ => 13
  | .fontDone _ _ => 14
  | .toneDone _ _ => 15

/-- The sixteen classes in priority order. -/
def classes : List (Fin 16) := [0, 1, 2, 3, 4, 5, 6, 7, 8, 9, 10, 11, 12, 13, 14, 15]

/-- Whether a class is pending on the port and not masked (R190, R191). -/
def PortState.takeable (q : PortState) (c : Fin 16) : Bool :=
  q.notices[c].isSome && !q.mask.getLsb c

/-- The attention line is asserted exactly while a pending class is unmasked (R191); so is the
NOTICE_PENDING indication. -/
def PortState.attention (q : PortState) : Bool := classes.any q.takeable

/-- The set of pending classes, bit p - 1 for priority p (R194). -/
def PortState.pendingSet (q : PortState) : Nat :=
  flagByte (classes.map fun c => q.notices[c].isSome)

/-- The status byte: READY 0, REPLY_WAITING 1, NOTICE_PENDING 2, LAST_FRAME_DISCARDED 3
(R195). -/
def PortState.status (q : PortState) : Byte :=
  BitVec.ofNat 8 (flagByte [q.link = .ready, q.replyWaiting, q.attention, q.discarded])

end Sys2Proof.Machine
end

