-- ==== Sys2Proof/Machine/Encode.lean ====
section
/-! DEFINITION. The byte encodings of R194: numbers most significant byte first, optional fields,
lists, verdicts, notices. Widths not laid out by a table of 12 are in logs 13 and 14. -/

namespace Sys2Proof.Machine

def be8 (n : Nat) : List Byte := [BitVec.ofNat 8 n]

def be16 (n : Nat) : List Byte := [BitVec.ofNat 8 (n / 256), BitVec.ofNat 8 n]

def be24 (n : Nat) : List Byte :=
  [BitVec.ofNat 8 (n / 65536), BitVec.ofNat 8 (n / 256), BitVec.ofNat 8 n]

def be32 (n : Nat) : List Byte :=
  [BitVec.ofNat 8 (n / 16777216), BitVec.ofNat 8 (n / 65536), BitVec.ofNat 8 (n / 256),
    BitVec.ofNat 8 n]

/-- A two's complement field of 1, 2 or 4 bytes. -/
def beInt8 (i : Int) : List Byte := be8 (BitVec.ofInt 8 i).toNat
def beInt16 (i : Int) : List Byte := be16 (BitVec.ofInt 16 i).toNat
def beInt32 (i : Int) : List Byte := be32 (BitVec.ofInt 32 i).toNat

/-- A mark or on/off field. -/
def beBool (b : Bool) : List Byte := be8 (boolPlace b)

/-- An optional field: presence byte, then the field, all zero when absent (R194). -/
def beOption {α : Type} (width : Nat) (enc : α → List Byte) : Option α → List Byte
  | none => 0 :: List.replicate width 0
  | some a => 1 :: enc a

/-- A list of varying length: a count byte, then the items (R194). -/
def beList {α : Type} (enc : α → List Byte) (xs : List α) : List Byte :=
  be8 xs.length ++ xs.flatMap enc

def beColour (c : Colour) : List Byte := be24 c.toNat
def beCode (c : Code) : List Byte := be16 c.toNat
def beTime (t : Time) : List Byte := be32 t.toNat

/-- The singer tag, optional: 2 bytes (12.6). -/
def beTag (t : Option Nat) : List Byte := beOption 1 be8 t

/-- The headline, optional: 3 bytes (12.6). -/
def beHeadline (h : Option Nat) : List Byte := beOption 2 be16 h

/-- The payload of a VERDICT (12.3): verdict, ticket, position, refusal reason; unused fields 0. -/
def Verdict.payload : Verdict → List Byte
  | .accepted t p => be8 1 ++ be16 t ++ be8 p ++ be8 0
  | .refused r => be8 2 ++ be16 0 ++ be8 0 ++ be8 r.number
  | .cancelled => be8 3 ++ be16 0 ++ be8 0 ++ be8 0
  | .notYours => be8 4 ++ be16 0 ++ be8 0 ++ be8 0
  | .onStage => be8 5 ++ be16 0 ++ be8 0 ++ be8 0
  | .unknown => be8 6 ++ be16 0 ++ be8 0 ++ be8 0

/-- The payload of an ANSWER (12.3): answer, position, headline presence, headline. -/
def Answer.payload : Answer → List Byte
  | .waiting p => be8 1 ++ be8 p ++ beHeadline none
  | .onStage => be8 2 ++ be8 0 ++ beHeadline none
  | .done h => be8 3 ++ be8 0 ++ beHeadline h
  | .unknown => be8 4 ++ be8 0 ++ beHeadline none

/-- The summary of a notice, its fields in the order of 11.3. VIDEO_STATE's locked format is an optional
field, absent outside LOCKED (DESIGN CHOICE, log 46). -/
def Notice.summary : Notice → List Byte
  | .sessionReset => []
  | .call t i => be16 t ++ be8 i.val
  | .callWithdrawn t => be16 t
  | .turnEnded t r => be16 t ++ be8 r.place
  | .stageWanted t i song => be16 t ++ be8 i.val ++ be24 song
  | .slotFault i t r => be8 i.val ++ be16 t ++ be8 r.place
  | .turnStarted t i => be16 t ++ be8 i.val
  | .resultReady t r h => be16 t ++ be8 r.place ++ beHeadline h
  | .resultOverwritten t => be16 t
  | .queueChanged n => be8 n
  | .clockSlip t b a => be16 t ++ be32 b ++ be32 a
  | .videoState p f => be8 p.place ++ beOption 1 (fun f => be8 f.place) f
  | .audioState a => be8 a.place
  | .panelState p x => be8 p.val ++ be8 x.place
  | .fontDone st f => be8 st.place ++ beBool f
  | .toneDone m o => be8 m.val ++ be8 o.place

/-- A reply as the port returns it (R195): echoed code, result code, data length, data. -/
def Reply.bytes (r : Reply) : List Byte :=
  r.code :: be8 r.result.number ++ be16 r.data.length ++ r.data

/-- The two's complement, modulo 256, of the sum of the bytes (R27). -/
def checkByte (bytes : List Byte) : Byte := -(bytes.foldl (· + ·) 0)

/-- A loop frame (12.3): start byte, address, kind, sequence number, length, payload, check. -/
def loopFrame (address : Byte) (kind : Byte) (seq : Byte) (payload : List Byte) : List Byte :=
  let body := [0xA5, address, kind, seq, BitVec.ofNat 8 payload.length] ++ payload
  body ++ [checkByte body]

/-- The address of the part's own frames to a panel: the high bit set (R27). -/
def partAddress (p : Fin 8) : Byte := BitVec.ofNat 8 (0x80 + p.val)

/-- The address of a panel's frames. -/
def panelAddress (p : Fin 8) : Byte := BitVec.ofNat 8 p.val

/-- The value of bytes read most significant first. -/
def beValue (bytes : List Byte) : Nat := bytes.foldl (fun n b => n * 256 + b.toNat) 0

end Sys2Proof.Machine
end

