-- ==== Sys2Proof/Machine/Ops.lean ====
section
/-! DEFINITION. Shared operations over the ports, the notices, the font flash and the slot table. -/

namespace Sys2Proof.Machine

/-! ## The font flash as an addressed memory -/

/-- The byte an unlisted address reads as: an erased byte (log 3). -/
def erased : Byte := 0xFF

/-- One byte of the flash. -/
def Memory.read : List Host.Cell → Nat → Byte
  | [], _ => erased
  | (x, v) :: rest, a => if x = a then v else Memory.read rest a

/-- Writes one byte, keeping the canonical form. -/
def Memory.write : List Host.Cell → Nat → Byte → List Host.Cell
  | [], a, b => if b = erased then [] else [(a, b)]
  | (x, v) :: rest, a, b =>
    if x < a then (x, v) :: Memory.write rest a b
    else if x = a then (if b = erased then rest else (a, b) :: rest)
    else (if b = erased then (x, v) :: rest else (a, b) :: (x, v) :: rest)

/-- Every address of the list lies above `lo`, addresses rise strictly, no byte is `erased`. -/
def Memory.wfAbove : Option Nat → List Host.Cell → Bool
  | _, [] => true
  | lo, (x, v) :: rest =>
    (match lo with
      | none => true
      | some l => decide (l < x)) && v != erased && Memory.wfAbove (some x) rest

/-- The canonical form of the flash. -/
def Memory.wf (m : List Host.Cell) : Bool := Memory.wfAbove none m

/-- `n` bytes from address `a` onward. -/
def Memory.bytes (m : List Host.Cell) (a : Nat) : Nat → List Byte
  | 0 => []
  | n + 1 => Memory.read m a :: Memory.bytes m (a + 1) n

/-- Writes a byte chosen per address to `n` addresses from `a` onward. -/
def Memory.fill (f : Nat → Byte) (a : Nat) : Nat → List Host.Cell → List Host.Cell
  | 0, m => m
  | n + 1, m => Memory.fill f (a + 1) n (Memory.write m a (f a))

/-! ## Ports -/

def Ports.get (q : Ports) : Port → PortState
  | .playback => q.playback
  | .console => q.console
  | .venue => q.venue

def Ports.set (q : Ports) : Port → PortState → Ports
  | .playback, x => { q with playback := x }
  | .console, x => { q with console := x }
  | .venue, x => { q with venue := x }

def State.port (s : State) (p : Port) : PortState := s.ports.get p

def State.setPort (s : State) (p : Port) (x : PortState) : State :=
  { s with ports := s.ports.set p x }

/-! ## Notices -/

/-- A raise of a class on one port: pending, with this summary (R189). -/
def PortState.raise (q : PortState) (n : Notice) : PortState :=
  { q with notices := q.notices.set n.cls.val (some n) n.cls.isLt }

/-- A block raises a notice to the ports its rule names (R189). -/
def State.raise (s : State) (ps : List Port) (n : Notice) : State :=
  ps.foldl (fun t p => t.setPort p ((t.port p).raise n)) s

/-- The console and venue ports. -/
def consoleVenue : List Port := [.console, .venue]

/-- The playback and console ports. -/
def playbackConsole : List Port := [.playback, .console]

/-- All three ports. -/
def allPorts : List Port := [.playback, .console, .venue]

/-! ## The port's part in a command (R186 to R188) -/

/-- The permissions of 11.2 by command code, row by row of its table. -/
def permitted (code : Byte) (p : Port) : Bool :=
  let c := code.toNat
  let cv := p = .console || p = .venue
  let v := p = .venue
  let k := p = .console
  let b := p = .playback
  if 0x01 ≤ c && c ≤ 0x05 then cv
  else if 0x06 ≤ c && c ≤ 0x0C then v
  else if 0x0D ≤ c && c ≤ 0x0E then true
  else if 0x0F ≤ c && c ≤ 0x11 then v
  else if c = 0x12 then true
  else if 0x13 ≤ c && c ≤ 0x14 then b
  else if 0x15 ≤ c && c ≤ 0x16 then cv
  else if c = 0x17 then true
  else if 0x18 ≤ c && c ≤ 0x1A then b
  else if 0x1B ≤ c && c ≤ 0x1C then k
  else if 0x1D ≤ c && c ≤ 0x1E then true
  else if 0x1F ≤ c && c ≤ 0x25 then b
  else if c = 0x26 then b || k
  else if c = 0x27 then true
  else if 0x28 ≤ c && c ≤ 0x2C then cv
  else if c = 0x2D then true
  else if 0x2E ≤ c && c ≤ 0x34 then v
  else if 0x35 ≤ c && c ≤ 0x37 then true
  else if 0x38 ≤ c && c ≤ 0x3D then cv
  else if c = 0x3E then true
  else if 0x3F ≤ c && c ≤ 0x41 then cv
  else if c = 0x42 then k
  else if c = 0x43 then v
  else if c = 0x44 then true
  else if c = 0x45 then cv
  else if 0x46 ≤ c && c ≤ 0x47 then v
  else if c = 0x48 then true
  else if 0x49 ≤ c && c ≤ 0x4B then true
  else c = 0x4C && v

/-- Whether a code names a command: 0x01 to 0x4C (R194). -/
def namesCommand (code : Byte) : Bool := 1 ≤ code.toNat && code.toNat ≤ 0x4C

/-- Whether the port can take this frame now: it is READY with no read given in pieces under way, or it
is WAITING with this very frame held (log 9). -/
def PortState.admits (q : PortState) (f : Frame) : Bool :=
  match q.link with
  | .ready => q.reading.isNone
  | .receiving => false
  | .waiting => q.held = some f

/-- The acceptance of a frame (R186): LAST_FRAME_DISCARDED and REPLY_WAITING cleared, an unread
reply dropped, the port WAITING with the frame held. A frame already held stays as it is. -/
def PortState.accept (q : PortState) (f : Frame) : PortState :=
  if q.link = .waiting then q
  else { q with
    link := .waiting, gathered := [], held := some f, reply := none, replyWaiting := false
    discarded := false }

/-- The reply put in the buffer: REPLY_WAITING set, the port READY (R186). -/
def PortState.answer (q : PortState) (r : Reply) : PortState :=
  { q with link := .ready, held := none, reply := some r, replyWaiting := true }

def State.accept (s : State) (p : Port) (f : Frame) : State := s.setPort p ((s.port p).accept f)

def State.reply (s : State) (p : Port) (code : Byte) (result : ResultCode) (data : List Byte) :
    State :=
  s.setPort p ((s.port p).answer { code := code, result := result, data := data })

/-- What a block answers to a command it has taken: the state, the result code, the data. -/
structure Taken where
  state : State
  result : ResultCode
  data : List Byte

/-- A client command as a whole: the port takes the frame, checks the permission (R188), the block
takes the command, and its answer becomes the port's reply (R186). Where the port cannot take the
frame, the command is not due and nothing changes (logs 8, 9). Of the write transaction that it stands
for on a READY port it records no bytes shifted out (DESIGN CHOICE, log 58). -/
def State.command (s : State) (p : Port) (f : Frame) (block : State → Taken) : State :=
  if (s.port p).admits f then
    if permitted f.code p then
      let t := block (s.accept p f)
      t.state.reply p f.code t.result t.data
    else (s.accept p f).reply p f.code .notPermitted []
  else s

/-- A command the block refuses, unchanged. -/
def refuse (s : State) (r : ResultCode) : Taken := { state := s, result := r, data := [] }

/-- A read: the state unchanged, OK with data. -/
def readOk (s : State) (data : List Byte) : Taken := { state := s, result := .ok, data := data }

/-! ## The slot table -/

def State.setSlot (s : State) (i : Fin 4) (x : Slot) : State :=
  { s with slots := s.slots.set i.val x i.isLt }

/-- The slot bound to a ticket (R63). -/
def State.boundSlot (s : State) (t : Nat) : Option (Fin 4) :=
  slotNumbers.find? fun i => s.slots[i].ticket = some t

/-- The slot in LOADING: the loader's (R68). -/
def State.loadingSlot (s : State) : Option (Fin 4) :=
  slotNumbers.find? fun i => s.slots[i].state = .loading

/-- The checked track of the turn's slot. -/
def State.stageTrack (s : State) : Option Track :=
  match s.turn with
  | none => none
  | some t => s.slots[t.slot].track

/-- A ceiling of a quotient. -/
def ceilDiv (a b : Nat) : Nat := (a + b - 1) / b

/-- A slot goes to SCRUB (R80): unbound at once, any load or check abandoned, for
1 + ⌈bytes used / 4096⌉ ms. -/
def Slot.toScrub (x : Slot) : Slot :=
  { x with state := .scrub, ticket := none, timer := 1 + ceilDiv x.bytes.length 4096 }

def State.scrubSlot (s : State) (i : Fin 4) : State := s.setSlot i s.slots[i].toScrub

end Sys2Proof.Machine
end

