-- ==== Sys2Proof/Machine/CacheOps.lean ====
section
/-! DEFINITION. Operations of the Glyph Cache: lookup with pin, pin release, prefetch lookup
(R124 to R127, R131). -/

namespace Sys2Proof.Machine

/-- The built-in substitute: advance 24 (R129). -/
def substituteBitmap : Bitmap := { coverage := .substitute, advance := 24 }

/-- The entry that holds a code (R124). -/
def Cache.find (c : Cache) (k : Code) : Option Nat :=
  c.entries.findIdx? fun e => e.code = some k

def Cache.entry (c : Cache) (i : Nat) : CacheEntry := c.entries.getD i CacheEntry.empty

def Cache.setEntry (c : Cache) (i : Nat) (e : CacheEntry) : Cache :=
  { c with entries := c.entries.set i e }

/-- An entry moves to most recent (R124). -/
def Cache.touch (c : Cache) (i : Nat) : Cache :=
  { c with recency := c.recency.filter (· ≠ i) ++ [i] }

/-- An entry joins the FETCHING entries, youngest (R128). -/
def Cache.enqueue (c : Cache) (i : Nat) : Cache :=
  { c with fetchOrder := c.fetchOrder.filter (· ≠ i) ++ [i] }

def Cache.dequeue (c : Cache) (i : Nat) : Cache :=
  { c with fetchOrder := c.fetchOrder.filter (· ≠ i) }

def CacheEntry.isFetching (e : CacheEntry) : Bool :=
  match e.state with
  | .fetching _ => true
  | _ => false

/-- The entry a miss takes (R125): the lowest-numbered FREE entry, or else the least recent entry
that is unpinned and not FETCHING. A prefetch takes the same one (R127), since an entry in the
recency order that is not FETCHING is RESIDENT or STALE. -/
def Cache.victim (c : Cache) : Option Nat :=
  match c.entries.findIdx? fun e => e.state = .free with
  | some i => some i
  | none => c.recency.find? fun i => (c.entry i).pins = 0 && !(c.entry i).isFetching

/-- An entry is given a new code (R124): marks and bitmap cleared, most recent. -/
def Cache.assign (c : Cache) (i : Nat) (e : CacheEntry) : Cache := (c.setEntry i e).touch i

/-- A lookup with pin (R125, R131). -/
def Cache.lookupPin (store : StoreState) (c : Cache) (k : Code) : Cache :=
  match c.find k with
  | some i =>
    let e := { c.entry i with pins := (c.entry i).pins + 1 }
    match e.state with
    | .fetching .prefetch => (c.setEntry i { e with state := .fetching .demand }).touch i
    | .stale =>
      if store = .ready then
        ((c.setEntry i { e with state := .fetching .demand }).touch i).enqueue i
      else (c.setEntry i e).touch i
    | _ => (c.setEntry i e).touch i
  | none =>
    match c.victim with
    | none => c
    | some i =>
      let e : CacheEntry := { CacheEntry.empty with code := some k, pins := 1 }
      match store with
      | .scanning | .ready => (c.assign i { e with state := .fetching .demand }).enqueue i
      | .absent =>
        c.assign i { e with
          state := .resident, bitmap := some substituteBitmap, substitute := true }
      | .maintenance | .busy _ _ =>
        c.assign i { e with
          state := .stale, bitmap := some substituteBitmap, substitute := true }

/-- The withdrawal of a fetch not started (R126): FREE without a bitmap, else back to STALE. -/
def Cache.withdraw (c : Cache) (i : Nat) : Cache :=
  match (c.entry i).bitmap with
  | none =>
    { c with
      entries := c.entries.set i CacheEntry.empty
      recency := c.recency.filter (· ≠ i)
      fetchOrder := c.fetchOrder.filter (· ≠ i) }
  | some _ => (c.setEntry i { c.entry i with state := .stale }).dequeue i

/-- A pin release (R126). -/
def Cache.release (c : Cache) (k : Code) : Cache :=
  match c.find k with
  | none => c
  | some i =>
    let e := { c.entry i with pins := (c.entry i).pins - 1 }
    let c' := c.setEntry i e
    if e.pins = 0 && e.isFetching && c.inProgress ≠ some i then c'.withdraw i else c'

/-- FETCHING entries of one class. -/
def Cache.countFetching (c : Cache) (cls : FetchClass) : Nat :=
  c.entries.countP fun e => e.state = .fetching cls

/-- A prefetch lookup (R127). One that hits moves its entry to most recent in every state of the
store (DESIGN CHOICE, log 48). -/
def Cache.prefetch (store : StoreState) (c : Cache) (k : Code) : Cache :=
  match c.find k with
  | some i => c.touch i
  | none =>
    if (store = .scanning || store = .ready) &&
        c.countFetching .prefetch < Config.prefetchLimit then
      match c.victim with
      | none => c
      | some i =>
        (c.assign i { CacheEntry.empty with
          code := some k, state := .fetching .prefetch }).enqueue i
    else c

/-- A code list without its repeats, in the order of first appearance. -/
def distinct : List Code → List Code
  | [] => []
  | k :: ks => k :: (distinct ks).filter (· ≠ k)

/-- One lookup with pin per occurrence. -/
def State.pin (s : State) (codes : List Code) : State :=
  { s with cache := codes.foldl (Cache.lookupPin s.font.store) s.cache }

/-- One pin release per occurrence. -/
def State.unpin (s : State) (codes : List Code) : State :=
  { s with cache := codes.foldl Cache.release s.cache }

/-- One prefetch lookup per distinct code. -/
def State.prefetch (s : State) (codes : List Code) : State :=
  { s with cache := (distinct codes).foldl (Cache.prefetch s.font.store) s.cache }

end Sys2Proof.Machine
end

