-- ==== Sys2Proof/Machine/LineOps.lean ====
section
/-! DEFINITION. The Line Scheduler: effective bands, line events, placement, scroll, rebuild, title
band, score show (R101 to R118, R121). -/

namespace Sys2Proof.Machine

/-! ## The canvas and its bands (R101 to R103) -/

def Canvas.width : Canvas → Nat
  | .hd720 => 1280 | .hd1080 => 1920

def Canvas.height : Canvas → Nat
  | .hd720 => 720 | .hd1080 => 1080

/-- A value lowered by 1 at a time, down to `floor`, while it is too large (R103). -/
def lowerWhile (tooLarge : Nat → Bool) (floor : Nat) : Nat → Nat
  | 0 => 0
  | n + 1 => if tooLarge (n + 1) && floor < n + 1 then lowerWhile tooLarge floor n else n + 1

/-- The layout sum of R103: title height + 56 × rows + guide height + 64. -/
def bandSum (titleRows rows guide : Nat) : Nat := 56 * titleRows + 56 * rows + guide + 64

/-- The effective bands (R103) and where they lie (R102). -/
def LineScheduler.layout (l : LineScheduler) : Layout :=
  let h := l.canvas.height
  let rows0 := match l.style with
    | .scroll => l.lyricRows
    | .alternate => 2
  let guide := 8 * lowerWhile (fun g => h < bandSum l.titleRowsSetting rows0 (8 * g)) 0
    (l.guideSetting / 8)
  let rows := lowerWhile (fun r => h < bandSum l.titleRowsSetting r guide) 2 rows0
  let title := lowerWhile (fun t => h < bandSum t rows guide) 0 l.titleRowsSetting
  { width := l.canvas.width, height := h, titleRows := title, rows := rows, guide := guide
    lyricTop := h - 32 - guide - 56 * rows, guideTop := h - 32 - guide }

/-! ## Lines of the track on stage (R106, R107) -/

def Line.start (l : Line) : Nat :=
  match l.syllables with
  | [] => 0
  | x :: _ => x.start

def Line.stop (l : Line) : Nat :=
  match l.syllables.getLast? with
  | none => 0
  | some x => x.start + x.duration

def Line.codes (l : Line) : List Code := l.syllables.flatMap (·.glyphs)

/-- The event times of a line (R107); the prefetch and post times may be below 0. -/
def LineScheduler.prefetchTime (l : LineScheduler) (x : Line) : Int :=
  (x.start : Int) - l.lead - 1000

def LineScheduler.postTime (l : LineScheduler) (x : Line) : Int := (x.start : Int) - l.lead

def LineScheduler.doneTime (l : LineScheduler) (x : Line) : Nat := x.stop + l.hold

def LineScheduler.leaveTime (l : LineScheduler) (x : Line) : Nat := x.stop + l.hold + l.linger

/-- The lines of the track on stage with their line indices. -/
def State.stageLines (s : State) : List (Line × Nat) :=
  match s.stageTrack with
  | none => []
  | some t => t.lines.zipIdx

/-- The glyph codes of a line of the track on stage, one per occurrence. -/
def State.lineCodes (s : State) (index : Nat) : List Code :=
  match s.stageTrack with
  | none => []
  | some t => ((t.lines[index]?).map Line.codes).getD []

/-! ## The line window (R106) -/

def State.mapLines (s : State) (f : LineScheduler → LineScheduler) : State :=
  { s with lines := f s.lines }

/-- A new line in its place: the LEAVING line first, then by row. -/
def insertByRow (w : List WindowLine) (x : WindowLine) : List WindowLine :=
  let ahead := fun (l : WindowLine) => l.state = .leaving || l.row < x.row
  w.takeWhile (fun l => ahead l) ++ x :: w.dropWhile (fun l => ahead l)

/-- A line enters the window in a row and takes its pins (R106). -/
def State.enterLine (s : State) (x : PendingLine) (row : Nat) : State :=
  let codes := s.lineCodes x.index
  let new : WindowLine :=
    { index := x.index, row := row, state := x.state, clipped := false, linger := false
      pins := codes }
  (s.mapLines fun l => { l with window := insertByRow l.window new }).pin codes

/-- The lines that satisfy `p` leave the window and release their pins (R106). -/
def State.dropLines (s : State) (p : WindowLine → Bool) : State :=
  (s.mapLines fun l => { l with window := l.window.filter fun x => !p x }).unpin
    ((s.lines.window.filter p).flatMap (·.pins))

def WindowLine.isLeaving (x : WindowLine) : Bool := x.state = .leaving

/-- The line that stands in a row, if any. -/
def LineScheduler.occupant (l : LineScheduler) (row : Nat) : Option WindowLine :=
  l.window.find? fun x => !x.isLeaving && x.row = row

/-- The lowest-numbered empty row (R109). -/
def LineScheduler.emptyRow (l : LineScheduler) : Option Nat :=
  (List.range l.layout.rows).find? fun r => (l.occupant r).isNone

/-- A line of the window as a scroll starts: row 0 goes LEAVING, the others move up (R109). -/
def WindowLine.moveUp (x : WindowLine) : WindowLine :=
  if x.row = 0 then { x with state := .leaving } else { x with row := x.row - 1 }

/-- A scroll starts, with or without an entering line (R109 to R111). -/
def State.startScroll (s : State) (entering : Option PendingLine) : State :=
  let s := s.mapLines fun l =>
    { l with
      window := l.window.map WindowLine.moveUp
      scroll := some { total := l.scrollTime, done := 0 } }
  match entering with
  | none => s
  | some x => s.enterLine x (s.lines.layout.rows - 1)

/-- One placement of the front of the pending list, if it can be placed (R109, R112). -/
def State.placeStep (s : State) : Option State :=
  match s.lines.pending with
  | [] => none
  | x :: rest =>
    if s.lines.scroll.isSome then none
    else
      let taken := s.mapLines fun l => { l with pending := rest }
      match s.lines.style with
      | .scroll =>
        match s.lines.emptyRow with
        | some r => some (taken.enterLine x r)
        | none =>
          match s.lines.occupant 0 with
          | some top => if top.state = .done then some (taken.startScroll (some x)) else none
          | none => none
      | .alternate =>
        let r := x.index % 2
        match s.lines.occupant r with
        | none => some (taken.enterLine x r)
        | some o =>
          if o.state = .done then
            some ((taken.dropLines fun y => y.index = o.index).enterLine x r)
          else none

/-- The top line leaves when it carries the linger mark and no scroll is in motion (R111). -/
def State.lingerStep (s : State) : Option State :=
  if s.lines.style = .scroll && s.lines.scroll.isNone then
    match s.lines.occupant 0 with
    | some top => if top.linger then some (s.startScroll none) else none
    | none => none
  else none

/-- A scroll whose last latch has been counted completes: the LEAVING line leaves (R110). -/
def State.completeStep (s : State) : Option State :=
  match s.lines.scroll with
  | none => none
  | some sc =>
    if sc.total ≤ sc.done then
      some ((s.dropLines WindowLine.isLeaving).mapLines fun l => { l with scroll := none })
    else none

/-- Completion of a scroll, then the pending list, then the linger mark, as long as any of them
acts (R109 to R111). Each action empties a little of the pending list or the window, so that
the bound is never met. -/
def settleLines : Nat → State → State
  | 0, s => s
  | n + 1, s =>
    match s.completeStep with
    | some t => settleLines n t
    | none =>
      match s.placeStep with
      | some t => settleLines n t
      | none =>
        match s.lingerStep with
        | some t => settleLines n t
        | none => s

def State.settle (s : State) : State :=
  settleLines (4 * (s.lines.pending.length + s.lines.window.length) + 8) s

/-- The window, the pending list and any scroll are emptied (R55 step 5, R123). -/
def State.emptyWindow (s : State) : State :=
  (s.dropLines fun _ => true).mapLines fun l => { l with pending := [], scroll := none }

/-! ## Line events (R107) -/

inductive LineEvent where
  | done | leave | start | post | prefetch
deriving DecidableEq, Repr

/-- The order in which the events of one time are taken (R107). -/
def LineEvent.all : List LineEvent := [.done, .leave, .start, .post, .prefetch]

def LineScheduler.eventTime (l : LineScheduler) (x : Line) : LineEvent → Int
  | .done => l.doneTime x
  | .leave => l.leaveTime x
  | .start => x.start
  | .post => l.postTime x
  | .prefetch => l.prefetchTime x

/-- The state of a line, wherever it stands, after a start or done event (R107). -/
def LineState.after : LineEvent → LineState → LineState
  | .start, .posted => .singing
  | .done, .posted => .done
  | .done, .singing => .done
  | _, st => st

def LineScheduler.mark (l : LineScheduler) (index : Nat) (e : LineEvent) : LineScheduler :=
  { l with
    window := l.window.map fun x =>
      if x.index = index then { x with state := x.state.after e } else x
    pending := l.pending.map fun x =>
      if x.index = index then { x with state := x.state.after e } else x }

def LineScheduler.holds (l : LineScheduler) (index : Nat) : Bool :=
  l.window.any (·.index = index) || l.pending.any (·.index = index)

/-- What an event itself does, before the pending list is tried (R107, R108, R109, R111, R112). -/
def State.lineEvent (s : State) (x : Line) (index : Nat) : LineEvent → State
  | .done => s.mapLines (·.mark index .done)
  | .start => s.mapLines (·.mark index .start)
  | .leave =>
    let s := s.mapLines fun l => { l with pending := l.pending.filter (·.index ≠ index) }
    match s.lines.style with
    | .scroll => s.mapLines fun l =>
        { l with window := l.window.map fun y =>
            if y.index = index then { y with linger := true } else y }
    | .alternate => s.dropLines fun y => y.index = index
  | .post =>
    if s.lines.holds index then s
    else s.mapLines fun l =>
      { l with pending := l.pending ++ [{ index := index, state := .posted }] }
  | .prefetch => s.prefetch x.codes

/-- A post event that leaves its line waiting for a row counts POST_LATE (R109, R112, R152). A line
posted again after a rewind, and again found waiting, is counted again (DESIGN CHOICE, log 47). -/
def State.countPostLate (s : State) (index : Nat) : State :=
  if s.lines.pending.any (·.index = index) && s.lines.scroll.isNone then
    { s with video := { s.video with postLate := bump 255 s.video.postLate } }
  else s

/-- One event: its own effect, then the pending list is tried (R107). -/
def State.takeLineEvent (s : State) (e : LineEvent) (x : Line × Nat) : State :=
  let t := (s.lineEvent x.1 x.2 e).settle
  if e = .post then t.countPostLate x.2 else t

/-- The events of every line at one song time, kind by kind and in track order (R107). Nothing is
taken while a rebuild is requested or the stage is EMPTY. -/
def State.lineEventsAt (s : State) (time : Nat) : State :=
  if s.lines.rebuild || s.turn.isNone then s
  else
    LineEvent.all.foldl (fun s e =>
      (s.stageLines.filter fun x => s.lines.eventTime x.1 e = (time : Int)).foldl
        (fun s x => s.takeLineEvent e x) s) s

/-! ## Rebuild (R113, R114) -/

/-- A rebuild is requested; a scroll in motion is ended at once (R113). -/
def State.requestRebuild (s : State) : State :=
  (s.dropLines WindowLine.isLeaving).mapLines fun l => { l with rebuild := true, scroll := none }

/-- The state a line's position calls for (R114). -/
def LineScheduler.stateAt (l : LineScheduler) (x : Line) (position : Nat) : LineState :=
  if position < x.start then .posted
  else if position < l.doneTime x then .singing
  else .done

/-- The lines whose post time is at or below the position and whose leave time is above it. -/
def LineScheduler.due (l : LineScheduler) (lines : List (Line × Nat)) (position : Nat) :
    List (Line × Nat) :=
  lines.filter fun x => l.postTime x.1 ≤ (position : Int) && position < l.leaveTime x.1

/-- The lines a rebuild keeps, with their rows (R114). In ALTERNATE row 0's line stands before row
1's, also where it is the later line of the track (DESIGN CHOICE, log 49). -/
def LineScheduler.kept (l : LineScheduler) (lines : List (Line × Nat)) (position : Nat) :
    List ((Line × Nat) × Nat) :=
  let due := l.due lines position
  match l.style with
  | .scroll => (due.drop (due.length - l.layout.rows)).zipIdx
  | .alternate =>
    let lastOf := fun r => (due.filter fun x => x.2 % 2 = r).getLast?
    ((lastOf 0).map fun x => (x, 0)).toList ++ ((lastOf 1).map fun x => (x, 1)).toList

/-- The rebuild of the window from the clock's position (R114): releases first, then new pins, row 0's
line first (in ALTERNATE a DESIGN CHOICE, log 49), then the prefetch lookups. -/
def State.rebuildFrom (s : State) (lines : List (Line × Nat)) : State :=
  let position := s.clock.position
  let l := s.lines
  let kept := l.kept lines position
  let old := l.window
  let window := kept.map fun k : (Line × Nat) × Nat =>
    { index := k.1.2, row := k.2, state := l.stateAt k.1.1 position
      clipped := old.any fun o => o.index = k.1.2 && o.clipped
      linger := false, pins := k.1.1.codes : WindowLine }
  let gone := old.filter fun o => !(kept.any fun k => k.1.2 = o.index)
  let new := kept.filter fun k => !(old.any fun o => o.index = k.1.2)
  let s := s.unpin (gone.flatMap (·.pins))
  let s := s.mapLines fun l =>
    { l with window := window, pending := [], scroll := none, rebuild := false }
  let s := s.pin (new.flatMap fun k => k.1.1.codes)
  (lines.filter fun x =>
      l.prefetchTime x.1 ≤ (position : Int) && (position : Int) < l.postTime x.1).foldl
    (fun s x => s.prefetch x.1.codes) s

/-- A pending rebuild, made at a frame latch (R113). -/
def State.makeRebuild (s : State) : State :=
  if s.lines.rebuild then
    match s.turn with
    | none => s.mapLines fun l => { l with rebuild := false }
    | some _ => s.rebuildFrom s.stageLines
  else s

/-! ## Scroll at a latch (R110, R149 step 2) -/

/-- A latch is counted against the scroll in motion, which completes at its last latch. -/
def State.countScroll (s : State) : State :=
  match s.lines.scroll with
  | none => s
  | some sc =>
    (s.mapLines fun l => { l with scroll := some { sc with done := sc.done + 1 } }).settle

/-! ## Title band (R118) -/

/-- The head of the Book with its READY slot, if it has one. -/
def State.readyHead (s : State) : Option (Entry × Fin 4) :=
  match s.book.entries with
  | [] => none
  | e :: _ =>
    match s.boundSlot e.ticket with
    | some i => if s.slots[i].state = .ready then some (e, i) else none
    | none => none

/-- The content of the title band, from the stage and the Book. -/
def State.titleChoice (s : State) : TitleContent :=
  match s.turn with
  | some t => .stage t.slot
  | none =>
    match s.readyHead with
    | some (_, i) => .nextUp i
    | none => .none

/-- The title and artist lists of a slot. -/
def State.titleLists (s : State) (i : Fin 4) : List (List Code) :=
  match s.slots[i].track with
  | none => []
  | some t => [t.title, t.artist]

/-- The glyph lists shown in the title rows. -/
def State.titleShown (s : State) : List (List Code) :=
  match s.titleChoice with
  | .none => []
  | .stage i => (s.titleLists i).take s.lines.layout.titleRows
  | .nextUp i => (s.titleLists i).take s.lines.layout.titleRows

/-- The head whose title is prefetched while the stage is OCCUPIED, with its READY slot (R118). -/
def State.hintKey (s : State) : Option (Nat × Fin 4) :=
  if s.turn.isSome then s.readyHead.map fun h => (h.1.ticket, h.2) else none

/-- The prefetch of the head's title while the stage is OCCUPIED, once each time the head or its
slot's state changes (R118, log 36). -/
def State.hintTitle (s : State) : State :=
  let noted := s.mapLines fun l => { l with hinted := s.hintKey }
  if s.hintKey = s.lines.hinted then s
  else match s.hintKey with
    | none => noted
    | some (_, i) => noted.prefetch (s.titleLists i).flatten

/-- The title band is chosen again: new pins are taken before the old are released (R118), title before
artist, and the lookups of a prefetch that the same event calls for come last (DESIGN CHOICE,
log 55). -/
def State.retitle (s : State) : State :=
  let content := s.titleChoice
  let shown := s.titleShown
  let old := s.lines.titleRows
  let s :=
    if content = s.lines.title && shown = old then s
    else
      ((s.mapLines fun l => { l with title := content, titleRows := shown }).pin
        shown.flatten).unpin old.flatten
  s.hintTitle

/-! ## Score show (R121) -/

/-- The glyph code of a decimal digit. -/
def digitCode (n : Nat) : Code := BitVec.ofNat 16 (0x30 + n % 10)

/-- The whole points, without leading zeros, at least one digit. -/
def pointsText (n : Nat) : List Code :=
  if n < 10 then [digitCode n]
  else if n < 100 then [digitCode (n / 10), digitCode n]
  else [digitCode (n / 100), digitCode (n / 10), digitCode n]

/-- The text of a headline: points, a point, two digits (R121). -/
def headlineText (h : Nat) : List Code :=
  pointsText (h / 100) ++ [0x2E, digitCode (h % 100 / 10), digitCode h]

/-- The score show starts (R121). -/
def State.startScoreShow (s : State) (headline : Option Nat) : State :=
  match headline with
  | none => s
  | some h =>
    if s.lines.scoreHold = 0 then s
    else (s.mapLines fun l =>
      { l with scoreShow := some { headline := h, left := l.scoreHold } }).pin (headlineText h)

/-- The score show ends and releases its pins (R121). -/
def State.endScoreShow (s : State) : State :=
  match s.lines.scoreShow with
  | none => s
  | some x => (s.mapLines fun l => { l with scoreShow := none }).unpin (headlineText x.headline)

end Sys2Proof.Machine
end

