-- ==== Sys2Proof/Machine/Compose.lean ====
section
/-! DEFINITION. The overlay picture: line geometry and wipe (R105, R116, R117), the guide band
(R119, R120), keying (R148), the capture and the counts of a frame latch (R149, R152), and the
composition of one output pixel (R150). -/

namespace Sys2Proof.Machine

/-! ## Lines as glyphs (R105, R116, R130) -/

/-- What a glyph occurrence is drawn from and its advance (R130). -/
def Cache.drawnGlyph (c : Cache) (k : Code) : Drawn × Nat :=
  match c.find k with
  | none => (.blank, 32)
  | some i =>
    match (c.entry i).bitmap with
    | some b => (.coverage b.coverage, b.advance)
    | none => (.blank, 32)

def Cache.textWidth (c : Cache) (codes : List Code) : Nat :=
  (codes.map fun k => (c.drawnGlyph k).2).sum

/-- The glyphs of a text from column x on, each placed directly after the one before. -/
def Cache.placeGlyphs (c : Cache) (y split : Int) (sung unsung : Colour) (clip : Int) :
    Int → List Code → List GlyphBox
  | _, [] => []
  | x, k :: ks =>
    { code := k, x := x, y := y, drawn := (c.drawnGlyph k).1, split := split, sung := sung
      unsung := unsung, clip := clip } ::
      Cache.placeGlyphs c y split sung unsung clip (x + (c.drawnGlyph k).2) ks

/-- The left edge of a line of a width (R105). -/
def leftEdge (canvasWidth width : Nat) : Nat :=
  if width ≤ canvasWidth - 128 then 64 + (canvasWidth - 128 - width) / 2 else 64

/-- The sung width of a syllable (R116). -/
def sungWidth (x : Syllable) (width t : Nat) : Nat :=
  if x.duration = 0 then (if t < x.start then 0 else width)
  else min width (width * (t - x.start) / x.duration)

/-- The glyphs of a line's syllables from column x on (R105, R116). -/
def Cache.placeSyllables (c : Cache) (t : Nat) (y : Int) (sung unsung : Colour) (clip : Int) :
    Int → List Syllable → List GlyphBox
  | _, [] => []
  | x, z :: zs =>
    let w := c.textWidth z.glyphs
    c.placeGlyphs y (x + sungWidth z w t) sung unsung clip x z.glyphs ++
      Cache.placeSyllables c t y sung unsung clip (x + w) zs

/-- Whether a glyph cell shows anything inside a band and left of its clip column. -/
def GlyphBox.visible (g : GlyphBox) (top height : Int) : Bool :=
  g.x < g.clip && g.y < top + height && top < g.y + 48

/-- The sung colour of a part tag (R117). -/
def LineScheduler.sungColour (l : LineScheduler) : PartTag → Colour
  | .a => l.sungA
  | .b => l.sungB
  | .both => l.sungBoth

/-- How much lower than its row every line is drawn while a scroll is in motion (R110). At a latch in
whose own step 2 the scroll starts, k is 0 and the offset 56 (DESIGN CHOICE, log 41). -/
def LineScheduler.scrollOffset (l : LineScheduler) : Nat :=
  match l.scroll with
  | none => 0
  | some sc => if sc.total = 0 then 0 else 56 * (sc.total - sc.done) / sc.total

/-- The top edge of a window line's row; the LEAVING line stands above row 0. -/
def LineScheduler.rowTop (l : LineScheduler) (x : WindowLine) : Int :=
  let row : Int := if x.isLeaving then -1 else x.row
  l.layout.lyricTop + 56 * row + l.scrollOffset

/-- The glyphs of one line of the window. -/
def State.lineGlyphs (s : State) (t : Nat) (x : WindowLine) : List GlyphBox :=
  match s.stageTrack with
  | none => []
  | some track =>
    match track.lines[x.index]? with
    | none => []
    | some line =>
      let l := s.lines
      let part := l.sungColour line.tag
      let (sung, unsung) := if s.video.invert then (l.unsung, part) else (part, l.unsung)
      let lay := l.layout
      let top := l.rowTop x + 4
      (s.cache.placeSyllables t top sung unsung (lay.width - 64 : Nat)
        (leftEdge lay.width (s.cache.textWidth line.codes)) line.syllables).filter
        fun g => g.visible lay.lyricTop (56 * lay.rows : Nat)

/-- Whether a line of the window is drawn clipped (R105). -/
def State.drawnClipped (s : State) (t : Nat) (x : WindowLine) : Bool :=
  s.lines.layout.width - 128 < s.cache.textWidth (s.lineCodes x.index) &&
    !(s.lineGlyphs t x).isEmpty

/-- The glyphs of a text laid out as a line at a height, all of one colour. -/
def State.textGlyphs (s : State) (codes : List Code) (y : Int) (colour : Colour) :
    List GlyphBox :=
  let w := s.lines.layout.width
  let left := leftEdge w (s.cache.textWidth codes)
  (s.cache.placeGlyphs y left colour colour (w - 64 : Nat) left codes).filter
    fun g => g.x < g.clip

/-- The glyphs of the title band (R102, R117, R118). -/
def State.titleGlyphs (s : State) : List GlyphBox :=
  s.lines.titleRows.zipIdx.flatMap fun r =>
    s.textGlyphs r.1 (32 + 56 * r.2 + 4 : Nat) s.lines.unsung

/-- The glyphs of the score show, drawn while the guide height is 48 or more (R121). -/
def State.scoreGlyphs (s : State) : List GlyphBox :=
  let lay := s.lines.layout
  match s.lines.scoreShow with
  | none => []
  | some x =>
    if lay.guide < 48 then []
    else s.textGlyphs (headlineText x.headline) (lay.guideTop + (lay.guide - 48) / 2 : Nat)
      s.lines.sungBoth

/-! ## The guide band (R119, R120) -/

/-- The part a channel is assessed on (R155). -/
def Channel.assessed (c : Channel) (track : Option Track) : Part :=
  match track with
  | some t => if t.partCount = 1 then .a else c.part
  | none => c.part

/-- Whether a tag belongs to a part (R155). -/
def PartTag.isOf : PartTag → Part → Bool
  | .both, _ => true
  | .a, .a => true
  | .b, .b => true
  | _, _ => false

def Note.stop (n : Note) : Nat := n.start + n.duration

/-- The lowest and highest note of a track (R77); absent without notes. -/
def Track.lowest (t : Track) : Option Nat :=
  match t.notes with
  | [] => none
  | n :: ns => some (ns.foldl (fun m x => min m x.number) n.number)

def Track.highest (t : Track) : Option Nat :=
  match t.notes with
  | [] => none
  | n :: ns => some (ns.foldl (fun m x => max m x.number) n.number)

/-- The column of a song time in the guide band (R119). -/
def guideColumn (width t : Nat) (u : Nat) : Int :=
  64 + (((u : Int) - ((t : Int) - 1000)) * (width - 128 : Nat)) / 4000

/-- The row of a pitch, from the band's top (R119). -/
def guideRow (lo hi : Int) (guide : Nat) (q : Int) : Int :=
  ((hi - q) * ((guide : Int) - 1)) / (hi - lo)

/-- The pitch axis: its bottom and top (R119); absent on a track without notes. -/
def Track.axis (t : Track) (key : Int) : Option (Int × Int) :=
  match t.lowest, t.highest with
  | some l, some h => some (8 * ((l : Int) + key - 2), 8 * ((h : Int) + key + 2))
  | _, _ => none

/-- The enabled channels' assessed parts. -/
def State.enabledParts (s : State) : List Part :=
  (micNumbers.filter fun m => s.voice.channels[m].enabled).map
    fun m => s.voice.channels[m].assessed s.stageTrack

/-- The note bars (R119), blended in the track's order of notes (DESIGN CHOICE, log 54). -/
def State.bars (s : State) : List Patch :=
  match s.stageTrack with
  | none => []
  | some track =>
    match track.axis s.clock.key with
    | none => []
    | some (lo, hi) =>
      let lay := s.lines.layout
      let t := s.clock.position
      if lay.guide = 0 || s.clock.interlude = .inside then []
      else
        (track.notes.filter fun n =>
            (s.enabledParts.any fun p => n.tag.isOf p) &&
            t < n.stop + 1000 && n.start < t + 3000).map fun n =>
          let row := guideRow lo hi lay.guide (8 * ((n.number : Int) + s.clock.key))
          { x0 := max 64 (guideColumn lay.width t n.start)
            x1 := min (lay.width - 64 : Nat) (guideColumn lay.width t n.stop)
            y0 := lay.guideTop + row - 3, y1 := lay.guideTop + row + 3
            colour := s.lines.sungColour n.tag, filled := true }

/-- The note a marker refers to at t: the part's note at t, or the latest starting before t, or the
first (R120). -/
def markerNote (notes : List Note) (t : Nat) : Option Note :=
  match notes.find? fun n => n.start ≤ t && t < n.stop with
  | some n => some n
  | none =>
    match (notes.filter fun n => n.start < t).getLast? with
    | some n => some n
    | none => notes.head?

/-- The sung pitch folded to the octave nearest a reference: -48 to 47 (R120, R163). -/
def fold (d : Int) : Int := modInt (d + 48) 96 - 48

/-- The marker of one channel (R120). -/
def State.marker (s : State) (m : Fin 4) : Option Patch :=
  let c := s.voice.channels[m]
  match s.stageTrack, c.lastFrame with
  | some track, some frame =>
    match frame.pitch, track.axis s.clock.key,
        markerNote (track.notes.filter fun n => n.tag.isOf (c.assessed (some track)))
          s.clock.position with
    | some p, some (lo, hi), some n =>
      let lay := s.lines.layout
      if c.enabled && (s.sessionTime - frame.at_).toNat ≤ 40 && lay.guide ≠ 0 then
        let r := 8 * ((n.number : Int) + s.clock.key)
        let row := clampInt 0 ((lay.guide : Int) - 1) (guideRow lo hi lay.guide (r + fold (p - r)))
        let x : Int := 64 + ((lay.width - 128) / 4 : Nat)
        some { x0 := x - 4, x1 := x + 4, y0 := lay.guideTop + row - 4, y1 := lay.guideTop + row + 4
               colour := c.colour, filled := c.lock = .locked }
      else none
    | _, _, _ => none
  | _, _ => none

/-! ## Keying and the frame latch (R148, R149) -/

/-- The bands in scope with a height above 0 (R148). -/
def State.bandsInScope (s : State) : Bands :=
  let lay := s.lines.layout
  let full := s.video.scope = .full
  { title := full && lay.titleRows ≠ 0, lyric := true, guide := full && lay.guide ≠ 0 }

/-- The set of bands keyed at a latch (R148). -/
def State.keyed (s : State) : Option Bands :=
  let v := s.video
  if (v.path = .locked || v.path = .noInput) && v.power = .active && v.switch &&
      v.content ≠ .blank then some s.bandsInScope
  else none

/-- Whether a latch that keys these bands draws the title, lyric and guide bands (R148). -/
def State.drawnBands (s : State) : Bands :=
  match s.keyed with
  | some b => if s.video.content = .normal then b else ⟨false, false, false⟩
  | none => ⟨false, false, false⟩

/-- The capture (R149 step 3). The picture beneath is black while the path is NO_INPUT and the input in
every other state, also in a free-run frame begun after a run has reached 2 (DESIGN CHOICE, log 52). -/
def State.capture (s : State) : OutputFrame :=
  { position := s.clock.position, black := s.video.path = .noInput, layout := s.lines.layout
    keyed := s.keyed, fillContent := s.video.content = .fill
    planeOpacity := s.video.planeOpacity, shade := s.video.shade
    shadeOpacity := s.video.shadeOpacity, fill := s.video.fill
    titleGlyphs := s.titleGlyphs
    lyricGlyphs := s.lines.window.flatMap (s.lineGlyphs s.clock.position)
    guideGlyphs := s.scoreGlyphs, bars := s.bars, markers := micNumbers.filterMap s.marker
    mark := s.video.fmark }

/-- The glyph cells the latch draws. -/
def State.drawnGlyphs (s : State) (f : OutputFrame) : List GlyphBox :=
  let b := s.drawnBands
  (if b.title then f.titleGlyphs else []) ++ (if b.lyric then f.lyricGlyphs else []) ++
    (if b.guide then f.guideGlyphs else [])

/-- GLYPH_LATE at one drawn glyph (R130): a FETCHING entry with no bitmap and a clear late mark. -/
def State.countLate (s : State) (k : Code) : State :=
  match s.cache.find k with
  | none => s
  | some i =>
    let e := s.cache.entry i
    if e.isFetching && e.bitmap.isNone && !e.late then
      { s with
        cache := s.cache.setEntry i { e with late := true }
        video := { s.video with glyphLate := bump 255 s.video.glyphLate } }
    else s

/-- LINE_CLIPPED at one line of the window (R105). -/
def State.countClipped (s : State) (x : WindowLine) : State :=
  if !x.clipped && s.drawnClipped s.clock.position x then
    let s := s.mapLines fun l =>
      { l with window := l.window.map fun y =>
          if y.index = x.index then { y with clipped := true } else y }
    { s with video := { s.video with lineClipped := bump 255 s.video.lineClipped } }
  else s

/-- The counts of step 4, for the bands the latch draws (R152). -/
def State.countDrawn (s : State) (f : OutputFrame) : State :=
  let late := (s.drawnGlyphs f).foldl (fun s g => s.countLate g.code) s
  if s.drawnBands.lyric then late.lines.window.foldl State.countClipped late else late

/-- Last latch keyed is set and the captured frame kept (R149 steps 3 and 4). -/
def State.showFrame (s : State) (f : OutputFrame) : State :=
  { s with video := { s.video with lastKeyed := f.keyed, frame := some f } }

/-- Steps 3 to 5 of a latch: the capture, the keying and the counts, the FMARK pulse (R149). -/
def State.latchOverlay (s : State) : State :=
  let f := s.capture
  (s.countDrawn f).showFrame f

/-- A frame latch (R149): a pending rebuild, the scroll's count, the overlay. Step 2 is skipped
where SCROLL_COMPLETE has made it (log 16). -/
def State.frameLatch (s : State) : State :=
  let s := s.makeRebuild
  let s := if s.lines.stepTwoMade then s else s.countScroll
  (s.mapLines fun l => { l with stepTwoMade := false }).latchOverlay

/-! ## Composition of one output pixel (R150) -/

/-- One component: floor((α × ov + (16 − α) × vid + 8) / 16). -/
def blend (alpha ov vid : Nat) : Nat := (alpha * ov + (16 - alpha) * vid + 8) / 16

def red (c : Colour) : Nat := c.toNat / 65536
def green (c : Colour) : Nat := c.toNat / 256 % 256
def blue (c : Colour) : Nat := c.toNat % 256

def blendColour (alpha : Nat) (ov vid : Colour) : Colour :=
  BitVec.ofNat 24 (blend alpha (red ov) (red vid) * 65536 +
    blend alpha (green ov) (green vid) * 256 + blend alpha (blue ov) (blue vid))

/-- The coverage level 0 to 3 of a cell's pixel (R135, 12.5). -/
def Coverage.level (c : Coverage) (col row : Nat) : Nat :=
  match c with
  | .record bytes => (bytes.getD (row * 8 + col / 4) 0).toNat / 4 ^ (3 - col % 4) % 4
  | .substitute => if Config.substituteOutline col row then 3 else 0

def Drawn.level (d : Drawn) (col row : Nat) : Nat :=
  match d with
  | .blank => 0
  | .coverage c => c.level col row

/-- The base alpha of a coverage level (R150). -/
def baseAlpha : Nat → Nat
  | 0 => 0
  | 1 => 5
  | 2 => 11
  | _ => 16

/-- One glyph cell over one pixel (R116, R150). The columns of a cell at or beyond the split column
take the unsung colour, so those beyond the last glyph's advance also in a wholly sung syllable
(DESIGN CHOICE, log 42). -/
def GlyphBox.blendAt (plane : Nat) (x y : Int) (vid : Colour) (g : GlyphBox) : Colour :=
  if g.x ≤ x && x < g.x + 32 && x < g.clip && g.y ≤ y && y < g.y + 48 then
    let level := g.drawn.level (x - g.x).toNat (y - g.y).toNat
    blendColour (baseAlpha level * plane / 16) (if x < g.split then g.sung else g.unsung) vid
  else vid

def Patch.covers (p : Patch) (x y : Int) : Bool :=
  p.x0 ≤ x && x < p.x1 && p.y0 ≤ y && y < p.y1 &&
    (p.filled || x = p.x0 || x = p.x1 - 1 || y = p.y0 || y = p.y1 - 1)

def Patch.blendAt (plane : Nat) (x y : Int) (vid : Colour) (p : Patch) : Colour :=
  if p.covers x y then blendColour plane p.colour vid else vid

/-- The band a pixel lies in, if any: 0 title, 1 lyric, 2 guide. Bands run between the canvas
margins, x from 64 to W - 64 (R102, R105, R148, log 26). -/
def Layout.bandAt (l : Layout) (x y : Nat) : Option (Fin 3) :=
  if x < 64 || l.width - 64 ≤ x then none
  else if 32 ≤ y && y < 32 + 56 * l.titleRows then some 0
  else if l.lyricTop ≤ y && y < l.lyricTop + 56 * l.rows then some 1
  else if l.guideTop ≤ y && y < l.guideTop + l.guide then some 2
  else none

/-- One pixel of the output video frame composed from a capture, over the pixel `input` of the
passing picture (R145, R150). -/
def OutputFrame.pixel (f : OutputFrame) (x y : Nat) (input : Colour) : Colour :=
  let beneath := if f.black then 0 else input
  match f.keyed, f.layout.bandAt x y with
  | some b, some band =>
    let glyphs := fun (gs : List GlyphBox) (c : Colour) =>
      gs.foldl (GlyphBox.blendAt f.planeOpacity x y) c
    let patches := fun (ps : List Patch) (c : Colour) =>
      ps.foldl (Patch.blendAt f.planeOpacity x y) c
    let inSet := match band with
      | 0 => b.title
      | 1 => b.lyric
      | 2 => b.guide
    if !inSet then beneath
    else if f.fillContent then blendColour 16 f.fill beneath
    else match band with
      | 0 => glyphs f.titleGlyphs beneath
      | 1 => glyphs f.lyricGlyphs
          (blendColour (f.shadeOpacity * f.planeOpacity / 16) f.shade beneath)
      | 2 => glyphs f.guideGlyphs (patches f.markers (patches f.bars beneath))
  | _, _ => beneath

end Sys2Proof.Machine
end

