-- ==== Sys2Proof/Machine/TrackCheck.lean ====
section
/-! DEFINITION. The check of a loaded track (R72 to R77, R196): header, records in byte order, the
marks as a whole, and the derived values of a track that passes. -/

namespace Sys2Proof.Machine

/-- A failed check: its reason and, where it names one, the record index (R72). -/
abbrev CheckFault := FaultReason × Option Nat

/-- The first n bytes and the rest, or none where the bytes end before them. -/
def takeBytes : Nat → List Byte → Option (List Byte × List Byte)
  | 0, bs => some ([], bs)
  | _ + 1, [] => none
  | n + 1, b :: bs =>
    match takeBytes n bs with
    | none => none
    | some (xs, rest) => some (b :: xs, rest)

/-- The value of a field of the header or of a record. -/
def fieldAt (bs : List Byte) (offset width : Nat) : Nat := beValue ((bs.drop offset).take width)

/-- Codes of two bytes each. -/
def codesOf : List Byte → List Code
  | a :: b :: rest => BitVec.ofNat 16 (a.toNat * 256 + b.toNat) :: codesOf rest
  | _ => []

/-- The header fields (4.4, 12.4). -/
structure Header where
  partCount : Nat
  duration : Nat
  originalKey : Nat
  lineCount : Nat
  noteCount : Nat
  markCount : Nat
  title : List Code
  artist : List Code
deriving DecidableEq, Repr

/-- The header tests in order (R73); the header and the bytes after it. -/
def checkHeader (songId : Nat) (bs : List Byte) : Except CheckFault (Header × List Byte) :=
  match takeBytes 21 bs with
  | none => .error (.truncated, some 0)
  | some (h, rest) =>
    let titleCount := fieldAt h 19 1
    let artistCount := fieldAt h 20 1
    match takeBytes (2 * (titleCount + artistCount)) rest with
    | none => .error (.truncated, some 0)
    | some (glyphs, records) =>
      let head : Header :=
        { partCount := fieldAt h 5 1, duration := fieldAt h 9 4, originalKey := fieldAt h 13 1
          lineCount := fieldAt h 14 2, noteCount := fieldAt h 16 2, markCount := fieldAt h 18 1
          title := codesOf (glyphs.take (2 * titleCount))
          artist := codesOf (glyphs.drop (2 * titleCount)) }
      if h.take 4 ≠ [0x55, 0x46, 0x54, 0x4B] then .error (.signature, some 0)
      else if fieldAt h 4 1 ≠ 1 then .error (.version, some 0)
      else if fieldAt h 6 3 ≠ songId then .error (.songMismatch, some 0)
      else if outside 1 2 head.partCount || outside 36 96 head.originalKey ||
          Config.songLimit < head.duration then .error (.range, some 0)
      else if 512 < head.lineCount || 2048 < head.noteCount || 64 < head.markCount ||
          40 < titleCount || 40 < artistCount then .error (.limit, some 0)
      else .ok (head, records)

/-- A mark record with its record index. Kind 0 INTERLUDE_START, 1 INTERLUDE_END, 2 END. -/
structure MarkRecord where
  index : Nat
  kind : Nat
  time : Nat
deriving DecidableEq, Repr

/-- What the walk has read so far: the records of each kind in order, and for each part the end of
the latest-ending note read (R75). -/
structure Walk where
  lines : List Line
  notes : List Note
  marks : List MarkRecord
  endA : Nat
  endB : Nat
deriving DecidableEq, Repr

def Walk.start : Walk := { lines := [], notes := [], marks := [], endA := 0, endB := 0 }

def tagAt (n : Nat) : PartTag := if n = 0 then .a else if n = 1 then .b else .both

/-- The syllables of a line record, read in byte order (R74, R196). -/
def readSyllables : Nat → List Byte → Except FaultReason (List Syllable × List Byte)
  | 0, bs => .ok ([], bs)
  | n + 1, bs =>
    match takeBytes 7 bs with
    | none => .error .truncated
    | some (h, rest) =>
      let count := fieldAt h 6 1
      if count = 0 then .error .range
      else if 6 < count then .error .limit
      else match takeBytes (2 * count) rest with
        | none => .error .truncated
        | some (codes, rest) =>
          match readSyllables n rest with
          | .error r => .error r
          | .ok (zs, rest) =>
            .ok ({ start := fieldAt h 0 4, duration := fieldAt h 4 2, glyphs := codesOf codes } ::
              zs, rest)

/-- Whether every syllable starts at or after the end of the one before it. -/
def syllablesInOrder : List Syllable → Bool
  | x :: y :: rest => decide (x.start + x.duration ≤ y.start) && syllablesInOrder (y :: rest)
  | _ => true

/-- Whether a line's values are in range once the whole record has been read (R74). -/
def lineInRange (partCount : Nat) (l : Line) : Bool :=
  !(l.tag = .b && partCount = 1) && syllablesInOrder l.syllables &&
    l.syllables.all fun z => decide (z.start + z.duration ≤ Config.songLimit)

/-- A line record after its kind byte. -/
def readLine (h : Header) (w : Walk) (bs : List Byte) : Except FaultReason (Walk × List Byte) :=
  match bs with
  | [] => .error .truncated
  | tag :: bs =>
    if 2 < tag.toNat then .error .range
    else match bs with
      | [] => .error .truncated
      | count :: bs =>
        if count.toNat = 0 then .error .range
        else if 16 < count.toNat then .error .limit
        else match readSyllables count.toNat bs with
          | .error r => .error r
          | .ok (zs, rest) =>
            let line : Line := { tag := tagAt tag.toNat, syllables := zs }
            if !lineInRange h.partCount line then .error .range
            else if (w.lines.getLast?.any fun p => line.start < p.start) then .error .order
            else .ok ({ w with lines := w.lines ++ [line] }, rest)

/-- A note record after its kind byte (R74, R75). -/
def readNote (h : Header) (w : Walk) (bs : List Byte) : Except FaultReason (Walk × List Byte) :=
  match takeBytes 8 bs with
  | none => .error .truncated
  | some (f, rest) =>
    let tag := fieldAt f 7 1
    let note : Note :=
      { start := fieldAt f 0 4, duration := fieldAt f 4 2, number := fieldAt f 6 1
        tag := tagAt tag }
    if 2 < tag || (note.tag = .b && h.partCount = 1) || outside 36 96 note.number ||
        note.duration = 0 || Config.songLimit < note.stop then .error .range
    else if (w.notes.getLast?.any fun p => note.start < p.start) then .error .order
    else if (note.tag.isOf .a && note.start < w.endA) ||
        (note.tag.isOf .b && note.start < w.endB) then .error .overlap
    else .ok ({ w with
      notes := w.notes ++ [note]
      endA := if note.tag.isOf .a then max w.endA note.stop else w.endA
      endB := if note.tag.isOf .b then max w.endB note.stop else w.endB }, rest)

/-- A mark record after its kind byte. -/
def readMark (index : Nat) (w : Walk) (bs : List Byte) : Except FaultReason (Walk × List Byte) :=
  match bs with
  | [] => .error .truncated
  | kind :: bs =>
    if 2 < kind.toNat then .error .range
    else match takeBytes 4 bs with
      | none => .error .truncated
      | some (f, rest) =>
        let time := fieldAt f 0 4
        if Config.songLimit < time then .error .range
        else if (w.marks.getLast?.any fun p => time < p.time) then .error .order
        else .ok ({ w with
          marks := w.marks ++ [{ index := index, kind := kind.toNat, time := time }] }, rest)

/-- One record (R74, R196). -/
def readRecord (h : Header) (index : Nat) (w : Walk) (bs : List Byte) :
    Except FaultReason (Walk × List Byte) :=
  match bs with
  | [] => .error .truncated
  | kind :: bs =>
    if kind.toNat = 1 then
      if w.lines.length < h.lineCount then readLine h w bs else .error .range
    else if kind.toNat = 2 then
      if w.notes.length < h.noteCount then readNote h w bs else .error .range
    else if kind.toNat = 3 then
      if w.marks.length < h.markCount then readMark index w bs else .error .range
    else .error .range

/-- The walk over n records from record `index` on; bytes beyond the last are not read (R74). -/
def readRecords (h : Header) : Nat → Nat → Walk → List Byte → Except CheckFault Walk
  | 0, _, w, _ => .ok w
  | n + 1, index, w, bs =>
    match readRecord h index w bs with
    | .error r => .error (r, some index)
    | .ok (w, rest) => readRecords h n (index + 1) w rest

/-- The interlude marks alternate, start first, each at or before the END time (R76); the spans, or
the index at fault. -/
def pairSpans (endTime : Nat) : List MarkRecord → Except Nat (List (Nat × Nat))
  | [] => .ok []
  | [m] => .error m.index
  | m :: n :: rest =>
    if m.kind ≠ 0 || endTime < m.time then .error m.index
    else if n.kind ≠ 1 || endTime < n.time then .error n.index
    else match pairSpans endTime rest with
      | .error i => .error i
      | .ok spans => .ok ((m.time, n.time) :: spans)

/-- The tests of the marks as a whole (R76): the END time and the spans. -/
def checkMarks (w : Walk) : Except CheckFault (Nat × List (Nat × Nat)) :=
  match w.marks.filter fun m => m.kind = 2 with
  | [] => .error (.marks, none)
  | [e] =>
    if (w.lines.any fun l => e.time < l.stop) || (w.notes.any fun n => e.time < n.stop) then
      .error (.marks, some e.index)
    else match pairSpans e.time (w.marks.filter fun m => m.kind ≠ 2) with
      | .error i => .error (.marks, some i)
      | .ok spans => .ok (e.time, spans)
  | _ :: e :: _ => .error (.marks, some e.index)

/-- The whole check (R72): the first failure, or the checked track with its derived values
(R77). -/
def checkTrack (songId : Nat) (bytes : List Byte) : Except CheckFault Track :=
  match checkHeader songId bytes with
  | .error f => .error f
  | .ok (h, records) =>
    match readRecords h (h.lineCount + h.noteCount + h.markCount) 1 Walk.start records with
    | .error f => .error f
    | .ok w =>
      match checkMarks w with
      | .error f => .error f
      | .ok (endTime, spans) =>
        .ok { partCount := h.partCount, originalKey := h.originalKey, duration := h.duration
              lineCount := h.lineCount, title := h.title, artist := h.artist, lines := w.lines
              notes := w.notes, endTime := endTime, spans := spans }

/-- The note count of a part (R77): on a track of part count 1 part B's is part A's. -/
def Track.noteCount (t : Track) (p : Part) : Nat :=
  let p := if t.partCount = 1 then .a else p
  t.notes.countP fun n => n.tag.isOf p

/-- The sum of the bytes modulo 65,536 (R71, R196). -/
def byteSum (bytes : List Byte) : Nat := bytes.foldl (fun n b => (n + b.toNat) % 65536) 0

end Sys2Proof.Machine
end

