-- ==== Sys2Proof/Machine/BookOps.lean ====
section
/-! DEFINITION. The running order, the reservation pass, calling and the changes of the Book
(R2 to R23, R63 to R67). -/

namespace Sys2Proof.Machine

/-! ## Tickets and counts (R2, R4, R12) -/

/-- The number after a ticket: 65,535 is followed by 1 (R2). -/
def ticketAfter (t : Nat) : Nat := if 65535 ≤ t then 1 else t + 1

/-- Whether a ticket is held by a Book entry. -/
def Book.holds (b : Book) (t : Nat) : Bool := b.entries.any (·.ticket = t)

def Book.find (b : Book) (t : Nat) : Option Entry := b.entries.find? (·.ticket = t)

/-- Whether a ticket is the turn's. -/
def State.onStage (s : State) (t : Nat) : Bool :=
  match s.turn with
  | none => false
  | some x => x.ticket = t

/-- What a ticket named in a command is held by (R16, R18, R19, R79). -/
inductive Holder where
  | stage
  | entry (e : Entry)
  | nobody
deriving DecidableEq, Repr

/-- The holder of a ticket; ticket 0 is held by nobody. -/
def State.holder (s : State) (t : Nat) : Holder :=
  if t = 0 then .nobody
  else if s.onStage t then .stage
  else match s.book.find t with
    | some e => .entry e
    | none => .nobody

/-- The first number from `t` on that is not held, within a number of tries (R2). -/
def freeTicket (held : Nat → Bool) : Nat → Nat → Nat
  | 0, t => t
  | n + 1, t => if held t then freeTicket held n (ticketAfter t) else t

/-- The ticket the next acceptance issues: at most 33 are held, so 34 numbers suffice (R2). -/
def State.issueTicket (s : State) : Nat :=
  freeTicket (fun t => s.book.holds t || s.onStage t) 34 s.book.nextTicket

/-- NORMAL entries of an origin in the Book, a CALLED head included (R4, R12). -/
def Book.normalCount (b : Book) (origin : Nat) : Nat :=
  b.entries.countP fun e => e.origin = origin && e.tier = .normal

def Book.priorityCount (b : Book) : Nat := b.entries.countP fun e => e.tier = .priority

/-- The CALLED head, if there is one (R20). -/
def Book.calledHead (b : Book) : Option Entry :=
  match b.entries with
  | [] => none
  | e :: _ => if e.state = .called then some e else none

/-- The position of a ticket, counted from 1 at the head; 0 if it is not held. -/
def Book.position (b : Book) (t : Nat) : Nat :=
  match b.entries.findIdx? (·.ticket = t) with
  | none => 0
  | some i => i + 1

/-! ## Insertion (R5 to R8) -/

/-- The number of entries up to and including the last PRIORITY entry. -/
def priorityFront : List Entry → Nat
  | [] => 0
  | e :: es =>
    let n := priorityFront es
    if n ≠ 0 then n + 1 else if e.tier = .priority then 1 else 0

/-- The length of the protected front (R7): the CALLED head and all up to the last PRIORITY
entry. It is also the place of a new PRIORITY entry (R5). -/
def Book.protectedFront (b : Book) : Nat :=
  max (if b.calledHead.isSome then 1 else 0) (priorityFront b.entries)

/-- rank(X) = (X − lowest − 1) mod 10 (R8). -/
def Book.rank (b : Book) (origin : Nat) : Nat := (origin + 9 - b.lowest) % 10

/-- Whether fair insertion stops before an entry (R7). -/
def Book.stopsBefore (b : Book) (new e : Entry) : Bool :=
  new.round < e.round || (e.round = new.round && b.rank new.origin < b.rank e.origin)

/-- The running order with a new entry in its place (R5, R6, R7). -/
def Book.inserted (b : Book) (new : Entry) : List Entry :=
  match new.tier, b.mode with
  | .priority, _ =>
    b.entries.take b.protectedFront ++ new :: b.entries.drop b.protectedFront
  | .normal, .arrival => b.entries ++ [new]
  | .normal, .rotate =>
    let behind := b.entries.drop b.protectedFront
    b.entries.take b.protectedFront ++
      behind.takeWhile (fun e => !b.stopsBefore new e) ++
      new :: behind.dropWhile (fun e => !b.stopsBefore new e)

/-- The round of a new entry (R4). -/
def Book.newRound (b : Book) (origin : Nat) : Tier → Nat
  | .normal => 1 + b.normalCount origin
  | .priority => 1

/-- The entries without a ticket. -/
def Book.without (b : Book) (t : Nat) : List Entry := b.entries.filter (·.ticket ≠ t)

/-! ## Acceptance checks (R10 to R13) -/

/-- Recorded times that lie in a panel's rolling window (R13). -/
def Book.inWindow (b : Book) (panel : Fin 8) (now : Time) : Nat :=
  b.quotaTimes[panel].countP fun x => (now - x).toNat < b.quotaWindow * 1000

/-- A panel's time is recorded: appended, the oldest dropped if the list then holds 9 (R13). -/
def recordTime (xs : List Time) (now : Time) : List Time :=
  let ys := xs ++ [now]
  if 8 < ys.length then ys.drop 1 else ys

/-- The origin of a request: a panel or a port. -/
inductive Requester where
  | panel (p : Fin 8)
  | port (origin : Fin 10)
deriving DecidableEq, Repr

def Requester.origin : Requester → Fin 10
  | .panel p => panelOrigin p
  | .port o => o

/-- Whether a panel's rolling window already holds Q accepted requests (R13); the ports are not
subject to the quota. -/
def Book.overQuota (b : Book) (who : Requester) (now : Time) : Bool :=
  match who with
  | .panel p => b.quota ≤ b.inWindow p now
  | .port _ => false

/-- The checks in order (R10): the first that fails gives the reason. -/
def State.refusal (s : State) (who : Requester) (song : Nat) (tier : Tier) :
    Option RefusalReason :=
  let b := s.book
  let o := who.origin
  if b.masked.getLsb o then some .masked
  else if song = 0 then some .badSong
  else if b.noDuplicates && b.entries.any (·.songId = song) then some .duplicate
  else if b.overQuota who s.sessionTime then some .quota
  else if tier = .normal && b.caps[o] ≤ b.normalCount o then some .cap
  else if tier = .priority && Config.priorityLimit ≤ b.priorityCount then some .limit
  else if Config.bookSize ≤ b.entries.length then some .full
  else none

/-! ## The reservation pass (R64 to R67) -/

def State.freeSlot (s : State) : Option (Fin 4) :=
  slotNumbers.find? fun i => s.slots[i].state = .free

def State.scrubCount (s : State) : Nat :=
  slotNumbers.countP fun i => s.slots[i].state = .scrub

/-- A FREE slot is bound to an entry, RESERVED with 0 bytes used; STAGE_WANTED is raised (R64
step 1, R67). -/
def State.bindSlot (s : State) (i : Fin 4) (e : Entry) : State :=
  (s.setSlot i { Slot.empty with state := .reserved, ticket := some e.ticket }).raise
    [.playback] (.stageWanted e.ticket i e.songId)

/-- The slot a reclaim takes: that of the entry with a bound slot at the greatest position beyond
D (R65). -/
def State.reclaimable (s : State) : Option (Fin 4) :=
  (s.book.entries.drop s.depth).reverse.findSome? fun e => s.boundSlot e.ticket

/-- The pass at one entry, with the count of slots in SCRUB not yet waited for (R64). -/
def State.passEntry (acc : State × Nat) (e : Entry) : State × Nat :=
  let (s, scrubs) := acc
  if (s.boundSlot e.ticket).isSome then (s, scrubs)
  else match s.freeSlot with
    | some i => (s.bindSlot i e, scrubs)
    | none =>
      if 0 < scrubs then (s, scrubs - 1)
      else match s.reclaimable with
        | some i => (s.scrubSlot i, scrubs)
        | none => (s, scrubs)

/-- A reservation pass over the first D entries (R64). -/
def State.pass (s : State) : State :=
  ((s.book.entries.take s.depth).foldl State.passEntry (s, s.scrubCount)).1

/-! ## Calling and changes of the Book (R20 to R23) -/

/-- The head is called, if the stage is empty, the Book is not held, the head is WAITING and its
slot is READY (R20). -/
def State.callHead (s : State) : Option State :=
  if s.turn.isSome || s.book.held then none
  else match s.book.entries, s.readyHead with
    | e :: rest, some (_, i) =>
      if e.state = .waiting then
        some ({ s with book := { s.book with entries := { e with state := .called } :: rest } }.raise
          [.playback] (.call e.ticket i))
      else none
    | _, _ => none

/-- What every change of the Book sets off (R23): QUEUE_CHANGED to C and V, the pass. -/
def State.changed (s : State) : State :=
  (s.raise consoleVenue (.queueChanged s.book.entries.length)).pass

/-- The calling condition is tested; a call is a change of the Book (R20, R23). The title band
follows (R118). -/
def State.testCall (s : State) : State :=
  match s.callHead with
  | some t => t.changed.retitle
  | none => s.retitle

/-- A change of the Book with the call it may bring about (R23). -/
def State.bookChanged (s : State) : State := s.changed.testCall

/-- The CALLED head returns to WAITING with CALL_WITHDRAWN (R21). -/
def State.uncall (s : State) : State :=
  match s.book.entries with
  | e :: rest =>
    { s with book := { s.book with entries := { e with state := .waiting } :: rest } }.raise
      [.playback] (.callWithdrawn e.ticket)
  | [] => s

/-- Acceptance in one step (R14): ticket, entry, round, place, quota time, and the change. -/
def State.acceptRequest (s : State) (who : Requester) (song : Nat) (tier : Tier)
    (tag : Option Nat) : State × Nat × Nat :=
  let b := s.book
  let ticket := s.issueTicket
  let entry : Entry :=
    { ticket := ticket, songId := song, origin := who.origin, tier := tier
      round := b.newRound who.origin tier, tag := tag, acceptedAt := s.sessionTime, moved := false
      state := .waiting }
  let times := match who with
    | .panel p => b.quotaTimes.set p.val (recordTime b.quotaTimes[p] s.sessionTime) p.isLt
    | .port _ => b.quotaTimes
  let book := { b with
    entries := b.inserted entry, nextTicket := ticketAfter ticket, quotaTimes := times }
  (({ s with book := book }).bookChanged, ticket, book.position ticket)

/-- CALL_WITHDRAWN for a CALLED entry that leaves the Book (R16, R21). -/
def State.withdrawCall (s : State) (e : Entry) : State :=
  if e.state = .called then s.raise [.playback] (.callWithdrawn e.ticket) else s

/-- The slot bound to a ticket, if any, goes to SCRUB (R80). -/
def State.scrubBound (s : State) (t : Nat) : State :=
  match s.boundSlot t with
  | some i => s.scrubSlot i
  | none => s

/-- An entry is removed by a cancel (R16): CALL_WITHDRAWN if it was CALLED, its slot to SCRUB, the
change. -/
def State.cancelEntry (s : State) (e : Entry) : State :=
  let t := (s.withdrawCall e).scrubBound e.ticket
  { t with book := { t.book with entries := t.book.without e.ticket } }.bookChanged

/-- The round MOVE gives: that of the nearest NORMAL entry ahead, or 1 (R18). -/
def roundBehind (ahead : List Entry) : Nat :=
  match (ahead.filter fun e => e.tier = .normal).getLast? with
  | none => 1
  | some e => e.round

/-- The running order with an entry moved to a position counted from 1 (R18). -/
def Book.movedTo (b : Book) (e : Entry) (position : Nat) : List Entry :=
  let rest := b.without e.ticket
  let ahead := rest.take (position - 1)
  ahead ++ { e with round := roundBehind ahead, moved := true } :: rest.drop (position - 1)

/-- A slot enters FAULT (R78): reason and record index kept, SLOT_FAULT to P and C. -/
def State.faultSlot (s : State) (i : Fin 4) (reason : FaultReason) (index : Option Nat) : State :=
  let x := s.slots[i]
  (s.setSlot i { x with state := .fault, fault := some (reason, index), timer := 0 }).raise
    playbackConsole (.slotFault i (x.ticket.getD 0) reason)

end Sys2Proof.Machine
end

