-- ==== Sys2Proof/Machine/Frames.lean ====
section
/-! DEFINITION. Client command frames: the frame of each client command, the command a frame
spells, and the lengths a command takes (R186, R188, R194, 11.2). -/

namespace Sys2Proof.Machine

/-- The port and frame of a client command: its code by the order of the catalogue of 11.2, its
parameters by R194. Events have none. -/
def frameOf : Instr → Option (Port × Frame)
  | .enqueue p song tier tag =>
    some (p, ⟨0x01, be24 song.toNat ++ [tier, tag.presence, tag.value]⟩)
  | .cancel p t => some (p, ⟨0x02, be16 t.toNat⟩)
  | .move p t pos => some (p, ⟨0x03, be16 t.toNat ++ [pos]⟩)
  | .bookHold p => some (p, ⟨0x04, []⟩)
  | .bookRelease p => some (p, ⟨0x05, []⟩)
  | .promote p t => some (p, ⟨0x06, be16 t.toNat⟩)
  | .setOrderMode p m r => some (p, ⟨0x07, [m, r]⟩)
  | .setRotation p o => some (p, ⟨0x08, [o]⟩)
  | .setOriginMask p m => some (p, ⟨0x09, be16 m.toNat⟩)
  | .setCap p o c => some (p, ⟨0x0A, [o, c]⟩)
  | .setQuota p q w => some (p, ⟨0x0B, q :: be16 w.toNat⟩)
  | .setDuplicatePolicy p v => some (p, ⟨0x0C, [v]⟩)
  | .bookRead p s n => some (p, ⟨0x0D, [s, n]⟩)
  | .bookPolicyRead p => some (p, ⟨0x0E, []⟩)
  | .panelEnable p n v => some (p, ⟨0x0F, [n, v]⟩)
  | .panelCountersClear p n => some (p, ⟨0x10, [n]⟩)
  | .setLoopTiming p w g => some (p, ⟨0x11, be16 w.toNat ++ be16 g.toNat⟩)
  | .panelRead p => some (p, ⟨0x12, []⟩)
  | .takeTurn p => some (p, ⟨0x13, []⟩)
  | .endTurn p t r => some (p, ⟨0x14, be16 t.toNat ++ [r]⟩)
  | .abortTurn p t => some (p, ⟨0x15, be16 t.toNat⟩)
  | .setAutoEnd p v => some (p, ⟨0x16, [v]⟩)
  | .stageRead p => some (p, ⟨0x17, []⟩)
  | .loadBegin p i t => some (p, ⟨0x18, i :: be16 t.toNat⟩)
  | .loadData p i o d =>
    some (p, ⟨0x19, i :: be16 o.toNat ++ (BitVec.ofNat 8 d.length :: d)⟩)
  | .loadEnd p i n x => some (p, ⟨0x1A, i :: be16 n.toNat ++ be16 x.toNat⟩)
  | .setLookahead p d => some (p, ⟨0x1B, [d]⟩)
  | .retryStage p t => some (p, ⟨0x1C, be16 t.toNat⟩)
  | .slotRead p => some (p, ⟨0x1D, []⟩)
  | .slotDetail p i => some (p, ⟨0x1E, [i]⟩)
  | .play p => some (p, ⟨0x1F, []⟩)
  | .pause p => some (p, ⟨0x20, []⟩)
  | .resume p => some (p, ⟨0x21, []⟩)
  | .seek p x => some (p, ⟨0x22, be32 x.toNat⟩)
  | .sync p x => some (p, ⟨0x23, be32 x.toNat⟩)
  | .setTempo p x => some (p, ⟨0x24, be16 x.toNat⟩)
  | .setSlipWindow p x => some (p, ⟨0x25, be16 x.toNat⟩)
  | .setKey p x => some (p, ⟨0x26, [x]⟩)
  | .clockRead p => some (p, ⟨0x27, []⟩)
  | .setBands p t g => some (p, ⟨0x28, t :: be16 g.toNat⟩)
  | .setStyle p x r => some (p, ⟨0x29, [x, r]⟩)
  | .setLineTiming p a b c d =>
    some (p, ⟨0x2A, be16 a.toNat ++ be16 b.toNat ++ be16 c.toNat ++ [d]⟩)
  | .setLyricColours p u a b c =>
    some (p, ⟨0x2B, beColour u ++ beColour a ++ beColour b ++ beColour c⟩)
  | .setScoreHold p x => some (p, ⟨0x2C, be16 x.toNat⟩)
  | .lineWindowRead p => some (p, ⟨0x2D, []⟩)
  | .fontMaintBegin p => some (p, ⟨0x2E, []⟩)
  | .fontWriteEnable p => some (p, ⟨0x2F, []⟩)
  | .fontProgram p a d =>
    some (p, ⟨0x30, be32 a.toNat ++ (BitVec.ofNat 8 d.length :: d)⟩)
  | .fontErase p x => some (p, ⟨0x31, be16 x.toNat⟩)
  | .fontRead p a n => some (p, ⟨0x32, be32 a.toNat ++ [n]⟩)
  | .fontProtect p v => some (p, ⟨0x33, [v]⟩)
  | .fontMaintEnd p => some (p, ⟨0x34, []⟩)
  | .cacheStatus p => some (p, ⟨0x35, []⟩)
  | .glyphQuery p k => some (p, ⟨0x36, beCode k⟩)
  | .fontStatus p => some (p, ⟨0x37, []⟩)
  | .wake p => some (p, ⟨0x38, []⟩)
  | .goStandby p => some (p, ⟨0x39, []⟩)
  | .setOverlay p a b c d => some (p, ⟨0x3A, [a, b, c, d]⟩)
  | .setPlane p o s so f => some (p, ⟨0x3B, o :: beColour s ++ so :: beColour f⟩)
  | .setFmark p v => some (p, ⟨0x3C, [v]⟩)
  | .displayCountersClear p => some (p, ⟨0x3D, []⟩)
  | .displayStatus p => some (p, ⟨0x3E, []⟩)
  | .setMicEnable p m v => some (p, ⟨0x3F, [m, v]⟩)
  | .setMicColour p m c => some (p, ⟨0x40, m :: beColour c⟩)
  | .toneCheck p m n => some (p, ⟨0x41, [m, n]⟩)
  | .setPart p m v => some (p, ⟨0x42, [m, v]⟩)
  | .setScoring p g t gr l f wp wn sc =>
    some (p, ⟨0x43, be16 g.toNat ++ [t] ++ be16 gr.toNat ++ be16 l.toNat ++ [f, wp, wn, sc]⟩)
  | .voiceRead p => some (p, ⟨0x44, []⟩)
  | .resultRead p x v => some (p, ⟨0x45, x :: be16 v.toNat⟩)
  | .resultTake p t => some (p, ⟨0x46, be16 t.toNat⟩)
  | .bestClear p => some (p, ⟨0x47, []⟩)
  | .bestRead p => some (p, ⟨0x48, []⟩)
  | .noticeTake p => some (p, ⟨0x49, []⟩)
  | .noticeMask p m => some (p, ⟨0x4A, be16 m.toNat⟩)
  | .ident p => some (p, ⟨0x4B, []⟩)
  | .sessionReset p => some (p, ⟨0x4C, []⟩)
  | .powerOnReset | .writeTransaction _ _ _ _ | .readTransaction _ _ | .unknownCommand _ => none
  | .poll | .replyWindowExpiry | .badReply _ _ | .replyByteTimeout | .badReplyQuietExpiry
  | .strayLoopByte _ | .idle _ _ | .request _ _ _ _ | .panelCancel _ _ _ | .whereTicket _ _ _
  | .verdict | .answer | .cycleGapExpiry | .replyByteReceived _ => none
  | .stallTimerExpiry _ | .checkComplete _ | .scrubComplete _ | .timebaseTick | .scrollComplete
  | .scoreShowExpiry | .frameLatch | .glyphFetchStart | .glyphFetchComplete | .fontScanComplete
  | .maintenanceEntry | .flashOperationDone | .flashOperationTimeout | .inputFrameStart _
  | .inputLossTimeout | .audioLossTimeout | .audioRestored _ | .voiceFrameComplete
  | .toneCheckEnd | .tdmFrame _ => none

/-- A number of two, three or four bytes, most significant first (R194). -/
def word16 (a b : Byte) : BitVec 16 := a ++ b
def word24 (a b c : Byte) : BitVec 24 := a ++ b ++ c
def word32 (a b c d : Byte) : BitVec 32 := a ++ b ++ c ++ d

/-- The command that an accepted frame spells on a port: none where the code names no command or
the parameter length is not one the command takes (R188, R194). -/
def commandOf (p : Port) (f : Frame) : Option Instr :=
  match f.code.toNat, f.params with
  | 0x01, [a, b, c, t, x, y] => some (.enqueue p (word24 a b c) t ⟨x, y⟩)
  | 0x02, [a, b] => some (.cancel p (word16 a b))
  | 0x03, [a, b, c] => some (.move p (word16 a b) c)
  | 0x04, [] => some (.bookHold p)
  | 0x05, [] => some (.bookRelease p)
  | 0x06, [a, b] => some (.promote p (word16 a b))
  | 0x07, [a, b] => some (.setOrderMode p a b)
  | 0x08, [a] => some (.setRotation p a)
  | 0x09, [a, b] => some (.setOriginMask p (word16 a b))
  | 0x0A, [a, b] => some (.setCap p a b)
  | 0x0B, [a, b, c] => some (.setQuota p a (word16 b c))
  | 0x0C, [a] => some (.setDuplicatePolicy p a)
  | 0x0D, [a, b] => some (.bookRead p a b)
  | 0x0E, [] => some (.bookPolicyRead p)
  | 0x0F, [a, b] => some (.panelEnable p a b)
  | 0x10, [a] => some (.panelCountersClear p a)
  | 0x11, [a, b, c, d] => some (.setLoopTiming p (word16 a b) (word16 c d))
  | 0x12, [] => some (.panelRead p)
  | 0x13, [] => some (.takeTurn p)
  | 0x14, [a, b, c] => some (.endTurn p (word16 a b) c)
  | 0x15, [a, b] => some (.abortTurn p (word16 a b))
  | 0x16, [a] => some (.setAutoEnd p a)
  | 0x17, [] => some (.stageRead p)
  | 0x18, [a, b, c] => some (.loadBegin p a (word16 b c))
  | 0x19, a :: b :: c :: n :: d =>
    if d.length = n.toNat then some (.loadData p a (word16 b c) d) else none
  | 0x1A, [a, b, c, d, e] => some (.loadEnd p a (word16 b c) (word16 d e))
  | 0x1B, [a] => some (.setLookahead p a)
  | 0x1C, [a, b] => some (.retryStage p (word16 a b))
  | 0x1D, [] => some (.slotRead p)
  | 0x1E, [a] => some (.slotDetail p a)
  | 0x1F, [] => some (.play p)
  | 0x20, [] => some (.pause p)
  | 0x21, [] => some (.resume p)
  | 0x22, [a, b, c, d] => some (.seek p (word32 a b c d))
  | 0x23, [a, b, c, d] => some (.sync p (word32 a b c d))
  | 0x24, [a, b] => some (.setTempo p (word16 a b))
  | 0x25, [a, b] => some (.setSlipWindow p (word16 a b))
  | 0x26, [a] => some (.setKey p a)
  | 0x27, [] => some (.clockRead p)
  | 0x28, [a, b, c] => some (.setBands p a (word16 b c))
  | 0x29, [a, b] => some (.setStyle p a b)
  | 0x2A, [a, b, c, d, e, f, g] =>
    some (.setLineTiming p (word16 a b) (word16 c d) (word16 e f) g)
  | 0x2B, [a, b, c, d, e, f, g, h, i, j, k, l] =>
    some (.setLyricColours p (word24 a b c) (word24 d e f) (word24 g h i) (word24 j k l))
  | 0x2C, [a, b] => some (.setScoreHold p (word16 a b))
  | 0x2D, [] => some (.lineWindowRead p)
  | 0x2E, [] => some (.fontMaintBegin p)
  | 0x2F, [] => some (.fontWriteEnable p)
  | 0x30, a :: b :: c :: d :: n :: e =>
    if e.length = n.toNat then some (.fontProgram p (word32 a b c d) e) else none
  | 0x31, [a, b] => some (.fontErase p (word16 a b))
  | 0x32, [a, b, c, d, e] => some (.fontRead p (word32 a b c d) e)
  | 0x33, [a] => some (.fontProtect p a)
  | 0x34, [] => some (.fontMaintEnd p)
  | 0x35, [] => some (.cacheStatus p)
  | 0x36, [a, b] => some (.glyphQuery p (word16 a b))
  | 0x37, [] => some (.fontStatus p)
  | 0x38, [] => some (.wake p)
  | 0x39, [] => some (.goStandby p)
  | 0x3A, [a, b, c, d] => some (.setOverlay p a b c d)
  | 0x3B, [a, b, c, d, e, f, g, h] => some (.setPlane p a (word24 b c d) e (word24 f g h))
  | 0x3C, [a] => some (.setFmark p a)
  | 0x3D, [] => some (.displayCountersClear p)
  | 0x3E, [] => some (.displayStatus p)
  | 0x3F, [a, b] => some (.setMicEnable p a b)
  | 0x40, [a, b, c, d] => some (.setMicColour p a (word24 b c d))
  | 0x41, [a, b] => some (.toneCheck p a b)
  | 0x42, [a, b] => some (.setPart p a b)
  | 0x43, [a, b, c, d, e, f, g, h, i, j, k] =>
    some (.setScoring p (word16 a b) c (word16 d e) (word16 f g) h i j k)
  | 0x44, [] => some (.voiceRead p)
  | 0x45, [a, b, c] => some (.resultRead p a (word16 b c))
  | 0x46, [a, b] => some (.resultTake p (word16 a b))
  | 0x47, [] => some (.bestClear p)
  | 0x48, [] => some (.bestRead p)
  | 0x49, [] => some (.noticeTake p)
  | 0x4A, [a, b] => some (.noticeMask p (word16 a b))
  | 0x4B, [] => some (.ident p)
  | 0x4C, [] => some (.sessionReset p)
  | _, _ => none

/-- Whether the parameter length is one the command takes (R188): the command's fields and any
list's declared items account for every byte. -/
def lengthOk (f : Frame) : Bool := (commandOf .playback f).isSome

/-- A client command by its own frame. -/
def clientCommand (i : Instr) (s : State) (block : State → Taken) : Answered :=
  match frameOf i with
  | some (p, f) => .next (s.command p f block)
  | none => .next s

end Sys2Proof.Machine
end

