-- ==== Sys2Proof/Machine/Book.lean ====
section
/-! DEFINITION. The commands of the Request Book (R8 to R24). -/

namespace Sys2Proof.Machine

def State.mapBook (s : State) (f : Book → Book) : State := { s with book := f s.book }

/-- ENQUEUE at the Book (R15). -/
def enqueueBlock (p : Port) (song : Nat) (tier : Byte) (tag : OptionalByte) (s : State) : Taken :=
  if p = .console && tierOf tier = some .priority then refuse s .notPermitted
  else match portOrigin p, tierOf tier, tagOf tag with
    | some o, some t, some g =>
      match s.refusal (.port o) song t with
      | some r => { state := s, result := .refused, data := be8 r.number }
      | none =>
        let (u, ticket, position) := s.acceptRequest (.port o) song t g
        { state := u, result := .ok, data := be16 ticket ++ be8 position }
    | _, _, _ => refuse s .range

/-- ENQUEUE (R15). -/
def execEnqueue (p : Port) (song : BitVec 24) (tier : Byte) (tag : OptionalByte) (s : State) :
    Answered :=
  clientCommand (.enqueue p song tier tag) s (enqueueBlock p song.toNat tier tag)

/-- CANCEL at the Book (R16). -/
def cancelBlock (t : Nat) (s : State) : Taken :=
  match s.holder t with
  | .stage => refuse s .state
  | .nobody => refuse s .notFound
  | .entry e => readOk (s.cancelEntry e) []

/-- CANCEL (R16). -/
def execCancel (p : Port) (ticket : BitVec 16) (s : State) : Answered :=
  clientCommand (.cancel p ticket) s (cancelBlock ticket.toNat)

/-- The position a MOVE goes to: clamped into 1 to the number of entries; 1 becomes 2 while a head
is CALLED (R18). -/
def Book.moveTarget (b : Book) (position : Nat) : Nat :=
  let x := clampNat 1 b.entries.length position
  if b.calledHead.isSome && x = 1 then 2 else x

/-- MOVE at the Book (R18). -/
def moveBlock (t position : Nat) (s : State) : Taken :=
  match s.holder t with
  | .stage => refuse s .state
  | .nobody => refuse s .notFound
  | .entry e =>
    if e.state = .called then refuse s .state
    else
      let x := s.book.moveTarget position
      { state := (s.mapBook fun b => { b with entries := b.movedTo e x }).bookChanged
        result := okCode (x ≠ position), data := be8 x }

/-- MOVE (R18). -/
def execMove (p : Port) (ticket : BitVec 16) (position : Byte) (s : State) : Answered :=
  clientCommand (.move p ticket position) s (moveBlock ticket.toNat position.toNat)

/-- BOOK-HOLD at the Book (R22, R21). -/
def holdBlock (s : State) : Taken :=
  let t := s.mapBook fun b => { b with held := true }
  readOk (if s.book.calledHead.isSome then t.uncall.bookChanged else t) []

/-- BOOK-HOLD (R22). -/
def execBookHold (p : Port) (s : State) : Answered := clientCommand (.bookHold p) s holdBlock

/-- BOOK-RELEASE (R22). -/
def execBookRelease (p : Port) (s : State) : Answered :=
  clientCommand (.bookRelease p) s fun s =>
    readOk (s.mapBook fun b => { b with held := false }).testCall []

/-- An entry made PRIORITY and reinserted (R19). -/
def Book.promoted (b : Book) (e : Entry) : Book :=
  let b := { b with entries := b.without e.ticket }
  { b with entries := b.inserted { e with tier := .priority } }

/-- PROMOTE at the Book (R19). -/
def promoteBlock (t : Nat) (s : State) : Taken :=
  match s.holder t with
  | .stage => refuse s .state
  | .nobody => refuse s .notFound
  | .entry e =>
    if e.state = .called || e.tier = .priority then refuse s .state
    else if Config.priorityLimit ≤ s.book.priorityCount then refuse s .limit
    else
      let u := s.mapBook fun b => b.promoted e
      readOk u.bookChanged (be8 (u.book.position t))

/-- PROMOTE (R19). -/
def execPromote (p : Port) (ticket : BitVec 16) (s : State) : Answered :=
  clientCommand (.promote p ticket) s (promoteBlock ticket.toNat)

/-- SET-ORDER-MODE (R9). -/
def execSetOrderMode (p : Port) (mode rotateOnTake : Byte) (s : State) : Answered :=
  clientCommand (.setOrderMode p mode rotateOnTake) s fun s =>
    match modeOf mode, onOff rotateOnTake with
    | some m, some r => readOk (s.mapBook fun b => { b with mode := m, rotateOnTake := r }) []
    | _, _ => refuse s .range

/-- SET-ROTATION (R8). -/
def execSetRotation (p : Port) (origin : Byte) (s : State) : Answered :=
  clientCommand (.setRotation p origin) s fun s =>
    match originOf origin with
    | some o => readOk (s.mapBook fun b => { b with lowest := o }) []
    | none => refuse s .range

/-- SET-ORIGIN-MASK (R11). -/
def execSetOriginMask (p : Port) (origins : BitVec 16) (s : State) : Answered :=
  clientCommand (.setOriginMask p origins) s fun s =>
    if origins.toNat < 1024 then
      readOk (s.mapBook fun b => { b with masked := origins.setWidth 10 }) []
    else refuse s .range

/-- SET-CAP (R12). -/
def execSetCap (p : Port) (origin cap : Byte) (s : State) : Answered :=
  clientCommand (.setCap p origin cap) s fun s =>
    match originOf origin with
    | some o =>
      { state := s.mapBook fun b =>
          { b with caps := b.caps.set o.val (clampNat 1 8 cap.toNat) o.isLt }
        result := okCode (outside 1 8 cap.toNat), data := [] }
    | none => refuse s .range

/-- SET-QUOTA (R13). -/
def execSetQuota (p : Port) (quota : Byte) (window : BitVec 16) (s : State) : Answered :=
  clientCommand (.setQuota p quota window) s fun s =>
    { state := s.mapBook fun b =>
        { b with quota := clampNat 1 8 quota.toNat, quotaWindow := clampNat 10 900 window.toNat }
      result := okCode (outside 1 8 quota.toNat || outside 10 900 window.toNat), data := [] }

/-- SET-DUPLICATE-POLICY (R11). -/
def execSetDuplicatePolicy (p : Port) (policy : Byte) (s : State) : Answered :=
  clientCommand (.setDuplicatePolicy p policy) s fun s =>
    match onOff policy with
    | some x => readOk (s.mapBook fun b => { b with noDuplicates := x }) []
    | none => refuse s .range

/-- The staging status of an entry, by its place in NONE, RESERVED, LOADING, CHECKING, READY,
FAULT (R1, R63). -/
def State.staging (s : State) (ticket : Nat) : Nat :=
  match s.boundSlot ticket with
  | none => 0
  | some i =>
    match s.slots[i].state with
    | .reserved => 1
    | .loading => 2
    | .checking => 3
    | .ready => 4
    | .fault => 5
    | .free | .onStage | .scrub => 0

/-- The fault reason and record index of a slot, present in FAULT (R62). -/
def Slot.shownFault (x : Slot) : Option (FaultReason × Option Nat) :=
  if x.state = .fault then x.fault else none

/-- The fault reason of the slot bound to a ticket (R1). -/
def State.stagingFault (s : State) (ticket : Nat) : Option FaultReason :=
  match s.boundSlot ticket with
  | none => none
  | some i => s.slots[i].shownFault.map (·.1)

/-- One entry of BOOK-READ (R24). The fault reason follows the staging status as an optional field,
absent outside FAULT (DESIGN CHOICE, log 46). -/
def State.entryBytes (s : State) (e : Entry) : List Byte :=
  be8 (s.book.position e.ticket) ++ be16 e.ticket ++ be24 e.songId ++ be8 e.origin ++
    be8 e.tier.place ++ be8 e.round ++ beTag e.tag ++ beTime e.acceptedAt ++ beBool e.moved ++
    be8 e.state.place ++ be8 (s.staging e.ticket) ++
    beOption 1 (fun r => be8 r.place) (s.stagingFault e.ticket)

/-- The summary of BOOK-READ (R24). -/
def Book.summary (b : Book) : List Byte :=
  be8 b.entries.length ++ beBool b.held ++ be8 b.mode.place ++ beBool b.rotateOnTake ++
    be8 b.lowest ++ be16 b.nextTicket

/-- BOOK-READ (R24). -/
def execBookRead (p : Port) (start count : Byte) (s : State) : Answered :=
  clientCommand (.bookRead p start count) s fun s =>
    if start = 0 || count = 0 then refuse s .range
    else
      { state := s, result := okCode (8 < count.toNat)
        data := s.book.summary ++
          beList s.entryBytes
            ((s.book.entries.drop (start.toNat - 1)).take (min 8 count.toNat)) }

/-- The data of BOOK-POLICY-READ (R24). -/
def Book.policies (b : Book) : List Byte :=
  be8 b.mode.place ++ beBool b.rotateOnTake ++ be16 b.masked.toNat ++ b.caps.toList.flatMap be8 ++
    be8 b.quota ++ be16 b.quotaWindow ++ beBool b.noDuplicates

/-- BOOK-POLICY-READ (R24). -/
def execBookPolicyRead (p : Port) (s : State) : Answered :=
  clientCommand (.bookPolicyRead p) s fun s => readOk s s.book.policies

end Sys2Proof.Machine
end

