-- ==== Sys2Proof/Machine/LoopOps.lean ====
section
/-! DEFINITION. The Panel Loop Controller: choice of visits, misses and good replies, reply bytes,
verdicts and answers (R26 to R39). -/

namespace Sys2Proof.Machine

def State.mapLoop (s : State) (f : Loop → Loop) : State := { s with loop := f s.loop }

def Loop.setPanel (l : Loop) (p : Fin 8) (x : Panel) : Loop :=
  { l with panels := l.panels.set p.val x p.isLt }

/-! ## Choice of visits (R36, R37, R38) -/

/-- Whether a panel is higher in address than every panel visited so far. -/
def Loop.above (l : Loop) (p : Fin 8) : Bool := l.visited.all (· < p)

/-- The next visit in ascending order: to an enabled panel in the sweep, to an enabled PRESENT one
in a cycle. -/
def Loop.nextAscending (l : Loop) : Option (Fin 8) :=
  panelNumbers.find? fun p =>
    l.panels[p].enabled && l.above p &&
      (l.phase = .sweep || l.panels[p].presence = .present)

/-- The addresses in cyclic order from the one after the absent pointer to the pointer itself. -/
def Loop.absentOrder (l : Loop) : List (Fin 8) := panelNumbers.map fun p => l.absentPointer + 1 + p

/-- The cycle's absent visit, if it makes one. -/
def Loop.absentVisit (l : Loop) : Option (Fin 8) :=
  l.absentOrder.find? fun p =>
    l.panels[p].enabled && l.panels[p].presence = .absent && !l.visited.contains p

/-- The loop enters GAP for the cycle gap in force (R38). -/
def Loop.toGap (l : Loop) : Loop :=
  { l with phase := .gap, exchange := .none, visited := [], lastVisit := false
           gapLeft := l.cycleGap }

/-- A visit is chosen: its POLL is to be sent. -/
def Loop.visit (l : Loop) (p : Fin 8) : Loop :=
  { l with exchange := .toPoll p, visited := l.visited ++ [p] }

/-- The choice made when an exchange has ended or a cycle begins (R36, R37). -/
def Loop.chooseNext (l : Loop) : Loop :=
  if l.lastVisit then l.toGap
  else match l.nextAscending with
    | some p => l.visit p
    | none =>
      if l.phase = .sweep then l.toGap
      else match l.absentVisit with
        | some p => { l.visit p with absentPointer := p, lastVisit := true }
        | none => l.toGap

/-- A new cycle begins (R38). -/
def Loop.startCycle (l : Loop) : Loop :=
  { l with phase := .cycle, visited := [], lastVisit := false }.chooseNext

/-- The exchange in progress ends. -/
def State.endExchange (s : State) : State := s.mapLoop Loop.chooseNext

/-! ## Presence (R39) -/

/-- A panel's presence changes, with PANEL_STATE to C and V. -/
def State.setPresence (s : State) (p : Fin 8) (x : Presence) : State :=
  (s.mapLoop fun l => l.setPanel p { l.panels[p] with presence := x }).raise consoleVenue
    (.panelState p x)

/-- A miss. -/
def State.miss (s : State) (p : Fin 8) : State :=
  let x := s.loop.panels[p]
  let run := bump 3 x.missRun
  let s := s.mapLoop fun l => l.setPanel p { x with missRun := run }
  if x.presence = .present && run = 3 then s.setPresence p .absent else s

/-- A bad reply: the receive-error count rises, the line is ignored (R29, log 21). -/
def State.spoil (s : State) (p : Fin 8) : State :=
  s.mapLoop fun l =>
    { l.setPanel p { l.panels[p] with errors := bump 255 l.panels[p].errors } with
      exchange := .ignoring p }

/-- A good reply's effect on the panel's record (R30). -/
def State.goodReply (s : State) (p : Fin 8) : State :=
  let x := s.loop.panels[p]
  let s := s.mapLoop fun l => { l.setPanel p { x with missRun := 0 } with quiet := 0 }
  if x.presence = .absent then s.setPresence p .present else s

/-! ## Reply bytes (R29, 12.3) -/

/-- The payload length of a panel's kinds (12.3). -/
def kindLength (kind : Byte) : Option Nat :=
  if kind = 0x10 then some 0 else if kind = 0x11 then some 4
  else if kind = 0x12 then some 2 else if kind = 0x13 then some 2 else none

/-- Where a reply stands after the bytes received. -/
inductive ReplyStatus where
  | more | bad | good
deriving DecidableEq, Repr

/-- The status of a reply of panel `p` by its bytes so far (R29). -/
def replyStatus (p : Fin 8) (bytes : List Byte) : ReplyStatus :=
  let length := (bytes[2]?).bind kindLength
  if (bytes[0]?).any (· ≠ 0xA5) || (bytes[1]?).any (· ≠ panelAddress p) ||
      (2 < bytes.length && length.isNone) ||
      (bytes[4]?).any (fun n => length ≠ some n.toNat) then .bad
  else match length with
    | some n =>
      if bytes.length < n + 6 then .more
      else if bytes.foldl (· + ·) 0 = 0 then .good else .bad
    | none => .more

/-- The panel whose reply is awaited or being received, with the bytes received. -/
def Exchange.awaited : Exchange → Option (Fin 8 × List Byte)
  | .window p _ => some (p, [])
  | .receiving p bytes => some (p, bytes)
  | _ => Option.none

/-- The frame of a panel's reply (12.3). -/
def replyFrame (p : Fin 8) (kind seq : Byte) (payload : List Byte) : List Byte :=
  loopFrame (panelAddress p) kind seq payload

/-- Whether a whole good reply from panel `p` may be taken now: its exchange awaits a reply, and
the bytes received so far, if any, begin the frame (log 19). -/
def State.replyDue (s : State) (p : Fin 8) (frame : List Byte) : Bool :=
  match s.loop.exchange.awaited with
  | some (q, bytes) => q = p && bytes.isPrefixOf frame && bytes.length < frame.length
  | none => false

/-! ## Verdicts and answers (R31 to R33, R35) -/

/-- A verdict is stored with its sequence number (R31, R32). -/
def State.storeVerdict (s : State) (p : Fin 8) (seq : BitVec 4) (v : Verdict) : State :=
  s.mapLoop fun l => l.setPanel p { l.panels[p] with stored := some (seq, v) }

/-- A VERDICT is due to be sent. -/
def State.owe (s : State) (p : Fin 8) (seq : BitVec 4) (v : Verdict) : State :=
  s.mapLoop fun l => { l with exchange := .toVerdict p seq v }

/-- The stored verdict, if the sequence number makes the frame a repeat (R35). -/
def State.repeated (s : State) (p : Fin 8) (seq : BitVec 4) : Option Verdict :=
  match s.loop.panels[p].stored with
  | some (x, v) => if x = seq then some v else none
  | none => none

/-- The Book's verdict on a panel's request (R31). -/
def State.panelRequest (s : State) (p : Fin 8) (song : Nat) (tag : Option Nat) :
    State × Verdict :=
  match s.refusal (.panel p) song .normal with
  | some r => (s, .refused r)
  | none =>
    let (t, ticket, position) := s.acceptRequest (.panel p) song .normal tag
    (t, .accepted ticket position)

/-- The Book's verdict on a panel's cancel (R17). -/
def State.cancelForPanel (s : State) (p : Fin 8) (ticket : Nat) : State × Verdict :=
  match s.holder ticket with
  | .stage => (s, .onStage)
  | .nobody => (s, .unknown)
  | .entry e => if e.origin = p.val then (s.cancelEntry e, .cancelled) else (s, .notYours)

/-- A REQUEST or CANCEL that is new: the Book decides, the verdict is stored and owed; or a
repeat: the stored verdict is owed (R30, R35). -/
def State.adjudicate (s : State) (p : Fin 8) (seq : BitVec 4) (book : State → State × Verdict) :
    State :=
  match s.repeated p seq with
  | some v => s.owe p seq v
  | none =>
    let (t, v) := book s
    (t.storeVerdict p seq v).owe p seq v

/-- The answer to a WHERE (R33). -/
def State.whereIs (s : State) (ticket : Nat) : Answer :=
  if ticket = 0 then .unknown
  else if s.book.holds ticket then .waiting (s.book.position ticket)
  else if s.onStage ticket then .onStage
  else match s.ring.find? fun r => r.ticket = ticket with
    | some r => .done r.headline
    | none => .unknown

/-- The frame of a POLL (12.3). -/
def pollFrame (p : Fin 8) (x : Panel) : List Byte :=
  loopFrame (partAddress p) 0x01 0
    [match x.stored with
      | some (seq, _) => seq.setWidth 8
      | none => 0xFF]

end Sys2Proof.Machine
end

