-- ==== Sys2Proof/Machine/VoiceOps.lean ====
section
/-! DEFINITION. The Voice Assessment Unit: detection (R160 to R162), judgement (R163 to R165),
tallies (R166 to R168), lock and first miss (R169, R170), the tone check (R171, R172). -/

namespace Sys2Proof.Machine

def State.setChannel (s : State) (m : Fin 4) (c : Channel) : State :=
  { s with voice := { s.voice with channels := s.voice.channels.set m.val c m.isLt } }

/-- Sets turn flags (R44). -/
def State.flagTurn (s : State) (f : TurnFlags → TurnFlags) : State :=
  match s.turn with
  | none => s
  | some t => { s with turn := some { t with flags := f t.flags } }

/-! ## Detection -/

/-- The level of a voice frame: the mean magnitude, rounded down (R160). -/
def level (xs : List Int) : Nat := (xs.map Int.natAbs).sum / Config.voiceFrame

/-- The crossing detector (R161): armed or not, crossings found, the first and last index. -/
structure Detector where
  armed : Bool
  count : Nat
  first : Nat
  last : Nat
deriving DecidableEq, Repr

/-- One sample, tested once against the detector's state at that sample. -/
def Detector.feed (threshold : Int) (d : Detector) (x : Int) (index : Nat) : Detector :=
  if d.armed then
    if threshold ≤ x then
      { armed := false, count := d.count + 1, first := if d.count = 0 then index else d.first
        last := index }
    else d
  else if x ≤ -threshold then { d with armed := true }
  else d

def crossings (threshold : Int) : Nat → Detector → List Int → Detector
  | _, d, [] => d
  | i, d, x :: xs => crossings threshold (i + 1) (d.feed threshold x i) xs

/-- The period in sixteenths of a sample, rounded half up (R161). -/
def period16 (span count : Nat) : Nat := (32 * span + (count - 1)) / (2 * (count - 1))

/-- The sung pitch of a period (R162): 552 + round-half-up(96 × log2(f / 440)), f = 768,000 / T16.
With f / 440 = 19200 / (11 × T16), the pitch less 552 is the q for which the 192nd power of that
ratio lies in 2^(2q - 1) to 2^(2q + 1); the power is taken exactly, scaled by 2^1024. -/
def pitchOf (t16 : Nat) : Int :=
  let k : Int := (Nat.log2 (19200 ^ 192 * 2 ^ 1024 / (11 * t16) ^ 192) : Int) - 1024
  552 + (k + 1) / 2

/-- The pitch of a frame, or none if it is unvoiced (R160 to R162). -/
def detect (gate : Nat) (xs : List Int) : Option Int :=
  if level xs < gate then none
  else
    let d := crossings ((gate / 2 : Nat) : Int) 0
      { armed := false, count := 0, first := 0, last := 0 } xs
    if d.count < 2 then none
    else
      let t := period16 (d.last - d.first) d.count
      if t < 699 || 10971 < t then none else some (pitchOf t)

/-! ## Tallies -/

/-- The mark of a tally (R166). -/
def markOf (a h : Nat) : TallyMark :=
  if a = 0 then .empty else if 2 * h < a then .counted else .kept

/-- The mark a note of the song on stage carries for a channel. -/
def State.noteMark (s : State) (m : Fin 4) (index : Nat) : Option TallyMark :=
  match s.turn with
  | none => none
  | some t => (s.slots[t.slot].tallied[m]).getD index none

/-- A note of the song on stage is given a mark for a channel. -/
def State.setMark (s : State) (m : Fin 4) (index : Nat) (mark : TallyMark) : State :=
  match s.turn with
  | none => s
  | some t =>
    let x := s.slots[t.slot]
    s.setSlot t.slot
      { x with tallied := x.tallied.set m.val (x.tallied[m].set index (some mark)) m.isLt }

/-- A tally: one note closed for one channel (R166). A note that carries a mark is not tallied
again. -/
def State.tally (s : State) (m : Fin 4) (index : Nat) : State :=
  let c := s.voice.channels[m]
  let counts := match c.openNote with
    | some o => if o.index = index then (o.a, o.h) else (0, 0)
    | none => (0, 0)
  let stillOpen := c.openNote.filter fun o => o.index ≠ index
  if (s.noteMark m index).isSome then s.setChannel m { c with openNote := stillOpen }
  else
    let mark := markOf counts.1 counts.2
    (s.setMark m index mark).setChannel m
      { c with
        openNote := stillOpen
        notes := if mark = .empty then c.notes else c.notes + 1
        kept := if mark = .kept then c.kept + 1 else c.kept }

/-- The open note of a channel, if any, is tallied. -/
def State.tallyOpen (s : State) (m : Fin 4) : State :=
  match s.voice.channels[m].openNote with
  | none => s
  | some o => s.tally m o.index

/-- Channels that are enabled and not frozen (R167). -/
def State.judging (s : State) (m : Fin 4) : Bool :=
  s.voice.channels[m].enabled && !s.voice.channels[m].frozen

/-- The open note of every enabled channel that is not frozen is tallied: at a jump and at the end
of a turn (R167). -/
def State.tallyAllOpen (s : State) : State :=
  micNumbers.foldl (fun s m => if s.judging m then s.tallyOpen m else s) s

/-- The notes of a channel's assessed part with their indices, in track order. A note's index counts all
the note records of the track from 0, those of the other part included (DESIGN CHOICE, log 53). -/
def State.partNotes (s : State) (m : Fin 4) : List (Note × Nat) :=
  match s.stageTrack with
  | none => []
  | some t => t.notes.zipIdx.filter fun n => n.1.tag.isOf (s.voice.channels[m].assessed (some t))

/-- The tallies an advance to a time makes (R167): every note of the assessed part with
end + latency compensation at that time and no mark. -/
def State.tallyPassed (s : State) (time : Nat) : State :=
  micNumbers.foldl (fun s m =>
    if s.judging m then
      ((s.partNotes m).filter fun n => n.1.stop + s.voice.scoring.latency = time).foldl
        (fun s n => if (s.noteMark m n.2).isSome then s else s.tally m n.2) s
    else s) s

/-! ## Lock (R169), first miss (R170), judgement (R163 to R165, R168) -/

def Channel.lockHit (c : Channel) : Channel :=
  let run := bump 2 c.hitRun
  if c.lock = .unlocked && run = 2 then
    { c with hitRun := run, missRun := 0, lock := .locked, lockCount := bump 255 c.lockCount }
  else { c with hitRun := run, missRun := 0 }

def Channel.lockMiss (c : Channel) : Channel :=
  let run := bump 16 c.missRun
  { c with
    missRun := run, hitRun := 0
    lock := if c.lock = .locked && run = 16 then .unlocked else c.lock }

/-- The difference a voiced frame is judged by (R163). -/
def judgedDifference (folding : Bool) (pitch reference : Int) : Int :=
  if folding then fold (pitch - reference) else pitch - reference

/-- A HIT or MISS in the open note (R164): counts, lock, first-miss capture. -/
def Channel.count (c : Channel) (hit : Bool) (time : Nat) (reference : Int) (pitch : Option Int) :
    Channel :=
  let c := { c with
    judged := min 65535 (c.judged + 1)
    hits := if hit then min 65535 (c.hits + 1) else c.hits
    openNote := c.openNote.map fun (o : OpenNote) =>
      { o with a := o.a + 1, h := if hit then o.h + 1 else o.h } }
  if hit then c.lockHit
  else
    let c := if c.firstMiss.isNone && 0 < c.lockCount then
        { c with firstMiss := some { time := time, reference := reference, pitch := pitch } }
      else c
    c.lockMiss

/-- Saturation (R168): the open note tallied, the channel frozen, SATURATED set. -/
def State.saturate (s : State) (m : Fin 4) : State :=
  let s := s.tallyOpen m
  let c := s.voice.channels[m]
  s.setChannel m { c with frozen := true, flags := { c.flags with saturated := true } }

/-- The open note becomes this one, another open note being tallied first (R164). -/
def State.openNote (s : State) (m : Fin 4) (index : Nat) : State :=
  if s.voice.channels[m].openNote.any (·.index = index) then s
  else
    let s := s.tallyOpen m
    s.setChannel m
      { s.voice.channels[m] with openNote := some { index := index, a := 0, h := 0 } }

/-- The judgement of a completed voice frame of one channel (R163 to R165, R168). -/
def State.judge (s : State) (m : Fin 4) (pitch : Option Int) : State :=
  let g := s.voice.scoring
  if !s.judging m || s.clock.state ≠ .running || s.clock.position < g.latency then s
  else
    let t := s.clock.position - g.latency
    match (s.partNotes m).find? fun n => n.1.start ≤ t && t < n.1.stop with
    | some (note, index) =>
      if t < note.start + g.grace || (s.noteMark m index).isSome then s
      else
        let r := 8 * ((note.number : Int) + s.clock.key)
        let hit := match pitch with
          | some p => (judgedDifference g.folding p r).natAbs ≤ g.tolerance
          | none => false
        let s := s.openNote m index
        let c := s.voice.channels[m].count hit t r pitch
        let s := s.setChannel m c
        if c.judged = 65535 then s.saturate m else s
    | none =>
      let c := s.voice.channels[m]
      if pitch.isSome && s.clock.interlude = .outside then
        s.setChannel m { c.lockMiss with strays := bump 65535 c.strays }
      else s

/-! ## The tone check (R171, R172) -/

/-- The largest number below 2^n that satisfies a downward closed property, built bit by bit. -/
def largest (p : Nat → Bool) : Nat → Nat → Nat
  | 0, acc => acc
  | n + 1, acc => largest p n (if p (acc + 2 ^ n) then acc + 2 ^ n else acc)

/-- The number of half periods of the square wave before sample k: floor(2 k F / 48,000) with
F = 440 × 2^((note − 69) / 12), that is the largest n with
n^12 × 600^12 × 2^69 ≤ (11 k)^12 × 2^note (R171). -/
def halfPeriods (note k : Nat) : Nat :=
  largest (fun n => n ^ 12 * 600 ^ 12 * 2 ^ 69 ≤ (11 * k) ^ 12 * 2 ^ note) 13 0

/-- Sample k of the square wave: +8000 in the first half of a period, −8000 in the second. -/
def toneSample (note k : Nat) : BitVec 16 :=
  if halfPeriods note k % 2 = 0 then BitVec.ofInt 16 8000 else BitVec.ofInt 16 (-8000)

/-- round-half-up(sum / v), or none if v is 0 (R172). -/
def ToneCheck.average (t : ToneCheck) : Option Nat :=
  if t.voiced = 0 then none else some ((2 * t.sum + t.voiced) / (2 * t.voiced))

/-- The outcome after the last frame (R172). -/
def ToneCheck.outcome (t : ToneCheck) : ToneOutcome :=
  match t.average with
  | none => .fail
  | some a =>
    if t.voiced = Config.toneFrames && a ≤ 8 * t.note + 1 && 8 * t.note ≤ a + 1 then .pass
    else .fail

def ToneCheck.result (t : ToneCheck) (o : ToneOutcome) : ToneResult :=
  { mic := t.mic, note := t.note, voiced := t.voiced, average := t.average, outcome := o }

/-- A tone check ends with an outcome; TONE_DONE to C and V (R172). -/
def State.endTone (s : State) (t : ToneCheck) (o : ToneOutcome) : State :=
  { s with voice := { s.voice with tone := none, lastTone := some (t.result o) } }.raise
    consoleVenue (.toneDone t.mic o)

/-- A running tone check, if any, ends ABORTED (R48, R159, R172). A voice frame under way keeps the
samples of the wave it holds and goes on with the channel's audio (DESIGN CHOICE, log 56). -/
def State.abortTone (s : State) : State :=
  match s.voice.tone with
  | none => s
  | some t => s.endTone t .aborted

/-- A completed frame of the check's channel is counted; the 50th ends the check (R172). -/
def State.countToneFrame (s : State) (pitches : Vector (Option Int) 4) : State :=
  match s.voice.tone with
  | none => s
  | some t =>
    if t.made.isNone then s
    else
      let t := { t with
        done := t.done + 1
        voiced := if (pitches[t.mic]).isSome then t.voiced + 1 else t.voiced
        sum := t.sum + ((pitches[t.mic]).getD 0).toNat }
      if Config.toneFrames ≤ t.done then s.endTone t t.outcome
      else { s with voice := { s.voice with tone := some t } }

/-! ## Voice frames (R159, R160) -/

/-- The samples of one channel of the voice frame under way. -/
def Voice.samples (v : Voice) (m : Fin 4) : List Int := v.frame.map fun x => x[m].toInt

/-- One channel's completed frame: the last voice frame is set, then the frame is judged. -/
def State.completeChannel (s : State) (m : Fin 4) (pitch : Option Int) : State :=
  (s.setChannel m
    { s.voice.channels[m] with
      lastFrame := some { pitch := pitch, at_ := s.sessionTime } }).judge m pitch

/-- The voice frames of all channels complete: detection, judgement, the tone check (R160 to R165,
R171). -/
def State.completeFrame (s : State) : State :=
  let pitches : Vector (Option Int) 4 :=
    Vector.ofFn fun m => detect s.voice.scoring.gate (s.voice.samples m)
  let s := { s with voice := { s.voice with frame := [] } }
  (micNumbers.foldl (fun s m => s.completeChannel m pitches[m]) s).countToneFrame pitches

/-- Whether the voice frames under way have their 960 samples. -/
def State.frameFull (s : State) : Bool := Config.voiceFrame ≤ s.voice.frame.length

/-- A frame that has its 960 samples is complete before anything later is taken (log 17). -/
def State.settleFrame (s : State) : State := if s.frameFull then s.completeFrame else s

/-- The top 16 bits of the words of one TDM frame (R159). -/
def TdmWords.samples (w : TdmWords) : Samples :=
  #v[w.w0.extractLsb' 8 16, w.w1.extractLsb' 8 16, w.w2.extractLsb' 8 16, w.w3.extractLsb' 8 16]

/-- A tone check whose first frame has not begun begins with a new voice frame (R171). -/
def State.beginTone (s : State) : State :=
  match s.voice.tone with
  | none => s
  | some t =>
    if s.voice.frame.isEmpty && t.made.isNone then
      { s with voice := { s.voice with tone := some { t with made := some 0 } } }
    else s

/-- The samples that enter the voice frames: the check's channel takes the square wave (R171), and its
own audio once no check runs, also within a frame (DESIGN CHOICE, log 56). -/
def State.enterSamples (s : State) (x : Samples) : State :=
  match s.voice.tone with
  | none => { s with voice := { s.voice with frame := s.voice.frame ++ [x] } }
  | some t =>
    match t.made with
    | none => { s with voice := { s.voice with frame := s.voice.frame ++ [x] } }
    | some k =>
      { s with voice := { s.voice with
          frame := s.voice.frame ++ [x.set t.mic.val (toneSample t.note k) t.mic.isLt]
          tone := some { t with made := some (k + 1) } } }

/-- A word clock edge with its TDM frame while PRESENT (R159). -/
def State.takeSamples (s : State) (x : Samples) : State :=
  let s := s.settleFrame
  ({ s with voice := { s.voice with quiet := 0 } }.beginTone).enterSamples x

/-- The audio state changes, with AUDIO_STATE to the console port (R159). -/
def State.setAudio (s : State) (a : AudioState) : State :=
  { s with voice := { s.voice with audio := a } }.raise [.console] (.audioState a)

/-- The first word clock edge in LOST (R159). -/
def State.restoreAudio (s : State) (x : Samples) : State :=
  (({ s with voice := { s.voice with quiet := 0, frame := [] } }).setAudio .present).takeSamples x

/-- 50 ms without a word clock edge (R159): frames discarded, any tone check ABORTED. -/
def State.loseAudio (s : State) : State :=
  let s := s.settleFrame
  (({ s with voice := { s.voice with frame := [] } }).setAudio .lost).abortTone

/-! ## Turn start (R48, R155) -/

def Channel.turnStart (c : Channel) : Channel :=
  { c with
    takingPart := c.enabled, judged := 0, hits := 0, notes := 0, kept := 0, strays := 0
    openNote := none, lock := .unlocked, hitRun := 0, missRun := 0, lockCount := 0
    firstMiss := none, flags := ChannelFlags.clear, frozen := false }

/-- The channel after a session reset (R174): as at a turn start, but taking part clear. -/
def Channel.sessionReset (c : Channel) : Channel := { c.turnStart with takingPart := false }

def Voice.mapChannels (v : Voice) (f : Channel → Channel) : Voice :=
  { v with channels := v.channels.map f }

end Sys2Proof.Machine
end

