-- ==== Sys2Proof/Machine/TurnOps.lean ====
section
/-! DEFINITION. Scores and filing (R175 to R183), the take and the end of a turn (R47 to R58), the
song clock's advance and jump (R86 to R97). -/

namespace Sys2Proof.Machine

/-! ## The channel score and the headline (R175 to R177) -/

/-- The base score: 10,000 × X / Y rounded half up (R175). -/
def baseScore (wp wn a h n k : Nat) : Nat :=
  let x := wp * h * n + wn * k * a
  let y := (wp + wn) * a * n
  (20000 * x + y) / (2 * y)

/-- The final score, or none for an UNSCORED channel (R175, R176). -/
def finalScore (g : Scoring) (c : Channel) : Option Nat :=
  if c.judged = 0 || c.notes = 0 then none
  else some (baseScore g.pitchWeight g.noteWeight c.judged c.hits c.notes c.kept -
    min (c.strays * g.strayCost) 2000)

/-- The mean of the final scores, rounded half up; none without a scored channel (R177). -/
def headlineOf (scores : List Nat) : Option Nat :=
  if scores.length = 0 then none
  else some ((2 * scores.sum + scores.length) / (2 * scores.length))

/-- A channel record as handed on and scored (R173, R176, R179). -/
def State.channelResult (s : State) (m : Fin 4) : ChannelResult :=
  let c := s.voice.channels[m]
  { mic := m, part := c.part, assessed := c.assessed s.stageTrack, judged := c.judged
    hits := c.hits, strays := c.strays, notes := c.notes, kept := c.kept
    final := finalScore s.voice.scoring c, lockCount := c.lockCount, flags := c.flags
    firstMiss := c.firstMiss }

/-- The channel results: one per channel whose taking part is set, in mic order (R173). -/
def State.channelResults (s : State) : List ChannelResult :=
  (micNumbers.filter fun m => s.voice.channels[m].takingPart).map s.channelResult

/-! ## Filing (R178 to R183) -/

/-- The result record of the turn on stage (R179). -/
def State.resultOf (s : State) (t : Turn) (reason : EndReason) : ResultRecord :=
  let channels := s.channelResults
  { ticket := t.ticket, songId := t.songId, origin := t.origin, tag := t.tag, reason := reason
    flags := t.flags, key := s.clock.key, startedAt := t.startedAt, endedAt := s.sessionTime
    headline := headlineOf (channels.filterMap (·.final)), channels := channels
    collected := false }

/-- A record removed from the ring uncollected raises RESULT_OVERWRITTEN to V (R178 step 3). -/
def State.loseRecord (s : State) (r : ResultRecord) : State :=
  if r.collected then s else s.raise [.venue] (.resultOverwritten r.ticket)

/-- R178 step 3: the old record of the same ticket, or else the oldest of a full ring, goes. -/
def State.makeRoom (s : State) (ticket : Nat) : State :=
  match s.ring.find? fun r => r.ticket = ticket with
  | some old => { s with ring := s.ring.filter fun r => r.ticket ≠ ticket }.loseRecord old
  | none =>
    match s.ring with
    | oldest :: rest =>
      if Config.ringSize ≤ s.ring.length then { s with ring := rest }.loseRecord oldest else s
    | [] => s

/-- A copy is entered after the last entry whose headline is at or above its own (R183). -/
def enterBest (xs : List BestEntry) (x : BestEntry) : List BestEntry :=
  xs.takeWhile (fun y => x.headline ≤ y.headline) ++
    x :: xs.dropWhile (fun y => x.headline ≤ y.headline)

/-- An offer to the best list (R183). -/
def offerBest (best : List BestEntry) (x : BestEntry) : List BestEntry :=
  let best := best.filter fun y => y.ticket ≠ x.ticket
  if best.length < Config.bestSize then enterBest best x
  else match best.getLast? with
    | some last =>
      if last.headline < x.headline then enterBest best.dropLast x else best
    | none => best

/-- R178 step 5: only COMPLETE records with a headline are offered. -/
def ResultRecord.offer (r : ResultRecord) (best : List BestEntry) : List BestEntry :=
  match r.reason, r.headline with
  | .complete, some h =>
    offerBest best { ticket := r.ticket, songId := r.songId, origin := r.origin, tag := r.tag
                     headline := h, endedAt := r.endedAt }
  | _, _ => best

/-- The filing of a record (R178 steps 3 to 6). -/
def State.file (s : State) (r : ResultRecord) : State :=
  let s := s.makeRoom r.ticket
  { s with ring := s.ring ++ [r], best := r.offer s.best }.raise consoleVenue
    (.resultReady r.ticket r.reason r.headline)

/-! ## The song clock at rest (R84, R97) -/

def interludeAt (spans : List (Nat × Nat)) (position : Nat) : Interlude :=
  if spans.any fun x => x.1 ≤ position && position < x.2 then .inside else .outside

/-- STOPPED at 0, the slip window kept (R84, R100). -/
def Clock.stop (c : Clock) : Clock := { Clock.reset with slipWindow := c.slipWindow }

/-- CUED at 0 with the END time and spans of the track taken (R48, R84). -/
def Clock.cue (c : Clock) (track : Option Track) : Clock :=
  let spans := (track.map (·.spans)).getD []
  { c.stop with
    state := .cued, interlude := interludeAt spans 0, endTime := track.map (·.endTime)
    spans := spans }

/-! ## The take (R47 to R49) -/

def Entry.turn (e : Entry) (slot : Fin 4) (now : Time) : Turn :=
  { ticket := e.ticket, songId := e.songId, slot := slot, origin := e.origin, tier := e.tier
    tag := e.tag, startedAt := now, flags := TurnFlags.clear }

/-- The rotation ring after a take (R8). -/
def Book.rotatedBy (b : Book) (e : Entry) : Nat :=
  if e.tier = .normal && b.rotateOnTake then e.origin else b.lowest

/-- The CALLED head becomes the turn on stage (R47 to R49). -/
def State.take (s : State) (e : Entry) (slot : Fin 4) : State :=
  let x := s.slots[slot]
  let s := { s with
    book := { s.book with entries := s.book.entries.drop 1, lowest := s.book.rotatedBy e }
    turn := some (e.turn slot s.sessionTime)
    clock := s.clock.cue x.track
    voice := s.voice.mapChannels Channel.turnStart }
  let s := (s.setSlot slot { x with state := .onStage }).abortTone
  let s := s.endScoreShow.emptyWindow.requestRebuild
  (s.raise consoleVenue (.turnStarted e.ticket slot)).bookChanged

/-! ## The end of a turn (R55 to R58) -/

/-- The end of the turn on stage, step by step as R55 gives; TURN_ENDED goes to the playback port
unless END-TURN ended it (R57). -/
def State.endTurn (s : State) (t : Turn) (reason : EndReason) (toPlayback : Bool) : State :=
  let s := s.tallyAllOpen
  let record := s.resultOf t reason
  let s := s.file record
  let s := s.scrubSlot t.slot
  let s := { s with clock := s.clock.stop }
  let s := s.emptyWindow
  let s := s.startScoreShow record.headline
  let s := { s with turn := none }
  let s := s.raise (if toPlayback then allPorts else consoleVenue) (.turnEnded t.ticket reason)
  s.testCall

/-! ## The clock in motion (R86 to R90, R95) -/

/-- A pass of the END time, reported to the Turn Controller, which ends the turn if auto-end is on
(R52, R95). -/
def State.passEnd (s : State) (old new : Nat) : State :=
  match s.turn, s.clock.endTime with
  | some t, some e =>
    if old < e && e ≤ new && s.autoEnd then s.endTurn t .complete true else s
  | _, _ => s

/-- An advance by 1 of a running clock (R86 to R88): the position rises, the accumulator is lowered
by 1000, or set to 0 at the limit, and the followers take the time passed: lines, tallies, the
END mark (log 15). -/
def State.advance (s : State) : State :=
  let x := s.clock.position + 1
  let s := { s with clock := { s.clock with
    position := x
    accumulator := if x = Config.songLimit then 0 else s.clock.accumulator - 1000
    interlude := interludeAt s.clock.spans x } }
  ((s.lineEventsAt x).tallyPassed x).passEnd (x - 1) x

/-- An advance while the accumulator is 1000 or more and the clock still runs. -/
def State.advanceWhile : Nat → State → State
  | 0, s => s
  | n + 1, s =>
    if s.clock.state = .running && 1000 ≤ s.clock.accumulator then
      State.advanceWhile n s.advance
    else s

/-- The clock's part of a timebase tick (R86, R87). The accumulator reaches at most
999 + 1250 at a tick, so two advances are all there can be. A RUNNING clock that a SEEK or SYNC has
put at the limit is held there too, with no tempo added (DESIGN CHOICE, log 50). -/
def State.tickClock (s : State) : State :=
  if s.clock.state = .running && s.clock.position < Config.songLimit then
    State.advanceWhile 2
      { s with clock := { s.clock with accumulator := s.clock.accumulator + s.clock.tempo } }
  else s

/-- A jump to another position (R90). -/
def State.jump (s : State) (position : Nat) : State :=
  let old := s.clock.position
  let s := s.flagTurn fun f =>
    if position < old then { f with rewound := true } else { f with skippedAhead := true }
  let s := { s with clock := { s.clock with
    position := position, accumulator := 0, interlude := interludeAt s.clock.spans position } }
  (s.requestRebuild.tallyAllOpen).passEnd old position

end Sys2Proof.Machine
end

