-- ==== Sys2Proof/Machine/FontOps.lean ====
section
/-! DEFINITION. Operations of the Font Port: the header scan, a glyph fetch, maintenance, flash
operations (R128 to R141). -/

namespace Sys2Proof.Machine

/-! ## The scan (R134) -/

/-- The values of a valid header in the flash, or none. -/
def readHeader (m : List Host.Cell) : Option FontHeader :=
  let size := (Memory.read m 5).toNat
  let count := beValue (Memory.bytes m 6 2)
  let base := beValue (Memory.bytes m 8 4)
  if Memory.bytes m 0 4 = [0x55, 0x46, 0x46, 0x4E] && Memory.read m 4 = 1 && 1 ≤ count &&
      [4, 8, 16, 32, 64].contains size &&
      base + count * Config.glyphRecordBytes ≤ size * 1048576 then
    some { glyphCount := count, tableBase := base, sizeMiB := size }
  else none

/-- A pinned STALE entry goes to FETCHING in class DEMAND with its old bitmap (R131). -/
def Cache.refetch (c : Cache) (i : Nat) : Cache :=
  if (c.entry i).state = .stale && 0 < (c.entry i).pins then
    (c.setEntry i { c.entry i with state := .fetching .demand }).enqueue i
  else c

/-- Every pinned STALE entry is queued, least recent first (R128, R131). -/
def Cache.refetchAll (c : Cache) : Cache := c.recency.foldl Cache.refetch c

/-- A STALE or FETCHING entry becomes RESIDENT with the substitute (R131); its late mark is cleared
(DESIGN CHOICE, log 43). -/
def CacheEntry.substituted (e : CacheEntry) : CacheEntry :=
  if e.state = .stale || e.isFetching then
    { e with
      state := .resident, bitmap := some substituteBitmap, substitute := true, late := false }
  else e

/-- The cache once the store is ABSENT (R131). -/
def Cache.allSubstituted (c : Cache) : Cache :=
  { c with entries := c.entries.map CacheEntry.substituted, fetchOrder := [] }

/-- FONT_DONE to V, at the completion of a scan that FONT-MAINT-END started (R134, R141). -/
def State.fontDone (s : State) : State :=
  if s.font.maintScan then
    { s with font := { s.font with maintScan := false } }.raise [.venue]
      (.fontDone s.font.store s.font.fault)
  else s

/-- WAKING completes into ACTIVE as soon as the store is not SCANNING and the path is not in
CHANGEOVER (R147). -/
def State.testWaking (s : State) : State :=
  if s.video.power = .waking && s.font.store ≠ .scanning && s.video.path ≠ .changeover then
    { s with video := { s.video with power := .active } }
  else s

/-- The completion of a scan (R134, R131, R141, R147). -/
def State.completeScan (s : State) : State :=
  let s := match readHeader s.flash with
    | some h =>
      { s with
        font := { s.font with store := .ready, header := some h }, cache := s.cache.refetchAll }
    | none =>
      { s with
        font := { s.font with store := .absent, header := none }
        cache := s.cache.allSubstituted }
  s.fontDone.testWaking

/-! ## A glyph fetch (R128, R129, R135) -/

/-- The entry served next: the earliest DEMAND entry, or else the earliest PREFETCH entry. -/
def Cache.nextFetch (c : Cache) : Option Nat :=
  match c.fetchOrder.find? fun i => (c.entry i).state = .fetching .demand with
  | some i => some i
  | none => c.fetchOrder.find? fun i => (c.entry i).state = .fetching .prefetch

/-- The fetch that may start now (R128, R136). -/
def State.fetchToStart (s : State) : Option Nat :=
  if s.cache.inProgress.isNone && s.font.store = .ready && !s.font.maintWanted &&
      s.video.power = .active then s.cache.nextFetch
  else none

/-- Whether the header has no record for a code, so that its fetch reads nothing from the flash
(R129). -/
def FontPort.hasNoRecord (f : FontPort) (k : Code) : Bool :=
  match f.header with
  | none => true
  | some h => h.glyphCount ≤ k.toNat

/-- What a fetch of a code finds (R129): the record's bitmap, or none for the substitute. -/
def fetchedBitmap (h : Option FontHeader) (m : List Host.Cell) (k : Code) : Option Bitmap :=
  match h with
  | none => none
  | some h =>
    let record := h.tableBase + k.toNat * Config.glyphRecordBytes
    if h.glyphCount ≤ k.toNat then none
    else if (Memory.read m record).getLsbD 0 then
      some { coverage := .record (Memory.bytes m (record + 4) 384)
             advance := clampNat 4 32 (Memory.read m (record + 1)).toNat }
    else none

/-- An entry after its fetch (R129). -/
def CacheEntry.fetched (e : CacheEntry) (found : Option Bitmap) : CacheEntry :=
  { e with
    state := .resident, bitmap := some (found.getD substituteBitmap)
    substitute := found.isNone, late := false }

/-- The completion of the fetch in progress (R129). -/
def State.completeFetch (s : State) (i : Nat) : State :=
  let e := s.cache.entry i
  let found := fetchedBitmap s.font.header s.flash (e.code.getD 0)
  let c := (s.cache.setEntry i (e.fetched found)).dequeue i
  { s with cache := { c with inProgress := none } }

/-- A fetch starts (R128); one that reads nothing from the flash completes at once (R129). -/
def State.startFetch (s : State) (i : Nat) : State :=
  let started := { s with cache := { s.cache with inProgress := some i } }
  if s.font.hasNoRecord ((s.cache.entry i).code.getD 0) then started.completeFetch i else started

/-! ## Maintenance (R136 to R141) -/

/-- An entry at the entry into MAINTENANCE (R136). The late mark of a FETCHING entry made STALE is
kept (DESIGN CHOICE, log 43). -/
def CacheEntry.atMaintenance (e : CacheEntry) : CacheEntry :=
  match e.state with
  | .fetching .prefetch => CacheEntry.empty
  | .fetching .demand =>
    match e.bitmap with
    | none => { e with state := .stale, bitmap := some substituteBitmap, substitute := true }
    | some _ => { e with state := .stale }
  | _ => e

/-- The cache at the entry into MAINTENANCE: freed entries leave the recency order, both queues are
empty (R136). -/
def Cache.atMaintenance (c : Cache) : Cache :=
  { c with
    entries := c.entries.map CacheEntry.atMaintenance
    recency := c.recency.filter fun i => (c.entry i).state ≠ .fetching .prefetch
    fetchOrder := [] }

/-- The entry into MAINTENANCE (R136). -/
def State.enterMaintenance (s : State) : State :=
  { s with
    font := { s.font with
      store := .maintenance, latch := false, fault := false, maintWanted := false }
    cache := s.cache.atMaintenance }

/-- The working flash size in bytes, if known (R134). -/
def FontPort.workingSize (f : FontPort) : Option Nat := f.header.map fun h => h.sizeMiB * 1048576

/-- The address limit of maintenance (R134, R138). -/
def FontPort.addressLimit (f : FontPort) : Nat := f.workingSize.getD Config.flashSpace

/-- The first protected address, if any is protected (R137). -/
def FontPort.protectedFrom (f : FontPort) : Option Nat :=
  match f.protection, f.workingSize with
  | .none, _ => none
  | .upperQuarter, some n => some (n * 3 / 4)
  | .upperHalf, some n => some (n / 2)
  | .upperQuarter, none => some 0
  | .upperHalf, none => some 0
  | .all, _ => some 0

/-- Whether any of `n` bytes from an address lies in the protected range (R137, R138): the range
runs to the end of the flash, so the last byte decides. -/
def FontPort.protects (f : FontPort) (address n : Nat) : Bool :=
  match f.protectedFrom with
  | none => false
  | some a => a < address + n

/-- The bytes an operation names: the first address and their count. -/
def FlashOp.range : FlashOp → Nat × Nat
  | .program a d => (a, d.length)
  | .erase x => (x * 4096, 4096)

/-- The flash after a completed operation (R138). -/
def FlashOp.apply (m : List Host.Cell) : FlashOp → List Host.Cell
  | .program a d => Memory.fill (fun x => Memory.read m x &&& d.getD (x - a) 0xFF) a d.length m
  | .erase x => m.filter fun c => c.1 < x * 4096 || x * 4096 + 4096 ≤ c.1

/-- The flash after an abandoned operation: the bytes named are free values (R139, log 2). -/
def FlashOp.abandon (n : Nat) (m : List Host.Cell) (op : FlashOp) : List Host.Cell :=
  Memory.fill (Config.flashLeft n) op.range.1 op.range.2 m

/-- An operation starts (R138). -/
def State.startFlash (s : State) (op : FlashOp) : State :=
  { s with font := { s.font with store := .busy op 0 } }

/-- The flash reports the operation done (R139). -/
def State.finishFlash (s : State) (op : FlashOp) : State :=
  { s with
    font := { s.font with store := .maintenance, latch := false }, flash := op.apply s.flash }

/-- The operation is abandoned (R139). -/
def State.abandonFlash (s : State) (op : FlashOp) : State :=
  { s with
    font := { s.font with store := .maintenance, latch := false, fault := true }
    flash := op.abandon s.freeCount s.flash, freeCount := s.freeCount + 1 }

/-- An entry at FONT-MAINT-END (R141). -/
def CacheEntry.aged (e : CacheEntry) : CacheEntry :=
  if e.state = .resident then { e with state := .stale } else e

/-- FONT-MAINT-END: latch clear, RESIDENT entries STALE, SCANNING (R141). -/
def State.endMaintenance (s : State) : State :=
  { s with
    font := { s.font with store := .scanning, latch := false, maintScan := true }
    cache := { s.cache with entries := s.cache.entries.map CacheEntry.aged } }

/-- The refusal common to the commands that only MAINTENANCE takes (R137, R138, R140, R141). -/
def StoreState.refusal : StoreState → Option ResultCode
  | .maintenance => none
  | .busy _ _ => some .busy
  | _ => some .state

end Sys2Proof.Machine
end

