-- ==== Sys2Proof/Machine/VideoOps.lean ====
section
/-! DEFINITION. The video path of the Compositor: classes, the run, path changes, the canvas
(R101, R103, R143 to R147). -/

namespace Sys2Proof.Machine

/-- A supported format by its size and rate. -/
def formatOf (width height : Nat) (sixty : Bool) : Option Format :=
  if width = 1280 && height = 720 then some (if sixty then .f720p60 else .f720p50)
  else if width = 1920 && height = 1080 then some (if sixty then .f1080p60 else .f1080p50)
  else none

/-- The class of a measured frame (R143). -/
def FrameMeasure.classify (m : FrameMeasure) : FrameClass :=
  if m.uniform && m.progressive then
    let found :=
      if 1960 ≤ m.period && m.period ≤ 2040 then formatOf m.width m.height false
      else if 1640 ≤ m.period && m.period ≤ 1700 then formatOf m.width m.height true
      else none
    match found with
    | some f => .supported f
    | none => .unsupported
  else .unsupported

/-- The canvas of a format (R101). -/
def Format.canvas : Format → Canvas
  | .f720p50 | .f720p60 => .hd720
  | .f1080p50 | .f1080p60 => .hd1080

/-- A change of what the bands are computed from: a change of the effective row count requests a
rebuild, a change of the effective title rows re-chooses the title band (R103, R113, R118). -/
def State.relayout (s : State) (f : LineScheduler → LineScheduler) : State :=
  let rows := s.lines.layout.rows
  let s := s.mapLines f
  (if s.lines.layout.rows = rows then s else s.requestRebuild).retitle

/-- A change of path state, reported as VIDEO_STATE and tested for waking (R146, R147). -/
def State.setPath (s : State) (p : PathState) (format : Option Format) : State :=
  ({ s with video := { s.video with path := p } }.raise playbackConsole
    (.videoState p format)).testWaking

/-- The output turns to the input's timing at the next input frame start (R144). -/
def State.followNext (s : State) : State :=
  if s.video.output = .freeRunning then
    { s with video := { s.video with output := .toFollow } }
  else s

/-- The entry into LOCKED at a format (R144). -/
def State.lockAt (s : State) (f : Format) : State :=
  (({ s with video := { s.video with locked := some f, freeRun := f } }.relayout fun l =>
    { l with canvas := f.canvas }).setPath .locked (some f)).followNext

/-- The run after a measurement (R143). -/
def State.countRun (s : State) (c : FrameClass) : State :=
  { s with video := { s.video with
      runClass := some c
      runCount := if s.video.runClass = some c then min 2 (s.video.runCount + 1) else 1 } }

/-- The path acts on a measurement (R144). -/
def State.actOnRun (s : State) (c : FrameClass) : State :=
  match s.video.path with
  | .locked =>
    match s.video.locked with
    | some f => if c = .supported f then s else s.setPath .changeover none
    | none => s
  | .noInput | .changeover | .unsupported =>
    if s.video.runCount < 2 then s
    else match c with
      | .supported f => s.lockAt f
      | .unsupported =>
        if s.video.path = .unsupported then s else (s.setPath .unsupported none).followNext

/-- A complete input frame is measured (R143, R144). -/
def State.measureFrame (s : State) (m : FrameMeasure) : State :=
  (s.countRun (FrameMeasure.classify m)).actOnRun (FrameMeasure.classify m)

/-- Whether an input frame start completes a frame: one is under way, and in NO_INPUT the start does
not follow a time with no input, told by 100 ms without a frame start (R143, log 44). -/
def Compositor.completesFrame (v : Compositor) : Bool :=
  v.frameUnderWay && !(v.path = .noInput && 100 ≤ v.inputQuiet)

/-- An input frame start (R143, R145): the frame it completes, if it completes one, is measured; an
output that was to follow the input follows from here. Taken before a coincident 100 ms expiry it
keeps the path out of NO_INPUT and measures the frame it completes; a run made in NO_INPUT is kept
over a time with no input there (DESIGN CHOICE, log 44). -/
def State.inputFrame (s : State) (m : FrameMeasure) : State :=
  let complete := s.video.completesFrame
  let s := { s with video := { s.video with
    inputQuiet := 0, frameUnderWay := true
    output := if s.video.output = .toFollow then .following else s.video.output } }
  if complete then s.measureFrame m else s

/-- The loss of input (R145). -/
def State.loseInput (s : State) : State :=
  { s with video := { s.video with
      runClass := none, runCount := 0, output := .freeRunning
      frameUnderWay := false } }.setPath .noInput none

end Sys2Proof.Machine
end

