-- ==== Sys2Proof/Machine/Intervals.lean ====
section
/-! DEFINITION. What the end of each interval on the timebase does, where it has come, and the
intervals a tick finds run out (R28, R29, R38, R70, R72, R80, R121, R139, R145, R159, log 11). -/

namespace Sys2Proof.Machine

/-! ## The panel loop -/

/-- The end of the reply window: a miss without a receive error (R28, R39). -/
def State.endWindow (s : State) : State :=
  match s.loop.exchange with
  | .window p 0 => (s.miss p).endExchange
  | _ => s

/-- 3 ms without a byte within a reply: the reply is cut short (R29). -/
def State.cutReply (s : State) : State :=
  match s.loop.exchange with
  | .receiving p _ => if 3 ≤ s.loop.quiet then s.spoil p else s
  | _ => s

/-- The quiet after a bad reply: the exchange ends as a miss (R29). -/
def State.endBadReply (s : State) : State :=
  match s.loop.exchange with
  | .ignoring p => if 3 ≤ s.loop.quiet then (s.miss p).endExchange else s
  | _ => s

/-- The end of the cycle gap: a new cycle begins (R38). -/
def State.endGap (s : State) : State :=
  if s.loop.phase = .gap && s.loop.gapLeft = 0 then s.mapLoop Loop.startCycle else s

/-! ## The slots -/

/-- The song id that a slot's bound entry asks for (R73). -/
def State.wantedSong (s : State) (i : Fin 4) : Nat :=
  ((s.slots[i].ticket.bind s.book.find).map (·.songId)).getD 0

/-- A slot becomes READY with its checked track, every tallied mark clear (R77). -/
def Slot.toReady (x : Slot) (t : Track) : Slot :=
  { x with
    state := .ready, track := some t, timer := 0
    tallied := Vector.replicate 4 (List.replicate t.notes.length none) }

/-- The completion of a check (R72, R77, R78). -/
def State.completeCheck (s : State) (i : Fin 4) : State :=
  match checkTrack (s.wantedSong i) s.slots[i].bytes with
  | .ok t => (s.setSlot i (s.slots[i].toReady t)).testCall
  | .error (reason, index) => s.faultSlot i reason index

/-- The interval of a slot in a state has run out. -/
def State.slotDue (s : State) (x : SlotState) (i : Fin 4) : Bool :=
  s.slots[i].state = x && s.slots[i].timer = 0

/-- The end of the stall timer (R70). -/
def State.endStall (s : State) (i : Fin 4) : State :=
  if s.slotDue .loading i then s.faultSlot i .stalled none else s

/-- The end of a check's time (R72). -/
def State.endCheck (s : State) (i : Fin 4) : State :=
  if s.slotDue .checking i then s.completeCheck i else s

/-- The end of a scrub's time (R80): FREE, the record cleared, and a pass. -/
def State.endScrub (s : State) (i : Fin 4) : State :=
  if s.slotDue .scrub i then (s.setSlot i Slot.empty).pass else s

/-! ## Score show, flash, video input, word clock -/

/-- The end of the score show's time (R121). -/
def State.passScoreShow (s : State) : State :=
  match s.lines.scoreShow with
  | some x => if x.left = 0 then s.endScoreShow else s
  | none => s

/-- 5 s since a flash operation started: it is abandoned (R139). -/
def State.timeOutFlash (s : State) : State :=
  match s.font.store with
  | .busy op elapsed => if 5000 ≤ elapsed then s.abandonFlash op else s
  | .scanning | .ready | .absent | .maintenance => s

/-- 100 ms without an input frame start: the input is lost (R145). -/
def State.missInput (s : State) : State :=
  if s.video.path ≠ .noInput && 100 ≤ s.video.inputQuiet then s.loseInput else s

/-- 50 ms without a word clock edge: the audio is lost (R159). -/
def State.missAudio (s : State) : State :=
  if s.voice.audio = .present && 50 ≤ s.voice.quiet then s.loseAudio else s

/-! ## All of them -/

/-- What a tick finds: each interval that had run out at the tick before, and whose own command has
not come, ends now, in this order (DESIGN CHOICE, log 11). -/
def State.makeOverdue (s : State) : State :=
  let s := s.endWindow.cutReply.endBadReply.endGap
  let s := slotNumbers.foldl State.endStall s
  let s := slotNumbers.foldl State.endCheck s
  let s := slotNumbers.foldl State.endScrub s
  s.passScoreShow.timeOutFlash.missInput.missAudio

end Sys2Proof.Machine
end

