-- ==== Sys2Proof/Machine/ClockCommands.lean ====
section
/-! DEFINITION. The commands of the Song Clock and the timebase tick (R85 to R98). -/

namespace Sys2Proof.Machine

def State.mapClock (s : State) (f : Clock → Clock) : State := { s with clock := f s.clock }

/-- The clock state and position that PLAY, PAUSE, RESUME and SEEK reply with (R85, R89). -/
def Clock.replyBytes (c : Clock) : List Byte := be8 c.state.place ++ be32 c.position

/-- A transport command: taken in one clock state, moving to another; the reply carries state and
position after the command, refused or not (R85). -/
def transportBlock (whenIn goesTo : ClockState) (s : State) : Taken :=
  if s.clock.state = whenIn then
    let t := s.mapClock fun c => { c with state := goesTo }
    readOk t t.clock.replyBytes
  else { state := s, result := .state, data := s.clock.replyBytes }

/-- PLAY (R85). -/
def execPlay (p : Port) (s : State) : Answered :=
  clientCommand (.play p) s (transportBlock .cued .running)

/-- PAUSE (R85). -/
def execPause (p : Port) (s : State) : Answered :=
  clientCommand (.pause p) s (transportBlock .running .paused)

/-- RESUME (R85). -/
def execResume (p : Port) (s : State) : Answered :=
  clientCommand (.resume p) s (transportBlock .paused .running)

/-- SEEK at the Song Clock (R89). The reply gives the position set, also where the jump then ends
the turn (R95). -/
def seekBlock (position : Nat) (s : State) : Taken :=
  if Config.songLimit < position then refuse s .range
  else if s.clock.state = .stopped then refuse s .state
  else
    { state :=
        if position = s.clock.position then s.mapClock fun c => { c with accumulator := 0 }
        else s.jump position
      result := .ok, data := be8 s.clock.state.place ++ be32 position }

/-- SEEK (R89, R90). -/
def execSeek (p : Port) (position : BitVec 32) (s : State) : Answered :=
  clientCommand (.seek p position) s (seekBlock position.toNat)

/-- The difference a SYNC finds: the position given less the clock's own (R91). -/
def Clock.difference (c : Clock) (position : Nat) : Int := (position : Int) - c.position

/-- A SYNC outside the slip window: CLOCK_SLIP flagged and raised, then the jump (R91, R92). -/
def State.slip (s : State) (position : Nat) : State :=
  let ticket := (s.turn.map (·.ticket)).getD 0
  let s := s.flagTurn fun f => { f with clockSlip := true }
  (s.raise playbackConsole (.clockSlip ticket s.clock.position position)).jump position

/-- SYNC at the Song Clock (R91): the mark in the reply is 0 for ignored, 1 for taken (log 14). -/
def syncBlock (position : Nat) (s : State) : Taken :=
  if Config.songLimit < position then refuse s .range
  else if s.clock.state ≠ .running then refuse s .state
  else
    let d := s.clock.difference position
    let t := s.mapClock fun c => { c with lastSync := some d }
    if d.natAbs ≤ s.clock.slipWindow then
      readOk t (be8 0 ++ beInt32 d ++ be32 s.clock.position)
    else readOk (t.slip position) (be8 1 ++ beInt32 d ++ be32 position)

/-- SYNC (R91). -/
def execSync (p : Port) (position : BitVec 32) (s : State) : Answered :=
  clientCommand (.sync p position) s (syncBlock position.toNat)

/-- SET-TEMPO at the Song Clock (R94). Refused, its reply carries no tempo (DESIGN CHOICE, log 51). -/
def setTempoBlock (tempo : Nat) (s : State) : Taken :=
  if s.clock.state = .stopped then refuse s .state
  else
    let x := clampNat 750 1250 tempo
    let t := s.mapClock fun c => { c with tempo := x }
    { state :=
        if x = s.clock.tempo then t else t.flagTurn fun f => { f with tempoChanged := true }
      result := okCode (outside 750 1250 tempo), data := be16 x }

/-- SET-TEMPO (R94). -/
def execSetTempo (p : Port) (tempo : BitVec 16) (s : State) : Answered :=
  clientCommand (.setTempo p tempo) s (setTempoBlock tempo.toNat)

/-- SET-SLIP-WINDOW (R93). -/
def execSetSlipWindow (p : Port) (window : BitVec 16) (s : State) : Answered :=
  clientCommand (.setSlipWindow p window) s fun s =>
    { state := s.mapClock fun c => { c with slipWindow := clampNat 0 200 window.toNat }
      result := okCode (outside 0 200 window.toNat), data := [] }

/-- SET-KEY at the Song Clock (R96). Refused, its reply carries no key offset (DESIGN CHOICE,
log 51). -/
def setKeyBlock (semitones : Int) (s : State) : Taken :=
  if s.clock.state = .stopped then refuse s .state
  else
    let x := clampInt (-7) 7 semitones
    let t := s.mapClock fun c => { c with key := x }
    { state := if x = s.clock.key then t else t.flagTurn fun f => { f with keyChanged := true }
      result := okCode (x ≠ semitones), data := beInt8 x }

/-- SET-KEY (R96). -/
def execSetKey (p : Port) (semitones : Byte) (s : State) : Answered :=
  clientCommand (.setKey p semitones) s (setKeyBlock semitones.toInt)

/-- What CLOCK-READ gives of the turn on stage: END time, ticket, and whether the position is at or
above the END time; in STOPPED the none mark of each, three optional fields (R98; DESIGN CHOICE,
log 46). -/
def State.clockTurnBytes (s : State) : List Byte :=
  let c := s.clock
  let there := c.state ≠ .stopped
  let endTime := if there then c.endTime else none
  beOption 4 be32 endTime ++ beOption 2 be16 (if there then s.turn.map (·.ticket) else none) ++
    beOption 1 beBool (endTime.map fun e => decide (e ≤ c.position))

/-- CLOCK-READ (R98). -/
def execClockRead (p : Port) (s : State) : Answered :=
  clientCommand (.clockRead p) s fun s =>
    let c := s.clock
    readOk s (be8 c.state.place ++ be32 c.position ++ be16 c.accumulator ++ be16 c.tempo ++
      beInt8 c.key ++ be8 c.interlude.place ++ be16 c.slipWindow ++
      beOption 4 beInt32 c.lastSync ++ s.clockTurnBytes)

/-- The interval of a slot runs (R70, R72, R80). -/
def Slot.tick (x : Slot) : Slot := { x with timer := x.timer - 1 }

/-- The interval of the loop's exchange or gap runs (R28, R38). -/
def Loop.tick (l : Loop) : Loop :=
  { l with
    quiet := bump 3 l.quiet
    exchange := match l.exchange with
      | .window p left => .window p (left - 1)
      | e => e
    gapLeft := l.gapLeft - 1 }

/-- The score show's remaining time runs (R121). -/
def LineScheduler.tick (l : LineScheduler) : LineScheduler :=
  { l with scoreShow := l.scoreShow.map fun (x : ScoreShow) => { x with left := x.left - 1 } }

/-- The time since a flash operation started runs (R139, R140). -/
def FontPort.tick (f : FontPort) : FontPort :=
  { f with
    store := match f.store with
      | .busy op elapsed => .busy op (bump 5000 elapsed)
      | x => x }

/-- One millisecond of every interval on the timebase (log 11). -/
def State.tickTimers (s : State) : State :=
  { s with
    sessionTime := s.sessionTime + 1
    loop := s.loop.tick
    slots := s.slots.map Slot.tick
    lines := s.lines.tick
    font := s.font.tick
    video := { s.video with inputQuiet := bump 100 s.video.inputQuiet }
    voice := { s.voice with quiet := bump 50 s.voice.quiet } }

/-- TIMEBASE_TICK (R86, 00_scope Time): what is overdue ends; session time and every running interval
move on by 1 ms; then the song clock. -/
def execTimebaseTick (s : State) : Answered := .next s.makeOverdue.tickTimers.tickClock

end Sys2Proof.Machine
end

