-- ==== Sys2Proof/Machine/LineCommands.lean ====
section
/-! DEFINITION. The commands and events of the Line Scheduler, and the frame latch (R104 to R122,
R149). -/

namespace Sys2Proof.Machine

/-- SCROLL_COMPLETE: step 2 of the latch that is the scroll's last (R110, log 16). -/
def execScrollComplete (s : State) : Answered :=
  match s.lines.scroll with
  | some sc =>
    if sc.total ≤ sc.done + 1 && !s.lines.rebuild && !s.lines.stepTwoMade then
      .next (s.countScroll.mapLines fun l => { l with stepTwoMade := true })
    else .next s
  | none => .next s

/-- SCORE_SHOW_EXPIRY (R121). -/
def execScoreShowExpiry (s : State) : Answered := .next s.passScoreShow

/-- The effective bands as replies give them (R103). -/
def Layout.bytes (l : Layout) : List Byte := be8 l.titleRows ++ be8 l.rows ++ be16 l.guide

/-- The guide height a setting gives: clamped, then lowered to a multiple of 8 (R104). -/
def guideSettingOf (height : Nat) : Nat := clampNat 0 512 height / 8 * 8

/-- SET-BANDS at the Line Scheduler (R104). -/
def setBandsBlock (titleRows guide : Nat) (s : State) : Taken :=
  let t := s.relayout fun l =>
    { l with titleRowsSetting := clampNat 0 2 titleRows, guideSetting := guideSettingOf guide }
  { state := t, result := okCode (outside 0 2 titleRows || guideSettingOf guide ≠ guide)
    data := be8 t.lines.titleRowsSetting ++ be16 t.lines.guideSetting ++ t.lines.layout.bytes }

/-- SET-BANDS (R104). -/
def execSetBands (p : Port) (titleRows : Byte) (guideHeight : BitVec 16) (s : State) : Answered :=
  clientCommand (.setBands p titleRows guideHeight) s
    (setBandsBlock titleRows.toNat guideHeight.toNat)

/-- SET-STYLE at the Line Scheduler (R115). Refused, its reply carries no values (DESIGN CHOICE,
log 51). -/
def setStyleBlock (style : Byte) (rows : Nat) (s : State) : Taken :=
  match styleOf style with
  | none => refuse s .range
  | some x =>
    let r := clampNat 2 4 rows
    let t := s.relayout fun l => { l with style := x, lyricRows := r }
    { state := if x = s.lines.style && r = s.lines.lyricRows then t else t.requestRebuild
      result := okCode (outside 2 4 rows), data := be8 x.place ++ be8 r }

/-- SET-STYLE (R115). -/
def execSetStyle (p : Port) (style rows : Byte) (s : State) : Answered :=
  clientCommand (.setStyle p style rows) s (setStyleBlock style rows.toNat)

/-- SET-LINE-TIMING at the Line Scheduler (R115). -/
def setLineTimingBlock (lead hold linger scroll : Nat) (s : State) : Taken :=
  let l := s.lines
  let a := clampNat 500 4000 lead
  let b := clampNat 0 2000 hold
  let c := clampNat 0 10000 linger
  let d := clampNat 0 30 scroll
  let t := s.mapLines fun l => { l with lead := a, hold := b, linger := c, scrollTime := d }
  { state := if a = l.lead && b = l.hold && c = l.linger then t else t.requestRebuild
    result := okCode (outside 500 4000 lead || outside 0 2000 hold || outside 0 10000 linger ||
      outside 0 30 scroll)
    data := be16 a ++ be16 b ++ be16 c ++ be8 d }

/-- SET-LINE-TIMING (R115). -/
def execSetLineTiming (p : Port) (lead hold linger : BitVec 16) (scrollTime : Byte) (s : State) :
    Answered :=
  clientCommand (.setLineTiming p lead hold linger scrollTime) s
    (setLineTimingBlock lead.toNat hold.toNat linger.toNat scrollTime.toNat)

/-- SET-LYRIC-COLOURS (R117). -/
def execSetLyricColours (p : Port) (unsung sungA sungB sungBoth : Colour) (s : State) :
    Answered :=
  clientCommand (.setLyricColours p unsung sungA sungB sungBoth) s fun s =>
    readOk (s.mapLines fun l =>
      { l with unsung := unsung, sungA := sungA, sungB := sungB, sungBoth := sungBoth }) []

/-- SET-SCORE-HOLD (R121). -/
def execSetScoreHold (p : Port) (ms : BitVec 16) (s : State) : Answered :=
  clientCommand (.setScoreHold p ms) s fun s =>
    { state := s.mapLines fun l => { l with scoreHold := clampNat 0 10000 ms.toNat }
      result := okCode (outside 0 10000 ms.toNat), data := [] }

/-- The title content's place in NONE, STAGE, NEXT_UP, the order of the chapter's state table; R118's
own table stands in another (DESIGN CHOICE, log 46). -/
def TitleContent.place : TitleContent → Nat
  | .none => 0
  | .stage _ => 1
  | .nextUp _ => 2

/-- The slot the title content comes from (R118). -/
def TitleContent.slot : TitleContent → Option (Fin 4)
  | .none => Option.none
  | .stage i => some i
  | .nextUp i => some i

/-- One line of LINE-WINDOW-READ; the row byte of a LEAVING line is a free value (R122, log 5). -/
def WindowLine.bytes (x : WindowLine) : List Byte :=
  be16 x.index ++ (if x.isLeaving then [Config.leavingRow] else be8 x.row) ++
    be8 x.state.place ++ beBool x.clipped ++ beBool x.linger

/-- The data of LINE-WINDOW-READ (R122). The pending list's front line, absent where the list is
empty, and the title's source slot, absent under NONE, are optional fields (DESIGN CHOICE, log 46). -/
def LineScheduler.readBytes (l : LineScheduler) : List Byte :=
  be8 l.canvas.place ++ be8 l.style.place ++ be8 l.titleRowsSetting ++ be8 l.lyricRows ++
    be16 l.guideSetting ++ l.layout.bytes ++ be16 l.lead ++ be16 l.hold ++ be16 l.linger ++
    be8 l.scrollTime ++ beOption 2 (fun x : Scroll => be8 x.done ++ be8 x.total) l.scroll ++
    beBool l.rebuild ++ be16 l.pending.length ++
    beOption 2 (fun x : PendingLine => be16 x.index) l.pending.head? ++
    be8 l.title.place ++ beOption 1 (fun i : Fin 4 => be8 i.val) l.title.slot ++
    beOption 4 (fun x : ScoreShow => be16 x.headline ++ be16 x.left) l.scoreShow ++
    beList WindowLine.bytes l.window

/-- LINE-WINDOW-READ (R122). -/
def execLineWindowRead (p : Port) (s : State) : Answered :=
  clientCommand (.lineWindowRead p) s fun s => readOk s s.lines.readBytes

/-- FRAME_LATCH (R149). -/
def execFrameLatch (s : State) : Answered := .next s.frameLatch

end Sys2Proof.Machine
end

