-- ==== Sys2Proof/Machine/Display.lean ====
section
/-! DEFINITION. The commands and events of the Compositor (R143 to R153). -/

namespace Sys2Proof.Machine

def State.mapVideo (s : State) (f : Compositor → Compositor) : State :=
  { s with video := f s.video }

/-- INPUT_FRAME_START (R143 to R145). -/
def execInputFrameStart (measure : FrameMeasure) (s : State) : Answered :=
  .next (s.inputFrame measure)

/-- INPUT_LOSS_TIMEOUT (R145). -/
def execInputLossTimeout (s : State) : Answered := .next s.missInput

/-- WAKE at the Compositor (R147). -/
def wakeBlock (s : State) : Taken :=
  let t := (s.mapVideo fun v =>
    { v with power := if v.power = .standby then .waking else v.power }).testWaking
  readOk t (be8 t.video.power.place)

/-- WAKE (R147). -/
def execWake (p : Port) (s : State) : Answered := clientCommand (.wake p) s wakeBlock

/-- GO-STANDBY (R147). -/
def execGoStandby (p : Port) (s : State) : Answered :=
  clientCommand (.goStandby p) s fun s =>
    readOk (s.mapVideo fun v => { v with power := .standby }) []

/-- SET-OVERLAY (R148). -/
def execSetOverlay (p : Port) (switch content invert scope : Byte) (s : State) : Answered :=
  clientCommand (.setOverlay p switch content invert scope) s fun s =>
    match onOff switch, contentOf content, onOff invert, scopeOf scope with
    | some a, some b, some c, some d =>
      readOk (s.mapVideo fun v =>
        { v with switch := a, content := b, invert := c, scope := d }) []
    | _, _, _, _ => refuse s .range

/-- SET-PLANE (R151). -/
def execSetPlane (p : Port) (opacity : Byte) (shade : Colour) (shadeOpacity : Byte)
    (fill : Colour) (s : State) : Answered :=
  clientCommand (.setPlane p opacity shade shadeOpacity fill) s fun s =>
    { state := s.mapVideo fun v =>
        { v with
          planeOpacity := clampNat 0 16 opacity.toNat, shade := shade
          shadeOpacity := clampNat 0 16 shadeOpacity.toNat, fill := fill }
      result := okCode (outside 0 16 opacity.toNat || outside 0 16 shadeOpacity.toNat)
      data := [] }

/-- SET-FMARK (R149). -/
def execSetFmark (p : Port) (value : Byte) (s : State) : Answered :=
  clientCommand (.setFmark p value) s fun s =>
    match onOff value with
    | some x => readOk (s.mapVideo fun v => { v with fmark := x }) []
    | none => refuse s .range

/-- DISPLAY-COUNTERS-CLEAR (R152). -/
def execDisplayCountersClear (p : Port) (s : State) : Answered :=
  clientCommand (.displayCountersClear p) s fun s =>
    readOk (s.mapVideo fun v => { v with glyphLate := 0, postLate := 0, lineClipped := 0 }) []

/-- A set of bands: title in bit 0, lyric in bit 1, guide in bit 2 (R148, R194). -/
def Bands.byte (b : Bands) : Nat := flagByte [b.title, b.lyric, b.guide]

/-- The data of DISPLAY-STATUS (R153). The measurement run's class is an optional field, absent where
the run has no class (DESIGN CHOICE, log 46). -/
def State.displayBytes (s : State) : List Byte :=
  let v := s.video
  be8 v.path.place ++ beOption 1 (fun c : FrameClass => be8 c.place) v.runClass ++
    be8 v.runCount ++ beOption 1 (fun f : Format => be8 f.place) v.locked ++
    be8 v.freeRun.place ++ be8 s.lines.canvas.place ++ s.lines.layout.bytes ++
    be8 v.power.place ++ beBool v.switch ++ be8 v.content.place ++ beBool v.invert ++
    be8 v.scope.place ++ be8 v.planeOpacity ++ beColour v.shade ++ be8 v.shadeOpacity ++
    beColour v.fill ++ beBool v.fmark ++ be8 v.glyphLate ++ be8 v.postLate ++
    be8 v.lineClipped ++ beOption 1 (fun b : Bands => be8 b.byte) v.lastKeyed

/-- DISPLAY-STATUS (R153). -/
def execDisplayStatus (p : Port) (s : State) : Answered :=
  clientCommand (.displayStatus p) s fun s => readOk s s.displayBytes

end Sys2Proof.Machine
end

