-- ==== Sys2Proof/Machine/Font.lean ====
section
/-! DEFINITION. The commands and events of the Glyph Cache and the Font Port (R128 to R141). -/

namespace Sys2Proof.Machine

def State.mapFont (s : State) (f : FontPort → FontPort) : State := { s with font := f s.font }

/-- GLYPH_FETCH_START (R128, R129). -/
def execGlyphFetchStart (s : State) : Answered :=
  match s.fetchToStart with
  | some i => .next (s.startFetch i)
  | none => .next s

/-- GLYPH_FETCH_COMPLETE (R129). -/
def execGlyphFetchComplete (s : State) : Answered :=
  match s.cache.inProgress with
  | some i => .next (s.completeFetch i)
  | none => .next s

/-- Entries in one state, whatever the fetch class. -/
def Cache.countState (c : Cache) (place : Nat) : Nat :=
  c.entries.countP fun e => e.state.place = place

/-- The data of CACHE-STATUS (R133). -/
def Cache.statusBytes (c : Cache) : List Byte :=
  [0, 1, 2, 3].flatMap (fun n => be16 (c.countState n)) ++ be16 (c.countFetching .demand) ++
    be16 (c.countFetching .prefetch) ++ be16 (c.entries.countP fun e => 0 < e.pins) ++
    be16 (c.entries.countP fun e => e.substitute) ++
    beOption 2 beCode (c.inProgress.bind fun i => (c.entry i).code)

/-- CACHE-STATUS (R133). -/
def execCacheStatus (p : Port) (s : State) : Answered :=
  clientCommand (.cacheStatus p) s fun s => readOk s s.cache.statusBytes

/-- The fetch class of an entry, in FETCHING only. -/
def CacheEntry.fetchClass (e : CacheEntry) : Option FetchClass :=
  match e.state with
  | .fetching c => some c
  | _ => none

/-- The data of GLYPH-QUERY for the entry that holds the code (R133). The advance, absent without a
bitmap, and the fetch class, absent outside FETCHING, are optional fields (DESIGN CHOICE, log 46). -/
def Cache.queryBytes (c : Cache) (i : Nat) : List Byte :=
  let e := c.entry i
  be8 e.state.place ++ be16 e.pins ++ beOption 1 (fun b : Bitmap => be8 b.advance) e.bitmap ++
    beBool e.substitute ++ beOption 1 (fun x : FetchClass => be8 x.place) e.fetchClass ++
    be16 ((c.recency.findIdx? (· = i)).getD 0)

/-- GLYPH-QUERY (R133). -/
def execGlyphQuery (p : Port) (code : Code) (s : State) : Answered :=
  clientCommand (.glyphQuery p code) s fun s =>
    match s.cache.find code with
    | some i => readOk s (s.cache.queryBytes i)
    | none => refuse s .notFound

/-- FONT_SCAN_COMPLETE (R134). -/
def execFontScanComplete (s : State) : Answered :=
  match s.font.store with
  | .scanning => .next s.completeScan
  | .ready | .absent | .maintenance | .busy _ _ => .next s

/-- The frame of FONT-MAINT-BEGIN. -/
def maintBeginFrame : Frame := { code := 0x2E, params := [] }

/-- FONT-MAINT-BEGIN at the Font Port, the frame accepted (R136): held back while a fetch is in
progress, the port then staying WAITING; else MAINTENANCE at once (log 22). -/
def State.maintBegin (s : State) (p : Port) : State :=
  match s.font.store with
  | .busy _ _ => s.reply p 0x2E .busy []
  | .scanning | .maintenance => s.reply p 0x2E .state []
  | .ready | .absent =>
    if s.cache.inProgress.isSome then s.mapFont fun f => { f with maintWanted := true }
    else s.enterMaintenance.reply p 0x2E .ok []

/-- FONT-MAINT-BEGIN (R136, R186). -/
def execFontMaintBegin (p : Port) (s : State) : Answered :=
  if (s.port p).admits maintBeginFrame then
    if permitted 0x2E p then .next ((s.accept p maintBeginFrame).maintBegin p)
    else .next ((s.accept p maintBeginFrame).reply p 0x2E .notPermitted [])
  else .next s

/-- MAINTENANCE_ENTRY: the wait of FONT-MAINT-BEGIN is over (R136). -/
def execMaintenanceEntry (s : State) : Answered :=
  if s.font.maintWanted && s.cache.inProgress.isNone then
    .next (s.enterMaintenance.reply .venue 0x2E .ok [])
  else .next s

/-- FONT-WRITE-ENABLE (R137). -/
def execFontWriteEnable (p : Port) (s : State) : Answered :=
  clientCommand (.fontWriteEnable p) s fun s =>
    match s.font.store.refusal with
    | some r => refuse s r
    | none => readOk (s.mapFont fun f => { f with latch := true }) []

/-- FONT-PROTECT (R137). -/
def execFontProtect (p : Port) (level : Byte) (s : State) : Answered :=
  clientCommand (.fontProtect p level) s fun s =>
    match s.font.store, protectionOf level with
    | .busy _ _, _ => refuse s .busy
    | _, none => refuse s .range
    | _, some x => readOk (s.mapFont fun f => { f with protection := x }) []

/-- The latch and the protected range, tested last (R138). -/
def flashBlock (op : FlashOp) (s : State) : Taken :=
  if !s.font.latch then refuse s .notEnabled
  else if s.font.protects op.range.1 op.range.2 then refuse s .protected_
  else readOk (s.startFlash op) []

/-- FONT-PROGRAM at the Font Port (R138). -/
def programBlock (address : Nat) (data : List Byte) (s : State) : Taken :=
  let last := address + data.length - 1
  match s.font.store.refusal with
  | some r => refuse s r
  | none =>
    if outside 1 240 data.length || address / 256 ≠ last / 256 || s.font.addressLimit ≤ last then
      refuse s .range
    else flashBlock (.program address data) s

/-- FONT-PROGRAM (R138). -/
def execFontProgram (p : Port) (address : BitVec 32) (data : List Byte) (s : State) : Answered :=
  clientCommand (.fontProgram p address data) s (programBlock address.toNat data)

/-- FONT-ERASE at the Font Port (R138). -/
def eraseBlock (sector : Nat) (s : State) : Taken :=
  match s.font.store.refusal with
  | some r => refuse s r
  | none =>
    if s.font.addressLimit ≤ sector * 4096 then refuse s .range
    else flashBlock (.erase sector) s

/-- FONT-ERASE (R138). -/
def execFontErase (p : Port) (sector : BitVec 16) (s : State) : Answered :=
  clientCommand (.fontErase p sector) s (eraseBlock sector.toNat)

/-- FLASH_OPERATION_DONE (R139). -/
def execFlashOperationDone (s : State) : Answered :=
  match s.font.store with
  | .busy op _ => .next (s.finishFlash op)
  | .scanning | .ready | .absent | .maintenance => .next s

/-- FLASH_OPERATION_TIMEOUT: 5 s after the start (R139). -/
def execFlashOperationTimeout (s : State) : Answered := .next s.timeOutFlash

/-- FONT-READ at the Font Port (R140). -/
def fontReadBlock (address length : Nat) (s : State) : Taken :=
  match s.font.store.refusal with
  | some r => refuse s r
  | none =>
    if outside 1 240 length || s.font.addressLimit < address + length then refuse s .range
    else readOk s (beList (fun b => [b]) (Memory.bytes s.flash address length))

/-- FONT-READ (R140). -/
def execFontRead (p : Port) (address : BitVec 32) (length : Byte) (s : State) : Answered :=
  clientCommand (.fontRead p address length) s (fontReadBlock address.toNat length.toNat)

/-- The operation in progress as FONT-STATUS gives it: one optional field of the operation, program 0
and erase 1, and the time since it started in 2 bytes, absent outside MAINTENANCE-BUSY (R140; DESIGN
CHOICE, log 46). -/
def StoreState.opBytes : StoreState → List Byte
  | .busy (.program _ _) elapsed => 1 :: be8 0 ++ be16 elapsed
  | .busy (.erase _) elapsed => 1 :: be8 1 ++ be16 elapsed
  | .scanning | .ready | .absent | .maintenance => [0, 0, 0, 0]

/-- The data of FONT-STATUS (R140). The header's values are one optional field, the flash size a byte
that counts MiB (DESIGN CHOICE, log 46). -/
def FontPort.statusBytes (f : FontPort) : List Byte :=
  be8 f.store.place ++
    beOption 7 (fun h : FontHeader => be16 h.glyphCount ++ be32 h.tableBase ++ be8 h.sizeMiB)
      f.header ++
    be8 f.protection.place ++ beBool f.latch ++ beBool f.fault ++ f.store.opBytes

/-- FONT-STATUS (R140). -/
def execFontStatus (p : Port) (s : State) : Answered :=
  clientCommand (.fontStatus p) s fun s => readOk s s.font.statusBytes

/-- FONT-MAINT-END (R141). -/
def execFontMaintEnd (p : Port) (s : State) : Answered :=
  clientCommand (.fontMaintEnd p) s fun s =>
    match s.font.store.refusal with
    | some r => refuse s r
    | none => readOk s.endMaintenance []

end Sys2Proof.Machine
end

