-- ==== Sys2Proof/Machine/Panel.lean ====
section
/-! DEFINITION. The events and commands of the panel loop (R26 to R41). -/

namespace Sys2Proof.Machine

/-- POLL: sent once the line has been quiet for 1 ms; the reply window starts (R26, R28). -/
def execPoll (s : State) : Answered :=
  match s.loop.exchange with
  | .toPoll p =>
    if 1 ≤ s.loop.quiet then
      .next (s.mapLoop fun l =>
        { l with sent := pollFrame p l.panels[p], exchange := .window p l.replyWindow })
    else .next s
  | _ => .next s

/-- REPLY_WINDOW_EXPIRY: a miss without a receive error (R28, R39). -/
def execReplyWindowExpiry (s : State) : Answered := .next s.endWindow

/-- REPLY_BYTE_RECEIVED: a byte that neither spoils nor completes the reply (R29). -/
def execReplyByteReceived (byte : Byte) (s : State) : Answered :=
  match s.loop.exchange.awaited with
  | some (p, bytes) =>
    if replyStatus p (bytes ++ [byte]) = .more then
      .next (s.mapLoop fun l => { l with exchange := .receiving p (bytes ++ [byte]), quiet := 0 })
    else .next s
  | none => .next s

/-- BAD_REPLY: a byte that spoils the reply, by itself or by its framing (R29). -/
def execBadReply (byte : Byte) (framing : Bool) (s : State) : Answered :=
  match s.loop.exchange.awaited with
  | some (p, bytes) =>
    if framing || replyStatus p (bytes ++ [byte]) = .bad then
      .next ((s.spoil p).mapLoop fun l => { l with quiet := 0 })
    else .next s
  | none => .next s

/-- REPLY_BYTE_TIMEOUT: the reply is cut short (R29). -/
def execReplyByteTimeout (s : State) : Answered := .next s.cutReply

/-- BAD_REPLY_QUIET_EXPIRY: the exchange ends as a miss (R29). -/
def execBadReplyQuietExpiry (s : State) : Answered := .next s.endBadReply

/-- STRAY_LOOP_BYTE: a byte when no reply is awaited is discarded; the line is not quiet (R26). -/
def execStrayLoopByte (_byte : Byte) (s : State) : Answered :=
  match s.loop.exchange.awaited with
  | none => .next (s.mapLoop fun l => { l with quiet := 0 })
  | some _ => .next s

/-- IDLE: a good reply that ends the exchange (R30). -/
def execIdle (p : Fin 8) (seq : Byte) (s : State) : Answered :=
  if s.replyDue p (replyFrame p 0x10 seq []) then .next (s.goodReply p).endExchange else .next s

/-- REQUEST (R31, R35). -/
def execRequest (p : Fin 8) (seq : Byte) (song : BitVec 24) (tag : Byte) (s : State) : Answered :=
  if s.replyDue p (replyFrame p 0x11 seq (be24 song.toNat ++ [tag])) then
    .next ((s.goodReply p).adjudicate p (seqOf seq) fun s =>
      s.panelRequest p song.toNat (panelTag tag))
  else .next s

/-- A panel's CANCEL (R32, R35). -/
def execPanelCancel (p : Fin 8) (seq : Byte) (ticket : BitVec 16) (s : State) : Answered :=
  if s.replyDue p (replyFrame p 0x12 seq (be16 ticket.toNat)) then
    .next ((s.goodReply p).adjudicate p (seqOf seq) fun s => s.cancelForPanel p ticket.toNat)
  else .next s

/-- WHERE: answered, and not remembered (R33). -/
def execWhereTicket (p : Fin 8) (seq : Byte) (ticket : BitVec 16) (s : State) : Answered :=
  if s.replyDue p (replyFrame p 0x13 seq (be16 ticket.toNat)) then
    let t := s.goodReply p
    .next (t.mapLoop fun l =>
      { l with exchange := .toAnswer p (seqOf seq) (t.whereIs ticket.toNat) })
  else .next s

/-- VERDICT: sent once the line has been quiet for 1 ms; the exchange ends (R30). -/
def execVerdict (s : State) : Answered :=
  match s.loop.exchange with
  | .toVerdict p seq v =>
    if 1 ≤ s.loop.quiet then
      .next (s.mapLoop fun l =>
        { l with sent := loopFrame (partAddress p) 0x02 (seq.setWidth 8) v.payload }).endExchange
    else .next s
  | _ => .next s

/-- ANSWER: sent once the line has been quiet for 1 ms; the exchange ends (R30). -/
def execAnswer (s : State) : Answered :=
  match s.loop.exchange with
  | .toAnswer p seq a =>
    if 1 ≤ s.loop.quiet then
      .next (s.mapLoop fun l =>
        { l with sent := loopFrame (partAddress p) 0x03 (seq.setWidth 8) a.payload }).endExchange
    else .next s
  | _ => .next s

/-- CYCLE_GAP_EXPIRY: a new cycle begins (R38). -/
def execCycleGapExpiry (s : State) : Answered := .next s.endGap

/-- PANEL-ENABLE (R40). -/
def execPanelEnable (p : Port) (panel enable : Byte) (s : State) : Answered :=
  clientCommand (.panelEnable p panel enable) s fun s =>
    match panelOf panel, onOff enable with
    | some n, some x =>
      readOk (s.mapLoop fun l => l.setPanel n { l.panels[n] with enabled := x }) []
    | _, _ => refuse s .range

/-- PANEL-COUNTERS-CLEAR: one panel, or ALL given as 0xFF (R40). -/
def execPanelCountersClear (p : Port) (panel : Byte) (s : State) : Answered :=
  clientCommand (.panelCountersClear p panel) s fun s =>
    if panel = 0xFF then
      readOk (s.mapLoop fun l =>
        { l with panels := l.panels.map fun x => { x with errors := 0 } }) []
    else match panelOf panel with
      | some n => readOk (s.mapLoop fun l => l.setPanel n { l.panels[n] with errors := 0 }) []
      | none => refuse s .range

/-- SET-LOOP-TIMING (R38). -/
def execSetLoopTiming (p : Port) (window gap : BitVec 16) (s : State) : Answered :=
  clientCommand (.setLoopTiming p window gap) s fun s =>
    { state := s.mapLoop fun l =>
        { l with replyWindow := clampNat 5 100 window.toNat
                 cycleGap := clampNat 10 1000 gap.toNat }
      result := okCode (outside 5 100 window.toNat || outside 10 1000 gap.toNat), data := [] }

/-- One panel record of PANEL-READ (R41). The stored sequence number and verdict are one optional
field, the verdict in the five bytes of a VERDICT's payload (DESIGN CHOICE, log 46). -/
def Panel.bytes (x : Panel) : List Byte :=
  beBool x.enabled ++ be8 x.presence.place ++ be8 x.missRun ++ be8 x.errors ++
    beOption 6 (fun v : BitVec 4 × Verdict => be8 v.1.toNat ++ v.2.payload) x.stored

/-- PANEL-READ (R41). -/
def execPanelRead (p : Port) (s : State) : Answered :=
  clientCommand (.panelRead p) s fun s =>
    readOk s (be8 s.loop.phase.place ++ be8 s.loop.absentPointer.val ++ be16 s.loop.replyWindow ++
      be16 s.loop.cycleGap ++ s.loop.panels.toList.flatMap Panel.bytes)

end Sys2Proof.Machine
end

