-- ==== Sys2Proof/Machine/Ports.lean ====
section
/-! DEFINITION. Port transactions, notices and identity (R186 to R195). -/

namespace Sys2Proof.Machine

def State.mapPort (s : State) (p : Port) (f : PortState → PortState) : State :=
  s.setPort p (f (s.port p))

/-- The frame under way or offered is discarded while RECEIVING (R186). -/
def PortState.discard (q : PortState) : PortState :=
  { q with link := .ready, gathered := [], discarded := true }

/-- What the bytes of a frame gathered so far come to (R186). -/
inductive Gathered where
  | more
  | spoiled
  | whole (f : Frame)
deriving DecidableEq, Repr

/-- A code of 0x00 and a declared length above 250 spoil the frame; it is whole once the declared
bytes have arrived, and what follows them is ignored (R186). -/
def gather : List Byte → Gathered
  | [] => .more
  | [c] => if c = 0 then .spoiled else .more
  | c :: n :: params =>
    if c = 0 || 250 < n.toNat then .spoiled
    else if n.toNat ≤ params.length then .whole { code := c, params := params.take n.toNat }
    else .more

/-- The port's own checks of an accepted frame (R188): NOT_PERMITTED and BAD_LENGTH are answered at
once; a code that names no command stays for UNKNOWN_COMMAND, a command for its block (log 10). -/
def PortState.check (q : PortState) (p : Port) (f : Frame) : PortState :=
  if !namesCommand f.code then q
  else if !permitted f.code p then
    q.answer { code := f.code, result := .notPermitted, data := [] }
  else if !lengthOk f then q.answer { code := f.code, result := .badLength, data := [] }
  else q

/-- Bytes of a write transaction while RECEIVING; `closes` tells that the transaction ends with
them (R186). -/
def PortState.gatherBytes (q : PortState) (p : Port) (bytes : List Byte) (closes : Bool) :
    PortState :=
  let all := q.gathered ++ bytes
  match gather all with
  | .spoiled => q.discard
  | .whole f => (q.accept f).check p f
  | .more => if closes then q.discard else { q with gathered := all }

/-- A write transaction begins to offer its frame (R186). One that begins while RECEIVING leaves the
frame under way to go on (DESIGN CHOICE, log 57). -/
def PortState.offer (q : PortState) (p : Port) (bytes : List Byte) (closes : Bool) : PortState :=
  match q.link with
  | .ready => PortState.gatherBytes { q with link := .receiving, gathered := [] } p bytes closes
  | .receiving | .waiting => { q with discarded := true }

/-- The bytes of a read: the status byte, then the reply or the empty reply mark (R187, R195). -/
def PortState.readBytes (q : PortState) : List Byte :=
  q.status :: (match q.replyWaiting, q.reply with
    | true, some r => r.bytes
    | _, _ => [0])

/-- The end of the read under way, if one is: where it was returning the reply, REPLY_WAITING is
cleared, however much has been returned (R187). -/
def PortState.endRead (q : PortState) : PortState :=
  { q with
    reading := none
    replyWaiting := q.replyWaiting && !q.reading.any (·.clears) }

/-- A read returns some bytes of what it has to return; `closes` tells that it ends with them. Once
the reply has been returned whole, REPLY_WAITING is cleared (R187). Past the end of the reply nothing
more is shifted out (DESIGN CHOICE, log 45). -/
def PortState.returnBytes (q : PortState) (r : ReadUnderWay) (count : Nat) (closes : Bool) :
    PortState :=
  let left := r.rest.drop count
  let ends := closes || left.isEmpty
  { q with
    shifted := q.shifted ++ r.rest.take count
    replyWaiting := q.replyWaiting && !(r.clears && ends)
    reading := if closes then none else some { rest := left, clears := r.clears && !ends } }

/-- A read begins (R187, R195): it is to return the status byte, and then the reply or the empty reply
mark, as they stand now; its first bytes are returned. -/
def PortState.openRead (q : PortState) (count : Nat) (closes : Bool) : PortState :=
  PortState.returnBytes { q with shifted := [] }
    { rest := q.readBytes, clears := q.replyWaiting } count closes

/-- A whole read of some bytes (R187), which ends a read given in pieces (log 10). -/
def PortState.read (q : PortState) (length : Nat) : PortState := q.endRead.openRead length true

/-- The start of an SPI transaction, whose first byte tells its kind and shifts out the status
byte (R187, R195). After that byte a write shifts out nothing more (DESIGN CHOICE, log 45). -/
def PortState.openSpi (q : PortState) (p : Port) (closes : Bool) : List Byte → PortState
  | [] => q
  | kind :: rest =>
    if kind = 0x01 then PortState.offer { q with shifted := [q.status] } p rest closes
    else if kind = 0x02 then q.openRead (rest.length + 1) closes
    else { q with shifted := [q.status], discarded := true }

/-- A piece of a transaction on a port (R186, R195, log 10). A piece that opens one ends the read under
way; a piece that opens none goes on with the read under way, or with the frame being gathered, also
where another transaction has been opened since (DESIGN CHOICE, log 57); else its bytes are ignored. -/
def PortState.write (q : PortState) (p : Port) (opens : Bool) (bytes : List Byte)
    (closes : Bool) : PortState :=
  if opens then
    let q := q.endRead
    match p with
    | .playback | .console => q.openSpi p closes bytes
    | .venue => q.offer p bytes closes
  else match q.reading with
    | some r => q.returnBytes r bytes.length closes
    | none => if q.link = .receiving then q.gatherBytes p bytes closes else q

/-- WRITE_TRANSACTION (R186). -/
def execWriteTransaction (p : Port) (opens : Bool) (bytes : List Byte) (closes : Bool)
    (s : State) : Answered :=
  .next (s.mapPort p fun q => q.write p opens bytes closes)

/-- READ_TRANSACTION (R187). -/
def execReadTransaction (p : Port) (length : Nat) (s : State) : Answered :=
  .next (s.mapPort p fun q => q.read length)

/-- UNKNOWN_COMMAND: the held frame's code names no command (R188). -/
def execUnknownCommand (p : Port) (s : State) : Answered :=
  match (s.port p).link, (s.port p).held with
  | .waiting, some f =>
    if namesCommand f.code then .next s else .next (s.reply p f.code .unknownCommand [])
  | _, _ => .next s

/-- The class NOTICE-TAKE takes (R190). -/
def PortState.topClass (q : PortState) : Option (Fin 16) := classes.find? q.takeable

/-- The byte of class NONE in a NOTICE-TAKE reply (R190, log 29). -/
def noClass : Nat := 16

/-- A class is no longer pending (R190). -/
def PortState.clearClass (q : PortState) (c : Fin 16) : PortState :=
  { q with notices := q.notices.set c.val none c.isLt }

/-- The pending set and the mask set (R190). -/
def PortState.noticeSets (q : PortState) : List Byte := be16 q.pendingSet ++ be16 q.mask.toNat

/-- NOTICE-TAKE at the port unit (R190). -/
def noticeTakeBlock (p : Port) (s : State) : Taken :=
  match (s.port p).topClass with
  | none => readOk s (be8 noClass ++ (s.port p).noticeSets)
  | some c =>
    let q := (s.port p).clearClass c
    readOk (s.setPort p q)
      (be8 c.val ++ (((s.port p).notices[c]).map Notice.summary).getD [] ++ q.noticeSets)

/-- NOTICE-TAKE (R190). -/
def execNoticeTake (p : Port) (s : State) : Answered :=
  clientCommand (.noticeTake p) s (noticeTakeBlock p)

/-- NOTICE-MASK (R191): the reply gives the mask set, then the pending set. -/
def execNoticeMask (p : Port) (mask : BitVec 16) (s : State) : Answered :=
  clientCommand (.noticeMask p mask) s fun s =>
    let t := s.mapPort p fun q => { q with mask := mask }
    readOk t (be16 mask.toNat ++ be16 (t.port p).pendingSet)

/-- IDENT (R193). -/
def execIdent (p : Port) (s : State) : Answered :=
  clientCommand (.ident p) s fun s => readOk s [0x72, 0x40, 1, BitVec.ofNat 8 (Port.place p)]

end Sys2Proof.Machine
end

