-- ==== Sys2Proof/Machine/Resets.lean ====
section
/-! DEFINITION. The two resets (R25, R42, R61, R83, R100, R123, R142, R154, R174, R185, R192,
R193). -/

namespace Sys2Proof.Machine

/-- The flash through a power-on reset: an operation in progress is left as the flash leaves it
(R139, log 2). -/
def State.flashThroughReset (s : State) : List Host.Cell × Nat :=
  match s.font.store with
  | .busy op _ => (op.abandon s.freeCount s.flash, s.freeCount + 1)
  | .scanning | .ready | .absent | .maintenance => (s.flash, s.freeCount)

/-- POWER_ON_RESET: every block in its power-on values; the flash is not part of them (R142), nor
is the queue of commands outside the part (log 35). -/
def execPowerOnReset (s : State) : Answered :=
  .next { State.reset with
    flash := s.flashThroughReset.1, freeCount := s.flashThroughReset.2, pending := s.pending }

/-- The Book after a session reset: policies kept (R25). -/
def Book.sessionReset (b : Book) : Book :=
  { b with
    entries := [], nextTicket := 1, lowest := 9, held := false
    quotaTimes := Vector.replicate 8 [] }

/-- The loop after a session reset: no stored sequence number or verdict (R42). -/
def Loop.forget (l : Loop) : Loop :=
  { l with panels := l.panels.map fun (x : Panel) => { x with stored := none } }

/-- A slot after a session reset (R83): SCRUB, one already there keeping its scrub. -/
def Slot.sessionReset (x : Slot) : Slot :=
  if x.state = .free || x.state = .scrub then x else x.toScrub

/-- A running tone check ends ABORTED with no TONE_DONE (R172, R174); the voice frame under way keeps the
samples of the wave it holds (DESIGN CHOICE, log 56). -/
def Voice.dropTone (v : Voice) : Voice :=
  match v.tone with
  | some t => { v with tone := none, lastTone := some (t.result .aborted) }
  | none => v

/-- Every class of a port cleared (R192). -/
def PortState.clearNotices (q : PortState) : PortState :=
  { q with notices := Vector.replicate 16 none }

/-- The blocks' part of a session reset (R192). The line window and the score show go first, with
the releases of their pins; the title band is chosen anew from the emptied stage and Book
(R123). -/
def State.resetBlocks (s : State) : State :=
  let s := s.emptyWindow.endScoreShow
  let s := { s with
    sessionTime := 0
    book := s.book.sessionReset
    loop := s.loop.forget
    turn := none
    slots := s.slots.map Slot.sessionReset
    clock := s.clock.stop
    voice := s.voice.dropTone.mapChannels Channel.sessionReset
    ring := []
    best := [] }
  (s.mapLines fun l => { l with rebuild := false }).retitle

/-- The port unit's part: every class cleared on all ports, then SESSION_RESET raised (R192). -/
def State.resetNotices (s : State) : State :=
  State.raise
    { s with ports :=
        { playback := s.ports.playback.clearNotices, console := s.ports.console.clearNotices
          venue := s.ports.venue.clearNotices } }
    allPorts .sessionReset

/-- SESSION_RESET (R192). -/
def execSessionReset (p : Port) (s : State) : Answered :=
  clientCommand (.sessionReset p) s fun s => readOk s.resetBlocks.resetNotices []

end Sys2Proof.Machine
end

