-- ==== Sys2Proof/Machine/VoiceCommands.lean ====
section
/-! DEFINITION. The commands and events of the Voice Assessment Unit (R156 to R173). -/

namespace Sys2Proof.Machine

/-- AUDIO_LOSS_TIMEOUT (R159). -/
def execAudioLossTimeout (s : State) : Answered := .next s.missAudio

/-- AUDIO_RESTORED: the first word clock edge in LOST (R159). -/
def execAudioRestored (words : TdmWords) (s : State) : Answered :=
  if s.voice.audio = .lost then .next (s.restoreAudio (TdmWords.samples words)) else .next s

/-- TDM_FRAME: a word clock edge; in LOST it is the first one, which restores the audio (R159,
log 18). -/
def execTdmFrame (words : TdmWords) (s : State) : Answered :=
  match s.voice.audio with
  | .present => .next (s.takeSamples (TdmWords.samples words))
  | .lost => .next (s.restoreAudio (TdmWords.samples words))

/-- VOICE_FRAME_COMPLETE: the 960th sample has arrived (R160). -/
def execVoiceFrameComplete (s : State) : Answered :=
  if s.frameFull then .next s.completeFrame else .next s

/-- Whether the frame under way is the running tone check's last (R171, R172). -/
def State.lastToneFrame (s : State) : Bool :=
  match s.voice.tone with
  | some t => t.made.isSome && Config.toneFrames ≤ t.done + 1
  | none => false

/-- TONE_CHECK_END: the check's 50th frame completes (R172). -/
def execToneCheckEnd (s : State) : Answered :=
  if s.frameFull && s.lastToneFrame then .next s.completeFrame else .next s

/-- A channel enabled during a turn (R156). -/
def Channel.joinLate (c : Channel) : Channel :=
  { c with enabled := true, takingPart := true, flags := { c.flags with lateJoin := true } }

/-- A channel disabled during a turn, its open note tallied (R156). -/
def Channel.leave (c : Channel) : Channel :=
  { c with
    enabled := false, lock := .unlocked, hitRun := 0, missRun := 0
    flags := if c.takingPart then { c.flags with partial_ := true } else c.flags }

/-- SET-MIC-ENABLE at the unit (R156). -/
def State.enableMic (s : State) (m : Fin 4) (x : Bool) : State :=
  let c := s.voice.channels[m]
  if s.turn.isNone || c.enabled = x then s.setChannel m { c with enabled := x }
  else if x then s.setChannel m c.joinLate
  else
    let s := s.tallyOpen m
    s.setChannel m s.voice.channels[m].leave

/-- SET-MIC-ENABLE (R156). -/
def execSetMicEnable (p : Port) (mic value : Byte) (s : State) : Answered :=
  clientCommand (.setMicEnable p mic value) s fun s =>
    match micOf mic, onOff value with
    | some m, some x => readOk (s.enableMic m x) []
    | _, _ => refuse s .range

/-- SET-MIC-COLOUR (R156). -/
def execSetMicColour (p : Port) (mic : Byte) (colour : Colour) (s : State) : Answered :=
  clientCommand (.setMicColour p mic colour) s fun s =>
    match micOf mic with
    | some m => readOk (s.setChannel m { s.voice.channels[m] with colour := colour }) []
    | none => refuse s .range

/-- Notes of a channel's assessed part whose mark for the channel satisfies a test (R157). -/
def State.countMarks (s : State) (m : Fin 4) (p : TallyMark → Bool) : Nat :=
  (s.partNotes m).countP fun n => (s.noteMark m n.2).any p

/-- A change of part during a turn, its four steps (R157). -/
def State.changePart (s : State) (m : Fin 4) (x : Part) : State :=
  let s := s.tallyOpen m
  let s := s.setChannel m { s.voice.channels[m] with part := x }
  let c := s.voice.channels[m]
  let s := s.setChannel m
    { c with
      notes := s.countMarks m (· ≠ .empty), kept := s.countMarks m (· = .kept)
      flags := if c.enabled then { c.flags with partChanged := true } else c.flags }
  if c.enabled then s.flagTurn fun f => { f with partChanged := true } else s

/-- SET-PART (R157). -/
def execSetPart (p : Port) (mic part : Byte) (s : State) : Answered :=
  clientCommand (.setPart p mic part) s fun s =>
    match micOf mic, partOf part with
    | some m, some x =>
      let c := s.voice.channels[m]
      readOk (if s.turn.isNone || c.part = x then s.setChannel m { c with part := x }
        else s.changePart m x) []
    | _, _ => refuse s .range

/-- The tallies at a change of latency compensation during a turn: the open note of a judging
channel, if its end is at or below the new judgement time (R167). -/
def State.tallyAtLatency (s : State) : State :=
  micNumbers.foldl (fun s m =>
    let ended := match s.voice.channels[m].openNote, s.stageTrack with
      | some o, some t =>
        ((t.notes[o.index]?).map fun n =>
          decide (n.stop + s.voice.scoring.latency ≤ s.clock.position)).getD false
      | _, _ => false
    if s.judging m && ended then s.tallyOpen m else s) s

/-- The scoring settings in force, as SET-SCORING and VOICE-READ give them (R158). -/
def Scoring.bytes (g : Scoring) : List Byte :=
  be16 g.gate ++ be8 g.tolerance ++ be16 g.grace ++ be16 g.latency ++ beBool g.folding ++
    be8 g.pitchWeight ++ be8 g.noteWeight ++ be8 g.strayCost

/-- The settings brought into range (R158). -/
def Scoring.clamped (g : Scoring) : Scoring :=
  { gate := clampNat 0 8191 g.gate, tolerance := clampNat 0 24 g.tolerance
    grace := clampNat 0 200 g.grace, latency := clampNat 0 250 g.latency, folding := g.folding
    pitchWeight := clampNat 0 15 g.pitchWeight, noteWeight := clampNat 0 15 g.noteWeight
    strayCost := clampNat 0 20 g.strayCost }

/-- SET-SCORING at the unit (R158). -/
def setScoringBlock (given : Scoring) (s : State) : Taken :=
  let g := given.clamped
  if g.pitchWeight + g.noteWeight = 0 then refuse s .range
  else
    let old := s.voice.scoring.latency
    let t : State := { s with voice := { s.voice with scoring := g } }
    { state := if s.turn.isSome && g.latency ≠ old then t.tallyAtLatency else t
      result := okCode (g ≠ given), data := g.bytes }

/-- SET-SCORING (R158). -/
def execSetScoring (p : Port) (gate : BitVec 16) (tolerance : Byte) (grace latency : BitVec 16)
    (folding pitchWeight noteWeight strayCost : Byte) (s : State) : Answered :=
  clientCommand
    (.setScoring p gate tolerance grace latency folding pitchWeight noteWeight strayCost) s
    fun s =>
      match onOff folding with
      | none => refuse s .range
      | some f =>
        setScoringBlock
          { gate := gate.toNat, tolerance := tolerance.toNat, grace := grace.toNat
            latency := latency.toNat, folding := f, pitchWeight := pitchWeight.toNat
            noteWeight := noteWeight.toNat, strayCost := strayCost.toNat } s

/-- TONE-CHECK at the unit (R171). -/
def toneCheckBlock (mic : Byte) (note : Nat) (s : State) : Taken :=
  match micOf mic with
  | none => refuse s .range
  | some m =>
    if outside 36 96 note then refuse s .range
    else if s.turn.isSome || s.voice.audio = .lost then refuse s .state
    else if s.voice.tone.isSome then refuse s .busy
    else
      let t : ToneCheck := { mic := m, note := note, done := 0, voiced := 0, sum := 0, made := none }
      readOk { s with voice := { s.voice with tone := some t } } []

/-- TONE-CHECK (R171). -/
def execToneCheck (p : Port) (mic note : Byte) (s : State) : Answered :=
  clientCommand (.toneCheck p mic note) s (toneCheckBlock mic note.toNat)

/-- A sung pitch, or 0xFFFF for UNVOICED (12.6). -/
def pitchBytes : Option Int → List Byte
  | some p => beInt16 p
  | none => be16 0xFFFF

/-- The first-miss capture (12.6). -/
def FirstMiss.bytes (x : FirstMiss) : List Byte :=
  be32 x.time ++ beInt16 x.reference ++ pitchBytes x.pitch

/-- One channel record of VOICE-READ (R173). The last voice frame tells UNVOICED by the pitch 0xFFFF,
as 12.6 does for the first miss, with no byte of its own (DESIGN CHOICE, log 46). The open note's index
counts the note records of the track from 0 (DESIGN CHOICE, log 53). -/
def Channel.record (c : Channel) (track : Option Track) : List Byte :=
  beBool c.enabled ++ be8 c.part.place ++ be8 (c.assessed track).place ++ beColour c.colour ++
    beBool c.takingPart ++ be16 c.judged ++ be16 c.hits ++ be16 c.notes ++ be16 c.kept ++
    be16 c.strays ++
    beOption 6 (fun o : OpenNote => be16 o.index ++ be16 o.a ++ be16 o.h) c.openNote ++
    be8 c.lock.place ++ be8 c.hitRun ++ be8 c.missRun ++ be8 c.lockCount ++ be8 c.flags.byte ++
    beBool c.frozen ++ beOption 8 FirstMiss.bytes c.firstMiss ++
    beOption 6 (fun f : VoiceFrame => pitchBytes f.pitch ++ beTime f.at_) c.lastFrame

/-- A running tone check as read (R173). -/
def ToneCheck.bytes (t : ToneCheck) : List Byte :=
  be8 t.mic.val ++ be8 t.note ++ be8 t.done ++ be8 t.voiced

/-- A tone check result as read (R172, R173). -/
def ToneResult.bytes (r : ToneResult) : List Byte :=
  be8 r.mic.val ++ be8 r.note ++ be8 r.voiced ++ beOption 2 be16 r.average ++ be8 r.outcome.place

/-- VOICE-READ (R173). -/
def execVoiceRead (p : Port) (s : State) : Answered :=
  clientCommand (.voiceRead p) s fun s =>
    readOk s (be8 s.voice.audio.place ++ s.voice.scoring.bytes ++
      beOption 4 ToneCheck.bytes s.voice.tone ++ beOption 7 ToneResult.bytes s.voice.lastTone ++
      s.voice.channels.toList.flatMap fun c => c.record s.stageTrack)

end Sys2Proof.Machine
end

