-- ==== Sys2Proof/Machine/Results.lean ====
section
/-! DEFINITION. The commands of the Result Store (R181 to R184). -/

namespace Sys2Proof.Machine

/-- One channel result (12.6): SCORED 0 or UNSCORED 1, an UNSCORED final score sent as 0. -/
def ChannelResult.bytes (r : ChannelResult) : List Byte :=
  be8 r.mic.val ++ be8 r.part.place ++ be8 r.assessed.place ++
    be8 (if r.final.isSome then 0 else 1) ++ be16 r.judged ++ be16 r.hits ++ be16 r.strays ++
    be16 r.notes ++ be16 r.kept ++ be16 (r.final.getD 0) ++ be8 r.lockCount ++
    be8 r.flags.byte ++ beOption 8 FirstMiss.bytes r.firstMiss

/-- A result record as RESULT-READ gives it (12.6), with the ring's length and its age. -/
def ResultRecord.bytes (r : ResultRecord) (held age : Nat) : List Byte :=
  be8 held ++ be8 age ++ be16 r.ticket ++ be24 r.songId ++ be8 r.origin ++ beTag r.tag ++
    be8 r.reason.place ++ be8 r.flags.byte ++ beInt8 r.key ++ beTime r.startedAt ++
    beTime r.endedAt ++ beTime (r.endedAt - r.startedAt) ++ beHeadline r.headline ++
    beBool r.collected ++ beList ChannelResult.bytes r.channels

/-- The record of an age with its age: age 0 is the most recently filed (R181). -/
def recordOfAge (ring : List ResultRecord) (age : Nat) : Option (ResultRecord × Nat) :=
  (ring.reverse[age]?).map fun r => (r, age)

/-- The record of a ticket with its age (R181). -/
def recordOfTicket (ring : List ResultRecord) (ticket : Nat) : Option (ResultRecord × Nat) :=
  if ticket = 0 then none else ring.reverse.zipIdx.find? fun r => r.1.ticket = ticket

/-- RESULT-READ at the Result Store (R181). -/
def resultReadBlock (selector : Byte) (value : Nat) (s : State) : Taken :=
  let answer := fun (x : Option (ResultRecord × Nat)) =>
    match x with
    | some (r, age) => readOk s (r.bytes s.ring.length age)
    | none => refuse s .notFound
  if selector = 0 then answer (recordOfTicket s.ring value)
  else if selector = 1 then
    if 15 < value then refuse s .range else answer (recordOfAge s.ring value)
  else refuse s .range

/-- RESULT-READ (R181). -/
def execResultRead (p : Port) (selector : Byte) (value : BitVec 16) (s : State) : Answered :=
  clientCommand (.resultRead p selector value) s (resultReadBlock selector value.toNat)

/-- RESULT-TAKE at the Result Store (R182). -/
def resultTakeBlock (ticket : Nat) (s : State) : Taken :=
  if ticket ≠ 0 && s.ring.any (fun r => r.ticket = ticket) then
    readOk
      { s with ring := s.ring.map fun (r : ResultRecord) =>
          if r.ticket = ticket then { r with collected := true } else r }
      (be16 ticket)
  else refuse s .notFound

/-- RESULT-TAKE (R182). -/
def execResultTake (p : Port) (ticket : BitVec 16) (s : State) : Answered :=
  clientCommand (.resultTake p ticket) s (resultTakeBlock ticket.toNat)

/-- One entry of BEST-READ (R184). -/
def BestEntry.bytes (x : BestEntry) : List Byte :=
  be16 x.ticket ++ be24 x.songId ++ be8 x.origin ++ beTag x.tag ++ be16 x.headline ++
    beTime x.endedAt

/-- BEST-READ (R184). -/
def execBestRead (p : Port) (s : State) : Answered :=
  clientCommand (.bestRead p) s fun s => readOk s (beList BestEntry.bytes s.best)

/-- BEST-CLEAR (R184). -/
def execBestClear (p : Port) (s : State) : Answered :=
  clientCommand (.bestClear p) s fun s => readOk { s with best := [] } []

end Sys2Proof.Machine
end

