-- ==== Sys2Proof/Machine/Slots.lean ====
section
/-! DEFINITION. The commands and events of the Slot Store (R66 to R82). -/

namespace Sys2Proof.Machine

/-- LOAD-BEGIN at the Slot Store (R68). -/
def loadBeginBlock (slot : Byte) (ticket : Nat) (s : State) : Taken :=
  match slotOf slot with
  | none => refuse s .range
  | some i =>
    let x := s.slots[i]
    if x.state ≠ .reserved || x.ticket ≠ some ticket then refuse s .stale
    else if s.loadingSlot.isSome then refuse s .busy
    else readOk (s.setSlot i { x with state := .loading, bytes := [], timer := 2000 }) []

/-- LOAD-BEGIN (R68). -/
def execLoadBegin (p : Port) (slot : Byte) (ticket : BitVec 16) (s : State) : Answered :=
  clientCommand (.loadBegin p slot ticket) s (loadBeginBlock slot ticket.toNat)

/-- LOAD-DATA at the Slot Store (R69). -/
def loadDataBlock (slot : Byte) (offset : Nat) (data : List Byte) (s : State) : Taken :=
  match slotOf slot with
  | none => refuse s .range
  | some i =>
    let x := s.slots[i]
    let written := x.bytes.length
    if outside 1 240 data.length then refuse s .range
    else if x.state ≠ .loading then refuse s .stale
    else if offset ≠ written then { state := s, result := .order, data := be16 written }
    else if Config.slotBytes < written + data.length then
      refuse (s.faultSlot i .overflow none) .full
    else
      readOk (s.setSlot i { x with bytes := x.bytes ++ data, timer := 2000 })
        (be16 (written + data.length))

/-- LOAD-DATA (R69). -/
def execLoadData (p : Port) (slot : Byte) (offset : BitVec 16) (data : List Byte) (s : State) :
    Answered :=
  clientCommand (.loadData p slot offset data) s (loadDataBlock slot offset.toNat data)

/-- The time of a check in ms (R72). -/
def checkTime (bytesUsed : Nat) : Nat := max 1 (ceilDiv bytesUsed 2048)

/-- LOAD-END at the Slot Store (R71). The reply always carries the fault reason as an optional field,
absent in CHECKING (DESIGN CHOICE, log 46). -/
def loadEndBlock (slot : Byte) (length sum : Nat) (s : State) : Taken :=
  match slotOf slot with
  | none => refuse s .range
  | some i =>
    let x := s.slots[i]
    let ended := fun (r : FaultReason) =>
      readOk (s.faultSlot i r none) (be8 SlotState.fault.place ++ [1] ++ be8 r.place)
    if x.state ≠ .loading then refuse s .stale
    else if length ≠ x.bytes.length then ended .length
    else if sum ≠ byteSum x.bytes then ended .sum
    else
      readOk (s.setSlot i { x with state := .checking, timer := checkTime x.bytes.length })
        (be8 SlotState.checking.place ++ [0, 0])

/-- LOAD-END (R71). -/
def execLoadEnd (p : Port) (slot : Byte) (length sum : BitVec 16) (s : State) : Answered :=
  clientCommand (.loadEnd p slot length sum) s (loadEndBlock slot length.toNat sum.toNat)

/-- STALL_TIMER_EXPIRY (R70). -/
def execStallTimerExpiry (i : Fin 4) (s : State) : Answered := .next (s.endStall i)

/-- CHECK_COMPLETE (R72). -/
def execCheckComplete (i : Fin 4) (s : State) : Answered := .next (s.endCheck i)

/-- SCRUB_COMPLETE (R80). -/
def execScrubComplete (i : Fin 4) (s : State) : Answered := .next (s.endScrub i)

/-- SET-LOOKAHEAD (R66). -/
def execSetLookahead (p : Port) (depth : Byte) (s : State) : Answered :=
  clientCommand (.setLookahead p depth) s fun s =>
    { state := State.pass { s with depth := clampNat 1 3 depth.toNat }
      result := okCode (outside 1 3 depth.toNat), data := [] }

/-- RETRY-STAGE (R79). -/
def execRetryStage (p : Port) (ticket : BitVec 16) (s : State) : Answered :=
  clientCommand (.retryStage p ticket) s fun s =>
    match s.holder ticket.toNat with
    | .stage => refuse s .state
    | .nobody => refuse s .notFound
    | .entry e =>
      match s.boundSlot e.ticket with
      | some i => if s.slots[i].state = .fault then readOk (s.scrubSlot i) [] else refuse s .state
      | none => refuse s .state

/-- The derived values of SLOT-READ (R77, R82). The stated duration takes 4 bytes, and the lowest and the
highest note are an optional field each (DESIGN CHOICE, log 46). -/
def Track.derivedBytes (t : Track) : List Byte :=
  be8 t.partCount ++ be8 t.originalKey ++ be32 t.duration ++ beOption 1 be8 t.lowest ++
    beOption 1 be8 t.highest ++ be16 (t.noteCount .a) ++ be16 (t.noteCount .b) ++
    be16 t.lineCount ++ be32 t.endTime

/-- One slot record of SLOT-READ (R82). The write offset is an optional field, absent outside LOADING;
the derived values are one optional field: one presence byte for all, 20 zero bytes when they are
absent (DESIGN CHOICE, log 46). -/
def Slot.record (x : Slot) : List Byte :=
  be8 x.state.place ++ beOption 2 be16 x.ticket ++ be16 x.bytes.length ++
    beOption 2 be16 (if x.state = .loading then some x.bytes.length else none) ++
    beOption 1 (fun r : FaultReason => be8 r.place) (x.shownFault.map (·.1)) ++
    beOption 2 be16 (x.shownFault.bind (·.2)) ++
    beOption 20 Track.derivedBytes
      (if x.state = .ready || x.state = .onStage then x.track else none)

/-- SLOT-READ (R82). -/
def execSlotRead (p : Port) (s : State) : Answered :=
  clientCommand (.slotRead p) s fun s =>
    readOk s (be8 s.depth ++ beOption 1 (fun i : Fin 4 => be8 i.val) s.loadingSlot ++
      s.slots.toList.flatMap Slot.record)

/-- The data of SLOT-DETAIL (R82). -/
def Track.detailBytes (t : Track) : List Byte :=
  beList beCode t.title ++ beList beCode t.artist ++
    beList (fun x : Nat × Nat => be32 x.1 ++ be32 x.2) t.spans

/-- SLOT-DETAIL (R82). -/
def execSlotDetail (p : Port) (slot : Byte) (s : State) : Answered :=
  clientCommand (.slotDetail p slot) s fun s =>
    match slotOf slot with
    | none => refuse s .range
    | some i =>
      let x := s.slots[i]
      match x.track with
      | some t =>
        if x.state = .ready || x.state = .onStage then readOk s t.detailBytes else refuse s .state
      | none => refuse s .state

end Sys2Proof.Machine
end

