-- ==== Sys2Proof/Machine/Stage.lean ====
section
/-! DEFINITION. The commands of the Turn Controller (R45 to R53). -/

namespace Sys2Proof.Machine

/-- TAKE-TURN at the Turn Controller (R46). A CALLED head always has its READY slot (R20). -/
def takeBlock (s : State) : Taken :=
  if s.turn.isSome then refuse s .state
  else match s.book.calledHead with
    | none => refuse s .noTurn
    | some e =>
      match s.boundSlot e.ticket with
      | none => refuse s .noTurn
      | some i => readOk (s.take e i) (be16 e.ticket ++ be24 e.songId ++ be8 i.val)

/-- TAKE-TURN (R46 to R49). -/
def execTakeTurn (p : Port) (s : State) : Answered := clientCommand (.takeTurn p) s takeBlock

/-- The turn on stage, if it has this ticket (R51, R53); ticket 0 is no turn's. -/
def State.turnOf (s : State) (t : Nat) : Option Turn :=
  match s.turn with
  | some x => if x.ticket = t && t ≠ 0 then some x else none
  | none => none

/-- END-TURN (R51). -/
def execEndTurn (p : Port) (ticket : BitVec 16) (reason : Byte) (s : State) : Answered :=
  clientCommand (.endTurn p ticket reason) s fun s =>
    match endReasonOf reason, s.turnOf ticket.toNat with
    | none, _ => refuse s .range
    | some _, none => refuse s .notOnStage
    | some r, some t => readOk (s.endTurn t r false) (be16 t.ticket)

/-- ABORT-TURN (R53). -/
def execAbortTurn (p : Port) (ticket : BitVec 16) (s : State) : Answered :=
  clientCommand (.abortTurn p ticket) s fun s =>
    match s.turnOf ticket.toNat with
    | none => refuse s .notOnStage
    | some t => readOk (s.endTurn t .aborted true) (be16 t.ticket)

/-- SET-AUTO-END (R52). -/
def execSetAutoEnd (p : Port) (value : Byte) (s : State) : Answered :=
  clientCommand (.setAutoEnd p value) s fun s =>
    match onOff value with
    | some x => readOk { s with autoEnd := x } []
    | none => refuse s .range

/-- The turn record as read (R45). -/
def Turn.bytes (t : Turn) : List Byte :=
  be16 t.ticket ++ be24 t.songId ++ be8 t.slot.val ++ be8 t.origin ++ be8 t.tier.place ++
    beTag t.tag ++ beTime t.startedAt ++ be8 t.flags.byte

/-- STAGE-READ (R45): EMPTY 0 or OCCUPIED 1, auto-end, the turn record or the none mark. -/
def execStageRead (p : Port) (s : State) : Answered :=
  clientCommand (.stageRead p) s fun s =>
    readOk s (be8 (if s.turn.isSome then 1 else 0) ++ beBool s.autoEnd ++
      beOption 15 Turn.bytes s.turn)

end Sys2Proof.Machine
end

