-- ==== Sys2Proof/Machine/Dispatch.lean ====
section
/-! DEFINITION. Dispatch: one arm per command, one direct call of its meaning. -/

namespace Sys2Proof.Machine

def exec (i : Instr) (s : State) : Host.Outcome State Fault Refusal :=
  match i with
  | .powerOnReset => Sys2Proof.Machine.execPowerOnReset s
  | .sessionReset port => Sys2Proof.Machine.execSessionReset port s
  | .writeTransaction port opens bytes closes => Sys2Proof.Machine.execWriteTransaction port opens bytes closes s
  | .readTransaction port length => Sys2Proof.Machine.execReadTransaction port length s
  | .unknownCommand port => Sys2Proof.Machine.execUnknownCommand port s
  | .enqueue port song tier tag => Sys2Proof.Machine.execEnqueue port song tier tag s
  | .cancel port ticket => Sys2Proof.Machine.execCancel port ticket s
  | .move port ticket position => Sys2Proof.Machine.execMove port ticket position s
  | .bookHold port => Sys2Proof.Machine.execBookHold port s
  | .bookRelease port => Sys2Proof.Machine.execBookRelease port s
  | .promote port ticket => Sys2Proof.Machine.execPromote port ticket s
  | .setOrderMode port mode rotateOnTake => Sys2Proof.Machine.execSetOrderMode port mode rotateOnTake s
  | .setRotation port origin => Sys2Proof.Machine.execSetRotation port origin s
  | .setOriginMask port origins => Sys2Proof.Machine.execSetOriginMask port origins s
  | .setCap port origin cap => Sys2Proof.Machine.execSetCap port origin cap s
  | .setQuota port quota window => Sys2Proof.Machine.execSetQuota port quota window s
  | .setDuplicatePolicy port policy => Sys2Proof.Machine.execSetDuplicatePolicy port policy s
  | .bookRead port start count => Sys2Proof.Machine.execBookRead port start count s
  | .bookPolicyRead port => Sys2Proof.Machine.execBookPolicyRead port s
  | .poll => Sys2Proof.Machine.execPoll s
  | .replyWindowExpiry => Sys2Proof.Machine.execReplyWindowExpiry s
  | .badReply byte framing => Sys2Proof.Machine.execBadReply byte framing s
  | .replyByteTimeout => Sys2Proof.Machine.execReplyByteTimeout s
  | .badReplyQuietExpiry => Sys2Proof.Machine.execBadReplyQuietExpiry s
  | .strayLoopByte byte => Sys2Proof.Machine.execStrayLoopByte byte s
  | .idle panel seq => Sys2Proof.Machine.execIdle panel seq s
  | .request panel seq song tag => Sys2Proof.Machine.execRequest panel seq song tag s
  | .panelCancel panel seq ticket => Sys2Proof.Machine.execPanelCancel panel seq ticket s
  | .whereTicket panel seq ticket => Sys2Proof.Machine.execWhereTicket panel seq ticket s
  | .verdict => Sys2Proof.Machine.execVerdict s
  | .answer => Sys2Proof.Machine.execAnswer s
  | .cycleGapExpiry => Sys2Proof.Machine.execCycleGapExpiry s
  | .panelEnable port panel enable => Sys2Proof.Machine.execPanelEnable port panel enable s
  | .panelCountersClear port panel => Sys2Proof.Machine.execPanelCountersClear port panel s
  | .setLoopTiming port window gap => Sys2Proof.Machine.execSetLoopTiming port window gap s
  | .panelRead port => Sys2Proof.Machine.execPanelRead port s
  | .takeTurn port => Sys2Proof.Machine.execTakeTurn port s
  | .endTurn port ticket reason => Sys2Proof.Machine.execEndTurn port ticket reason s
  | .abortTurn port ticket => Sys2Proof.Machine.execAbortTurn port ticket s
  | .setAutoEnd port value => Sys2Proof.Machine.execSetAutoEnd port value s
  | .stageRead port => Sys2Proof.Machine.execStageRead port s
  | .loadBegin port slot ticket => Sys2Proof.Machine.execLoadBegin port slot ticket s
  | .loadData port slot offset data => Sys2Proof.Machine.execLoadData port slot offset data s
  | .loadEnd port slot length sum => Sys2Proof.Machine.execLoadEnd port slot length sum s
  | .stallTimerExpiry slot => Sys2Proof.Machine.execStallTimerExpiry slot s
  | .checkComplete slot => Sys2Proof.Machine.execCheckComplete slot s
  | .scrubComplete slot => Sys2Proof.Machine.execScrubComplete slot s
  | .setLookahead port depth => Sys2Proof.Machine.execSetLookahead port depth s
  | .retryStage port ticket => Sys2Proof.Machine.execRetryStage port ticket s
  | .slotRead port => Sys2Proof.Machine.execSlotRead port s
  | .slotDetail port slot => Sys2Proof.Machine.execSlotDetail port slot s
  | .play port => Sys2Proof.Machine.execPlay port s
  | .pause port => Sys2Proof.Machine.execPause port s
  | .resume port => Sys2Proof.Machine.execResume port s
  | .seek port position => Sys2Proof.Machine.execSeek port position s
  | .sync port position => Sys2Proof.Machine.execSync port position s
  | .setTempo port tempo => Sys2Proof.Machine.execSetTempo port tempo s
  | .setSlipWindow port window => Sys2Proof.Machine.execSetSlipWindow port window s
  | .setKey port semitones => Sys2Proof.Machine.execSetKey port semitones s
  | .clockRead port => Sys2Proof.Machine.execClockRead port s
  | .timebaseTick => Sys2Proof.Machine.execTimebaseTick s
  | .scrollComplete => Sys2Proof.Machine.execScrollComplete s
  | .scoreShowExpiry => Sys2Proof.Machine.execScoreShowExpiry s
  | .setBands port titleRows guideHeight => Sys2Proof.Machine.execSetBands port titleRows guideHeight s
  | .setStyle port style rows => Sys2Proof.Machine.execSetStyle port style rows s
  | .setLineTiming port lead hold linger scrollTime => Sys2Proof.Machine.execSetLineTiming port lead hold linger scrollTime s
  | .setLyricColours port unsung sungA sungB sungBoth => Sys2Proof.Machine.execSetLyricColours port unsung sungA sungB sungBoth s
  | .setScoreHold port ms => Sys2Proof.Machine.execSetScoreHold port ms s
  | .lineWindowRead port => Sys2Proof.Machine.execLineWindowRead port s
  | .frameLatch => Sys2Proof.Machine.execFrameLatch s
  | .glyphFetchStart => Sys2Proof.Machine.execGlyphFetchStart s
  | .glyphFetchComplete => Sys2Proof.Machine.execGlyphFetchComplete s
  | .cacheStatus port => Sys2Proof.Machine.execCacheStatus port s
  | .glyphQuery port code => Sys2Proof.Machine.execGlyphQuery port code s
  | .fontScanComplete => Sys2Proof.Machine.execFontScanComplete s
  | .fontMaintBegin port => Sys2Proof.Machine.execFontMaintBegin port s
  | .maintenanceEntry => Sys2Proof.Machine.execMaintenanceEntry s
  | .fontWriteEnable port => Sys2Proof.Machine.execFontWriteEnable port s
  | .fontProtect port level => Sys2Proof.Machine.execFontProtect port level s
  | .fontProgram port address data => Sys2Proof.Machine.execFontProgram port address data s
  | .fontErase port sector => Sys2Proof.Machine.execFontErase port sector s
  | .flashOperationDone => Sys2Proof.Machine.execFlashOperationDone s
  | .flashOperationTimeout => Sys2Proof.Machine.execFlashOperationTimeout s
  | .fontRead port address length => Sys2Proof.Machine.execFontRead port address length s
  | .fontStatus port => Sys2Proof.Machine.execFontStatus port s
  | .fontMaintEnd port => Sys2Proof.Machine.execFontMaintEnd port s
  | .inputFrameStart measure => Sys2Proof.Machine.execInputFrameStart measure s
  | .inputLossTimeout => Sys2Proof.Machine.execInputLossTimeout s
  | .wake port => Sys2Proof.Machine.execWake port s
  | .goStandby port => Sys2Proof.Machine.execGoStandby port s
  | .setOverlay port switch content invert scope => Sys2Proof.Machine.execSetOverlay port switch content invert scope s
  | .setPlane port opacity shade shadeOpacity fill => Sys2Proof.Machine.execSetPlane port opacity shade shadeOpacity fill s
  | .setFmark port value => Sys2Proof.Machine.execSetFmark port value s
  | .displayCountersClear port => Sys2Proof.Machine.execDisplayCountersClear port s
  | .displayStatus port => Sys2Proof.Machine.execDisplayStatus port s
  | .audioLossTimeout => Sys2Proof.Machine.execAudioLossTimeout s
  | .audioRestored words => Sys2Proof.Machine.execAudioRestored words s
  | .voiceFrameComplete => Sys2Proof.Machine.execVoiceFrameComplete s
  | .toneCheckEnd => Sys2Proof.Machine.execToneCheckEnd s
  | .setMicEnable port mic value => Sys2Proof.Machine.execSetMicEnable port mic value s
  | .setMicColour port mic colour => Sys2Proof.Machine.execSetMicColour port mic colour s
  | .setPart port mic part => Sys2Proof.Machine.execSetPart port mic part s
  | .setScoring port gate tolerance grace latency folding pitchWeight noteWeight strayCost => Sys2Proof.Machine.execSetScoring port gate tolerance grace latency folding pitchWeight noteWeight strayCost s
  | .toneCheck port mic note => Sys2Proof.Machine.execToneCheck port mic note s
  | .voiceRead port => Sys2Proof.Machine.execVoiceRead port s
  | .resultRead port selector value => Sys2Proof.Machine.execResultRead port selector value s
  | .resultTake port ticket => Sys2Proof.Machine.execResultTake port ticket s
  | .bestRead port => Sys2Proof.Machine.execBestRead port s
  | .bestClear port => Sys2Proof.Machine.execBestClear port s
  | .noticeTake port => Sys2Proof.Machine.execNoticeTake port s
  | .noticeMask port mask => Sys2Proof.Machine.execNoticeMask port mask s
  | .ident port => Sys2Proof.Machine.execIdent port s
  | .replyByteReceived byte => Sys2Proof.Machine.execReplyByteReceived byte s
  | .tdmFrame words => Sys2Proof.Machine.execTdmFrame words s

end Sys2Proof.Machine
end

