-- ==== Sys2Proof/Safety.lean ====
section
/-! DEFINITION. The terms claims use: the pieces of the state and what a run leaves of them alone,
the answer on a port, tracks as lists of records, a safe run, and the invariants the spec states of
the whole part. -/

namespace Sys2Proof.Machine

/-! ## Pieces of the state -/

/-- One piece for each field of `State`, the ports being two: their notices (pending classes and
summaries), and their links (everything else they hold). -/
inductive Piece where
  | sessionTime | book | loop | turn | autoEnd | slots | depth | clock | lines | cache | font
  | flash | video | voice | ring | best | links | notices | freeCount | pending
deriving DecidableEq, Repr

/-- The two states agree in a piece. -/
def Piece.same (s t : State) : Piece → Prop
  | .sessionTime => t.sessionTime = s.sessionTime
  | .book => t.book = s.book
  | .loop => t.loop = s.loop
  | .turn => t.turn = s.turn
  | .autoEnd => t.autoEnd = s.autoEnd
  | .slots => t.slots = s.slots
  | .depth => t.depth = s.depth
  | .clock => t.clock = s.clock
  | .lines => t.lines = s.lines
  | .cache => t.cache = s.cache
  | .font => t.font = s.font
  | .flash => t.flash = s.flash
  | .video => t.video = s.video
  | .voice => t.voice = s.voice
  | .ring => t.ring = s.ring
  | .best => t.best = s.best
  | .links => ∀ q, { t.port q with notices := (s.port q).notices } = s.port q
  | .notices => ∀ q, (t.port q).notices = (s.port q).notices
  | .freeCount => t.freeCount = s.freeCount
  | .pending => t.pending = s.pending

/-- From `s` to `t` nothing changes but the pieces named. -/
def Touches (ks : List Piece) (s t : State) : Prop := ∀ k, k ∉ ks → k.same s t

/-! ## The answer on a port -/

/-- The port may take the command now (log 9) and the command is permitted on it (R186, R188). -/
def State.canTake (s : State) (i : Instr) : Bool :=
  match frameOf i with
  | some (p, f) => (s.port p).admits f && permitted f.code p
  | none => false

/-- Port `p` of `t` holds a reply, unread, and is READY, its mask set, the bytes it last shifted out
(log 58) and the read under way being those of `s`; no other port has changed but in its notices
(R186). -/
def Answers (p : Port) (code : Byte) (result : ResultCode) (data : List Byte) (s t : State) :
    Prop :=
  ((t.port p).link = .ready ∧ (t.port p).held = none ∧ (t.port p).replyWaiting = true ∧
    (t.port p).reply = some { code := code, result := result, data := data } ∧
    (t.port p).mask = (s.port p).mask ∧ (t.port p).shifted = (s.port p).shifted ∧
    (t.port p).reading = (s.port p).reading) ∧
  ∀ q, q ≠ p → t.port q = { s.port q with notices := (t.port q).notices }

/-- A client command runs to a next state that answers on its port with this result code and
data, and touches only the pieces named beside the ports' links. -/
def Runs (i : Instr) (ks : List Piece) (result : ResultCode) (data : List Byte) (s t : State) :
    Prop :=
  exec i s = .next t ∧ Touches (.links :: ks) s t ∧
    ∃ p f, frameOf i = some (p, f) ∧ Answers p f.code result data s t

/-- A command is permitted on these ports and no other (11.2). -/
def PermittedOn (code : Byte) (ps : List Port) : Prop := ∀ p, permitted code p = true ↔ p ∈ ps

/-- A class is pending on a port with this summary (R189). -/
def State.shows (s : State) (p : Port) (n : Notice) : Prop :=
  (s.port p).notices[n.cls] = some n

/-- The running order but for the entries' states, which calling sets. -/
def Book.order (b : Book) : List Entry := b.entries.map fun e => { e with state := .waiting }

/-- Whether a request meets the condition of a refusal reason (the table of R10). -/
def State.meets (s : State) (who : Requester) (song : Nat) (tier : Tier) : RefusalReason → Prop
  | .masked => s.book.masked.getLsb who.origin = true
  | .badSong => song = 0
  | .duplicate => s.book.noDuplicates = true ∧ ∃ e ∈ s.book.entries, e.songId = song
  | .quota => ∃ p, who = .panel p ∧ s.book.quota ≤ (s.book.quotaTimes[p].filter fun x =>
      (s.sessionTime - x).toNat < s.book.quotaWindow * 1000).length
  | .cap => tier = .normal ∧ s.book.caps[who.origin] ≤ (s.book.entries.filter fun e =>
      e.origin = who.origin.val && e.tier = .normal).length
  | .limit => tier = .priority ∧ 4 ≤ (s.book.entries.filter fun e => e.tier = .priority).length
  | .full => 32 ≤ s.book.entries.length

/-! ## Intervals -/

/-- Commands run one after another, each to its next state. -/
def Ran : List Instr → State → State → Prop
  | [], s, t => t = s
  | i :: rest, s, t => ∃ u, exec i s = .next u ∧ Ran rest u t

/-- The rows that end an interval, in the order in which a tick makes those that are overdue
(log 11). -/
def intervalRows : List Instr :=
  [.replyWindowExpiry, .replyByteTimeout, .badReplyQuietExpiry, .cycleGapExpiry] ++
    slotNumbers.map .stallTimerExpiry ++ slotNumbers.map .checkComplete ++
    slotNumbers.map .scrubComplete ++
    [.scoreShowExpiry, .flashOperationTimeout, .inputLossTimeout, .audioLossTimeout]

/-- No interval has run out: none of those rows has anything to do. -/
def State.upToDate (s : State) : Prop :=
  (∀ p, s.loop.exchange ≠ .window p 0) ∧
    (∀ p bytes, s.loop.exchange = .receiving p bytes ∨ s.loop.exchange = .ignoring p →
      s.loop.quiet < 3) ∧
    (s.loop.phase = .gap → s.loop.gapLeft ≠ 0) ∧
    (∀ i : Fin 4, s.slots[i].state = .loading ∨ s.slots[i].state = .checking ∨
      s.slots[i].state = .scrub → s.slots[i].timer ≠ 0) ∧
    (∀ x, s.lines.scoreShow = some x → x.left ≠ 0) ∧
    (∀ op n, s.font.store = .busy op n → n < 5000) ∧
    (s.video.path ≠ .noInput → s.video.inputQuiet < 100) ∧
    (s.voice.audio = .present → s.voice.quiet < 50)

/-! ## Tracks as records (4.4, 12.4) -/

/-- A record of a track; the kinds of a mark are 0 INTERLUDE_START, 1 INTERLUDE_END, 2 END. -/
inductive TrackRecord where
  | line (l : Line)
  | note (n : Note)
  | mark (kind time : Nat)
deriving DecidableEq, Repr

/-- A part tag's byte. -/
def PartTag.byte : PartTag → Byte
  | .a => 0
  | .b => 1
  | .both => 2

def Syllable.bytes (z : Syllable) : List Byte :=
  be32 z.start ++ be16 z.duration ++ be8 z.glyphs.length ++ z.glyphs.flatMap beCode

def TrackRecord.bytes : TrackRecord → List Byte
  | .line l => [1, l.tag.byte] ++ be8 l.syllables.length ++ l.syllables.flatMap Syllable.bytes
  | .note n => 2 :: (be32 n.start ++ be16 n.duration ++ be8 n.number ++ [n.tag.byte])
  | .mark kind time => 3 :: (be8 kind ++ be32 time)

/-- A syllable's values fit their fields, and its glyph count is in its limits. -/
def Syllable.fits (z : Syllable) : Prop :=
  z.start < 2 ^ 32 ∧ z.duration < 2 ^ 16 ∧ 1 ≤ z.glyphs.length ∧ z.glyphs.length ≤ 6

/-- A record's values fit their fields, and its counts and mark kind are in their limits. -/
def TrackRecord.fits : TrackRecord → Prop
  | .line l => 1 ≤ l.syllables.length ∧ l.syllables.length ≤ 16 ∧ ∀ z ∈ l.syllables, z.fits
  | .note n => n.start < 2 ^ 32 ∧ n.duration < 2 ^ 16 ∧ n.number < 2 ^ 8
  | .mark kind time => kind ≤ 2 ∧ time < 2 ^ 32

/-- The header of a track for a song. -/
def Header.bytes (song : Nat) (h : Header) : List Byte :=
  [0x55, 0x46, 0x54, 0x4B, 1] ++ be8 h.partCount ++ be24 song ++ be32 h.duration ++
    be8 h.originalKey ++ be16 h.lineCount ++ be16 h.noteCount ++ be8 h.markCount ++
    be8 h.title.length ++ be8 h.artist.length ++ h.title.flatMap beCode ++ h.artist.flatMap beCode

/-- The header's values pass the tests of R73. -/
def Header.fits (h : Header) : Prop :=
  (h.partCount = 1 ∨ h.partCount = 2) ∧ h.duration ≤ 3599999 ∧ 36 ≤ h.originalKey ∧
    h.originalKey ≤ 96 ∧ h.lineCount ≤ 512 ∧ h.noteCount ≤ 2048 ∧ h.markCount ≤ 64 ∧
    h.title.length ≤ 40 ∧ h.artist.length ≤ 40

def Header.recordCount (h : Header) : Nat := h.lineCount + h.noteCount + h.markCount

/-- The lines, notes and marks among a list of records; a mark with its record index, from 1. -/
def linesOf (rs : List TrackRecord) : List Line :=
  rs.filterMap fun r => match r with
    | .line l => some l
    | .note _ | .mark _ _ => none

def notesOf (rs : List TrackRecord) : List Note :=
  rs.filterMap fun r => match r with
    | .note n => some n
    | .line _ | .mark _ _ => none

def marksOf (rs : List TrackRecord) : List MarkRecord :=
  rs.zipIdx.filterMap fun r => match r.1 with
    | .mark kind time => some { index := r.2 + 1, kind := kind, time := time }
    | .line _ | .note _ => none

/-- Two notes have a part in common (R75). -/
def Note.sharesPart (m n : Note) : Prop := m.tag = .both ∨ n.tag = .both ∨ m.tag = n.tag

/-- A record that lies whole within the bytes fails with this reason after those read before it:
RANGE, ORDER or OVERLAP (R74, R75). LIMIT is met while its counts are read. -/
def TrackRecord.fails (h : Header) (before : List TrackRecord) : TrackRecord → FaultReason → Prop
  | .line l, reason =>
    let range := h.lineCount ≤ (linesOf before).length ∨ (l.tag = .b ∧ h.partCount = 1) ∨
      (∃ z ∈ l.syllables, 3599999 < z.start + z.duration) ∨
      ¬ l.syllables.Pairwise fun x y => x.start + x.duration ≤ y.start
    let order := ∃ p, (linesOf before).getLast? = some p ∧ l.start < p.start
    (reason = .range ∧ range) ∨ (reason = .order ∧ ¬ range ∧ order)
  | .note n, reason =>
    let range := h.noteCount ≤ (notesOf before).length ∨ (n.tag = .b ∧ h.partCount = 1) ∨
      n.number < 36 ∨ 96 < n.number ∨ n.duration = 0 ∨ 3599999 < n.start + n.duration
    let order := ∃ p, (notesOf before).getLast? = some p ∧ n.start < p.start
    let overlap := ∃ p ∈ notesOf before, p.sharesPart n ∧ n.start < p.start + p.duration
    (reason = .range ∧ range) ∨ (reason = .order ∧ ¬ range ∧ order) ∨
      (reason = .overlap ∧ ¬ range ∧ ¬ order ∧ overlap)
  | .mark _ time, reason =>
    let range := h.markCount ≤ (marksOf before).length ∨ 3599999 < time
    let order := ∃ p, (marksOf before).getLast? = some p ∧ time < p.time
    (reason = .range ∧ range) ∨ (reason = .order ∧ ¬ range ∧ order)

/-- Every record passes, each after those before it. -/
def recordsPass (h : Header) (rs : List TrackRecord) : Prop :=
  ∀ ahead r behind, rs = ahead ++ r :: behind → ∀ reason, ¬ r.fails h ahead reason

/-- The header leaves room for one more record of a kind. -/
def roomFor (h : Header) (before : List TrackRecord) : TrackRecord → Prop
  | .line _ => (linesOf before).length < h.lineCount
  | .note _ => (notesOf before).length < h.noteCount
  | .mark _ _ => (marksOf before).length < h.markCount

/-- The bytes where the next record should stand spoil it as it is read (R74, R196): they end
within it, its kind is none of the three or has had all its records, a part tag or mark kind is none
of the three, or a syllable or glyph count is 0 or above its limit. -/
inductive BadRecord (h : Header) (before : List TrackRecord) : List Byte → FaultReason → Prop where
  | ended : BadRecord h before [] .truncated
  | cut (r : TrackRecord) (bs rest : List Byte) : roomFor h before r → r.fits →
      r.bytes = bs ++ rest → rest ≠ [] → BadRecord h before bs .truncated
  | kind (k : Byte) (bs : List Byte) : k ≠ 1 → k ≠ 2 → k ≠ 3 → BadRecord h before (k :: bs) .range
  | full (r : TrackRecord) (k : Byte) (bs : List Byte) : ¬ roomFor h before r →
      r.bytes.head? = some k → BadRecord h before (k :: bs) .range
  | lineTag (tag : Byte) (bs : List Byte) : (linesOf before).length < h.lineCount →
      2 < tag.toNat → BadRecord h before (1 :: tag :: bs) .range
  | syllableCount (tag n : Byte) (bs : List Byte) (reason : FaultReason) :
      (linesOf before).length < h.lineCount → tag.toNat ≤ 2 →
      (n = 0 ∧ reason = .range) ∨ (16 < n.toNat ∧ reason = .limit) →
      BadRecord h before (1 :: tag :: n :: bs) reason
  | glyphCount (tag n g : Byte) (zs : List Syllable) (start duration : Nat) (bs : List Byte)
      (reason : FaultReason) :
      (linesOf before).length < h.lineCount → tag.toNat ≤ 2 → zs.length < n.toNat →
      n.toNat ≤ 16 → (∀ z ∈ zs, z.fits) → start < 2 ^ 32 → duration < 2 ^ 16 →
      (g = 0 ∧ reason = .range) ∨ (6 < g.toNat ∧ reason = .limit) →
      BadRecord h before
        ([1, tag, n] ++ zs.flatMap Syllable.bytes ++ be32 start ++ be16 duration ++ g :: bs) reason
  | noteTag (n : Note) (tag : Byte) (bs : List Byte) :
      (notesOf before).length < h.noteCount → 2 < tag.toNat →
      BadRecord h before
        (2 :: (be32 n.start ++ be16 n.duration ++ be8 n.number ++ tag :: bs)) .range
  | markKind (kind : Byte) (bs : List Byte) : (marksOf before).length < h.markCount →
      2 < kind.toNat → BadRecord h before (3 :: kind :: bs) .range

/-! ## A safe run -/

/-- Every step of the part answers a next state: no run of the part stops. -/
def State.runsOn (s : State) : Prop := ∃ t, step s = .next t

/-! ## Invariants -/

/-- The flash is in its canonical form. -/
def State.flashCanonical (s : State) : Prop := Memory.wf s.flash = true

/-- R2: at most 32 entries, no ticket held twice, by two entries or by an entry and the stage, and
tickets and the counter in 1 to 65,535. -/
def State.ticketsDistinct (s : State) : Prop :=
  s.book.entries.length ≤ Config.bookSize ∧ (s.book.entries.map (·.ticket)).Nodup ∧
    (∀ e ∈ s.book.entries, s.onStage e.ticket = false) ∧
    (∀ e ∈ s.book.entries, 1 ≤ e.ticket ∧ e.ticket ≤ 65535) ∧
    1 ≤ s.book.nextTicket ∧ s.book.nextTicket ≤ 65535

/-- R84 to R87, R91, R93, R94, R96, R97: the clock is STOPPED, at position 0, exactly while the stage is
EMPTY, its values are in range, and the interlude state is INSIDE exactly within a span. -/
def State.clockAgrees (s : State) : Prop :=
  (s.clock.state = .stopped ↔ s.turn = none) ∧
    (s.clock.state = .stopped → s.clock.position = 0) ∧
    s.clock.position ≤ Config.songLimit ∧ s.clock.accumulator < 1000 ∧
    750 ≤ s.clock.tempo ∧ s.clock.tempo ≤ 1250 ∧ -7 ≤ s.clock.key ∧ s.clock.key ≤ 7 ∧
    s.clock.slipWindow ≤ 200 ∧
    (∀ d ∈ s.clock.lastSync, -3599999 ≤ d ∧ d ≤ 3599999) ∧
    (s.clock.interlude = .inside ↔
      ∃ x ∈ s.clock.spans, x.1 ≤ s.clock.position ∧ s.clock.position < x.2)

/-- R180, R183: the ring holds at most 16 records of distinct tickets; the best list at most 5
entries of distinct tickets, in descending order of headline. -/
def State.resultsBounded (s : State) : Prop :=
  s.ring.length ≤ Config.ringSize ∧ (s.ring.map (·.ticket)).Nodup ∧
    s.best.length ≤ Config.bestSize ∧ (s.best.map (·.ticket)).Nodup ∧
    s.best.Pairwise (fun a b => b.headline ≤ a.headline)

/-- R3, R20, R43, R63, R66, R68: with the tickets distinct and the depth in 1 to 3, a slot is bound
exactly while it is neither FREE nor in SCRUB, to one ticket of the Book or the stage, each bound
once; ON_STAGE is exactly the turn's slot, bound to the turn's ticket; at most one slot is in
LOADING; a CALLED entry is the head, the stage EMPTY, the Book not held and its slot READY. -/
def State.roomAgrees (s : State) : Prop :=
  s.ticketsDistinct ∧ 1 ≤ s.depth ∧ s.depth ≤ 3 ∧
    (∀ i : Fin 4, s.slots[i].ticket = none ↔
      s.slots[i].state = .free ∨ s.slots[i].state = .scrub) ∧
    (∀ (i j : Fin 4) (n : Nat), s.slots[i].ticket = some n → s.slots[j].ticket = some n → i = j) ∧
    (∀ (i : Fin 4) (n : Nat), s.slots[i].ticket = some n →
      (∃ e ∈ s.book.entries, e.ticket = n) ∨ s.onStage n = true) ∧
    (∀ i : Fin 4, s.slots[i].state = .onStage → ∃ t, s.turn = some t ∧ t.slot = i) ∧
    (∀ t, s.turn = some t →
      s.slots[t.slot].state = .onStage ∧ s.slots[t.slot].ticket = some t.ticket) ∧
    (∀ i j : Fin 4, s.slots[i].state = .loading → s.slots[j].state = .loading → i = j) ∧
    ∀ (k : Nat) (e : Entry), s.book.entries[k]? = some e → e.state = .called →
      k = 0 ∧ s.turn = none ∧ s.book.held = false ∧
        ∃ i : Fin 4, s.slots[i].ticket = some e.ticket ∧ s.slots[i].state = .ready

/-- R118: the title band's content is that which the stage and the Book call for, and its rows show
the title and artist of that content's slot, as many as there are effective title rows. -/
def State.titleAgrees (s : State) : Prop :=
  (∀ t, s.turn = some t → s.lines.title = .stage t.slot) ∧
    (s.turn = none → ∀ e, s.book.entries.head? = some e → ∀ i : Fin 4,
      s.slots[i].ticket = some e.ticket → s.slots[i].state = .ready →
      s.lines.title = .nextUp i) ∧
    (s.turn = none → (∀ e, s.book.entries.head? = some e → ∀ i : Fin 4,
      s.slots[i].ticket = some e.ticket → s.slots[i].state ≠ .ready) → s.lines.title = .none) ∧
    (s.lines.title = .none → s.lines.titleRows = []) ∧
    ∀ i : Fin 4, s.lines.title = .stage i ∨ s.lines.title = .nextUp i →
      s.lines.titleRows = ((s.slots[i].track.map fun t => [t.title, t.artist]).getD []).take
        s.lines.layout.titleRows

/-- R124, R126 to R128: 640 entries, each code held once, an entry FREE exactly without a code, then
with no bitmap and no pins, RESIDENT and STALE ones with a bitmap; the recency order names each entry
not FREE once, the order of fetches each FETCHING one once; the fetch in progress is one of these, the
store READY; at most 64 are in class PREFETCH. -/
def State.cacheAgrees (s : State) : Prop :=
  let c := s.cache
  c.entries.length = 640 ∧
    (∀ i j k, i < 640 → j < 640 → (c.entry i).code = some k → (c.entry j).code = some k → i = j) ∧
    (∀ e ∈ c.entries, (e.state = .free ↔ e.code = none) ∧
      (e.state = .free → e.bitmap = none ∧ e.pins = 0) ∧
      (e.state = .resident ∨ e.state = .stale → e.bitmap ≠ none)) ∧
    c.recency.Nodup ∧ (∀ i, i ∈ c.recency ↔ i < 640 ∧ (c.entry i).state ≠ .free) ∧
    c.fetchOrder.Nodup ∧ (∀ i, i ∈ c.fetchOrder ↔ i < 640 ∧ (c.entry i).isFetching = true) ∧
    (∀ i, c.inProgress = some i →
      i < 640 ∧ (c.entry i).isFetching = true ∧ s.font.store = .ready) ∧
    (c.entries.filter fun e => e.state = .fetching .prefetch).length ≤ 64

/-- R164, R166, R168, R169: on every channel H is at or below A and K at or below N; A, S, the runs and
the lock count are in their ranges, N having no upper bound here; a channel with A at 65,535 is frozen,
and a LOCKED channel has locked; the open note's counts agree. -/
def State.channelsAgree (s : State) : Prop :=
  ∀ m : Fin 4, let c := s.voice.channels[m]
    c.hits ≤ c.judged ∧ c.judged ≤ 65535 ∧ (c.judged = 65535 → c.frozen = true) ∧
      c.kept ≤ c.notes ∧ c.strays ≤ 65535 ∧ c.hitRun ≤ 2 ∧ c.missRun ≤ 16 ∧ c.lockCount ≤ 255 ∧
      (c.lock = .locked → 0 < c.lockCount) ∧
      ∀ o, c.openNote = some o → o.h ≤ o.a ∧ o.a ≤ c.judged

end Sys2Proof.Machine
end

