-- ==== Sys2Proof/WellFormed.lean ====
section
/-! DEFINITION. Well-formed commands: those that a sender can put on the wires of its connection. -/

namespace Sys2Proof

/-- A well-formed command. The data of LOAD-DATA and FONT-PROGRAM fit a parameter list of at most
250 bytes beside their other fields (R186, R194); an SPI transaction begins with the byte that
tells its kind (R195); a read shifts out at least the status byte (R187). Every other command is
well-formed whatever its fields: they have the widths of R194, and a value outside its set is for
the block to refuse or clamp. -/
def Instr.wellFormed : Instr → Bool
  | .loadData _ _ _ data => data.length ≤ 246
  | .fontProgram _ _ data => data.length ≤ 245
  | .writeTransaction port opens bytes _ => !opens || port = .venue || !bytes.isEmpty
  | .readTransaction _ length => 1 ≤ length
  | _ => true

end Sys2Proof
end

