-- ==== Sys2Proof/Certificates/Slice0/Obligations.lean ====
section
/-! DEFINITION. Statements for the provers. -/

open Sys2Proof Sys2Proof.Machine

/-! ## The part as a whole -/

/-- A step runs the command at the front of the queue on the state with the queue's rest (the row's
form of a block); with no command waiting the part idles (log 7). -/
def Obligations.StepRunsTheFrontCommand : Prop :=
  (∀ (s : State) (c : Instr) (rest : List Instr), s.pending = c :: rest →
     step s = exec c { s with pending := rest }) ∧
  ∀ s : State, s.pending = [] → step s = .next s

/-- Every command, in every state, answers a next state and leaves the queue of commands alone, so no
run of the part stops. The codes 0x01 to 0x4C are the client commands' in the order of the catalogue,
code by code, and no other code names one; each is permitted on the ports that the table of 11.2 marks
for it, row by row, and on no other. What a client command comes to before any block sees it: where the
port cannot take its frame nothing changes (logs 8 and 9), and where it is not permitted on the port
the reply is NOT_PERMITTED and nothing else changes, nor does such a row shift out a byte (log 58). -/
def Obligations.EveryCommandIsAnswered : Prop :=
  ((∀ (i : Instr) (s : State), ∃ t, exec i s = .next t ∧ t.pending = s.pending) ∧
     ∀ s : State, s.runsOn) ∧
  (∀ i : Instr, ((frameOf i).map fun x => (x.1, x.2.code)) =
    (match i with
      | .enqueue p _ _ _ => some (p, 0x01) | .cancel p _ => some (p, 0x02)
      | .move p _ _ => some (p, 0x03) | .bookHold p => some (p, 0x04)
      | .bookRelease p => some (p, 0x05) | .promote p _ => some (p, 0x06)
      | .setOrderMode p _ _ => some (p, 0x07) | .setRotation p _ => some (p, 0x08)
      | .setOriginMask p _ => some (p, 0x09) | .setCap p _ _ => some (p, 0x0A)
      | .setQuota p _ _ => some (p, 0x0B) | .setDuplicatePolicy p _ => some (p, 0x0C)
      | .bookRead p _ _ => some (p, 0x0D) | .bookPolicyRead p => some (p, 0x0E)
      | .panelEnable p _ _ => some (p, 0x0F) | .panelCountersClear p _ => some (p, 0x10)
      | .setLoopTiming p _ _ => some (p, 0x11) | .panelRead p => some (p, 0x12)
      | .takeTurn p => some (p, 0x13) | .endTurn p _ _ => some (p, 0x14)
      | .abortTurn p _ => some (p, 0x15) | .setAutoEnd p _ => some (p, 0x16)
      | .stageRead p => some (p, 0x17) | .loadBegin p _ _ => some (p, 0x18)
      | .loadData p _ _ _ => some (p, 0x19) | .loadEnd p _ _ _ => some (p, 0x1A)
      | .setLookahead p _ => some (p, 0x1B) | .retryStage p _ => some (p, 0x1C)
      | .slotRead p => some (p, 0x1D) | .slotDetail p _ => some (p, 0x1E)
      | .play p => some (p, 0x1F) | .pause p => some (p, 0x20) | .resume p => some (p, 0x21)
      | .seek p _ => some (p, 0x22) | .sync p _ => some (p, 0x23)
      | .setTempo p _ => some (p, 0x24) | .setSlipWindow p _ => some (p, 0x25)
      | .setKey p _ => some (p, 0x26) | .clockRead p => some (p, 0x27)
      | .setBands p _ _ => some (p, 0x28) | .setStyle p _ _ => some (p, 0x29)
      | .setLineTiming p _ _ _ _ => some (p, 0x2A) | .setLyricColours p _ _ _ _ => some (p, 0x2B)
      | .setScoreHold p _ => some (p, 0x2C) | .lineWindowRead p => some (p, 0x2D)
      | .fontMaintBegin p => some (p, 0x2E) | .fontWriteEnable p => some (p, 0x2F)
      | .fontProgram p _ _ => some (p, 0x30) | .fontErase p _ => some (p, 0x31)
      | .fontRead p _ _ => some (p, 0x32) | .fontProtect p _ => some (p, 0x33)
      | .fontMaintEnd p => some (p, 0x34) | .cacheStatus p => some (p, 0x35)
      | .glyphQuery p _ => some (p, 0x36) | .fontStatus p => some (p, 0x37)
      | .wake p => some (p, 0x38) | .goStandby p => some (p, 0x39)
      | .setOverlay p _ _ _ _ => some (p, 0x3A) | .setPlane p _ _ _ _ => some (p, 0x3B)
      | .setFmark p _ => some (p, 0x3C) | .displayCountersClear p => some (p, 0x3D)
      | .displayStatus p => some (p, 0x3E) | .setMicEnable p _ _ => some (p, 0x3F)
      | .setMicColour p _ _ => some (p, 0x40) | .toneCheck p _ _ => some (p, 0x41)
      | .setPart p _ _ => some (p, 0x42) | .setScoring p _ _ _ _ _ _ _ _ => some (p, 0x43)
      | .voiceRead p => some (p, 0x44) | .resultRead p _ _ => some (p, 0x45)
      | .resultTake p _ => some (p, 0x46) | .bestClear p => some (p, 0x47)
      | .bestRead p => some (p, 0x48) | .noticeTake p => some (p, 0x49)
      | .noticeMask p _ => some (p, 0x4A) | .ident p => some (p, 0x4B)
      | .sessionReset p => some (p, 0x4C)
      | _ => none : Option (Port × Byte))) ∧
  (∀ code : Byte, namesCommand code = true ↔ 1 ≤ code.toNat ∧ code.toNat ≤ 0x4C) ∧
  (let cv : List Port := [.console, .venue]
   let pcv : List Port := [.playback, .console, .venue]
   let rows : List (Nat × Nat × List Port) :=
     [(0x01, 0x05, cv), (0x06, 0x0C, [.venue]), (0x0D, 0x0E, pcv),
      (0x0F, 0x11, [.venue]), (0x12, 0x12, pcv),
      (0x13, 0x14, [.playback]), (0x15, 0x16, cv), (0x17, 0x17, pcv),
      (0x18, 0x1A, [.playback]), (0x1B, 0x1C, [.console]), (0x1D, 0x1E, pcv),
      (0x1F, 0x25, [.playback]), (0x26, 0x26, [.playback, .console]), (0x27, 0x27, pcv),
      (0x28, 0x2C, cv), (0x2D, 0x2D, pcv), (0x2E, 0x34, [.venue]), (0x35, 0x37, pcv),
      (0x38, 0x3D, cv), (0x3E, 0x3E, pcv), (0x3F, 0x41, cv), (0x42, 0x42, [.console]),
      (0x43, 0x43, [.venue]), (0x44, 0x44, pcv), (0x45, 0x45, cv), (0x46, 0x47, [.venue]),
      (0x48, 0x48, pcv), (0x49, 0x4B, pcv), (0x4C, 0x4C, [.venue])]
   ∀ r ∈ rows, ∀ code : Byte, r.1 ≤ code.toNat → code.toNat ≤ r.2.1 → PermittedOn code r.2.2) ∧
  ∀ (i : Instr) (p : Port) (f : Frame) (s : State), frameOf i = some (p, f) →
    ((s.port p).admits f = false → exec i s = .next s) ∧
    ((s.port p).admits f = true → permitted f.code p = false →
      ∃ t, Runs i [] .notPermitted [] s t)

/-! ## Encodings -/

/-- Decode and encode agree, both ways: the frame of every well-formed client command spells that
command, its code names a command and its parameters fit a frame; and a frame spells a command only
if it is that command's own frame, so no byte of a frame is passed over. -/
def Obligations.FramesSpellTheirCommands : Prop :=
  (∀ (i : Instr) (p : Port) (f : Frame), i.wellFormed = true → frameOf i = some (p, f) →
     commandOf p f = some i ∧ namesCommand f.code = true ∧ f.params.length ≤ 250) ∧
  ∀ (p : Port) (f : Frame) (i : Instr), commandOf p f = some i → frameOf i = some (p, f)

/-! ## Resets -/

/-- Power-on reset puts every block in its power-on values, whatever the state: every value of the
tables of R25, R42, R61, R83, R100, R123, R142, R154, R174, R185 and R193. The flash keeps its bytes,
but for those an operation in progress names, which are free values (log 2); the queue outside the
part is kept (log 35). The model's own fields (log 30) are left to themselves here. A session reset,
in every state of every block, empties the Book, the stage, the slots, the window and the results with
the pins they hold released, and the clock and the channels' counts; keeps the policies and settings,
the clock's slip window and the last voice frames; restarts session time; a running tone check is the
last result, ABORTED, its samples staying in the frame under way (log 56); and each port has
SESSION_RESET as its one pending class. -/
def Obligations.ResetsGiveTheirValues : Prop :=
  (∀ s : State, ∃ t, exec .powerOnReset s = .next t ∧ t.pending = s.pending ∧
    (∀ x, (∀ op n, s.font.store = .busy op n → x < op.range.1 ∨ op.range.1 + op.range.2 ≤ x) →
      Memory.read t.flash x = Memory.read s.flash x) ∧
    t.sessionTime = 0 ∧
    t.book = { entries := [], nextTicket := 1, lowest := 9, held := false
               quotaTimes := Vector.replicate 8 [], mode := .rotate, rotateOnTake := true
               masked := 0, caps := #v[3, 3, 3, 3, 3, 3, 3, 3, 8, 8], quota := 3
               quotaWindow := 120, noDuplicates := false } ∧
    (∀ p : Fin 8, t.loop.panels[p] =
      { enabled := true, presence := .absent, missRun := 0, errors := 0, stored := none }) ∧
    t.loop = { t.loop with phase := .sweep, absentPointer := 7, replyWindow := 20, cycleGap := 50 } ∧
    t.turn = none ∧ t.autoEnd = true ∧ t.depth = 2 ∧
    (∀ i : Fin 4, t.slots[i] =
      { state := .free, ticket := none, bytes := [], fault := none, track := none
        tallied := Vector.replicate 4 [], timer := t.slots[i].timer }) ∧
    t.clock = { state := .stopped, position := 0, accumulator := 0, tempo := 1000, key := 0
                interlude := .outside, slipWindow := 20, lastSync := none, endTime := none
                spans := [] } ∧
    t.lines = { t.lines with
      canvas := .hd1080, titleRowsSetting := 1, guideSetting := 160, style := .scroll
      lyricRows := 3, lead := 1500, hold := 300, linger := 3000, scrollTime := 12, window := []
      pending := [], scroll := none, rebuild := false, title := .none, titleRows := []
      scoreShow := none, unsung := 0xFFFFFF, sungA := 0x00A0FF, sungB := 0xFF4080
      sungBoth := 0x40D040, scoreHold := 6000 } ∧
    (t.cache.entries.length = 640 ∧ ∀ e ∈ t.cache.entries, e =
      { code := none, state := .free, bitmap := none, substitute := false, pins := 0
        late := false }) ∧
    t.cache.recency = [] ∧ t.cache.fetchOrder = [] ∧ t.cache.inProgress = none ∧
    t.font = { t.font with
      store := .scanning, header := none, latch := false, protection := .none, fault := false } ∧
    t.video = { t.video with
      path := .noInput, locked := none, runClass := none, runCount := 0, freeRun := .f1080p60
      output := .freeRunning, power := .standby, switch := true, content := .normal
      invert := false, scope := .full, planeOpacity := 16, shade := 0x000000, shadeOpacity := 6
      fill := 0x000000, fmark := false, glyphLate := 0, postLate := 0, lineClipped := 0
      lastKeyed := none } ∧
    t.voice = { t.voice with
      audio := .lost, tone := none, lastTone := none
      scoring := { gate := 400, tolerance := 4, grace := 40, latency := 60, folding := true
                   pitchWeight := 3, noteWeight := 1, strayCost := 2 } } ∧
    (∀ m : Fin 4, t.voice.channels[m] =
      { enabled := true, part := if m.val % 2 = 0 then .a else .b
        colour := #v[0xFFD000, 0xFF6000, 0x00E0E0, 0xC080FF][m]
        takingPart := false, judged := 0, hits := 0, notes := 0, kept := 0, strays := 0
        openNote := none, lock := .unlocked, hitRun := 0, missRun := 0, lockCount := 0
        firstMiss := none, flags := ⟨false, false, false, false⟩, frozen := false
        lastFrame := none }) ∧
    t.ring = [] ∧ t.best = [] ∧
    ∀ p : Port, t.port p = { t.port p with
      link := .ready, held := none, reply := none, replyWaiting := false, discarded := false
      notices := Vector.replicate 16 none, mask := 0, reading := none } ∧
      (t.port p).attention = false) ∧
  ∀ s : State, s.canTake (.sessionReset .venue) = true →
    ∃ t, Runs (.sessionReset .venue)
        [.sessionTime, .book, .loop, .turn, .slots, .clock, .lines, .cache, .voice, .ring, .best,
          .notices] .ok [] s t ∧
      t.sessionTime = 0 ∧
      t.book = { s.book with entries := [], nextTicket := 1, lowest := 9, held := false
                             quotaTimes := Vector.replicate 8 [] } ∧
      (∀ p : Fin 8, t.loop.panels[p] = { s.loop.panels[p] with stored := none }) ∧
      t.loop = { s.loop with panels := t.loop.panels } ∧
      t.turn = none ∧
      (∀ i : Fin 4, t.slots[i] =
        if s.slots[i].state = .free ∨ s.slots[i].state = .scrub then s.slots[i]
        else { s.slots[i] with
          state := .scrub, ticket := none
          timer := 1 + (s.slots[i].bytes.length + 4095) / 4096 }) ∧
      t.clock = { state := .stopped, position := 0, accumulator := 0, tempo := 1000, key := 0
                  interlude := .outside, slipWindow := s.clock.slipWindow, lastSync := none
                  endTime := none, spans := [] } ∧
      t.lines = { s.lines with
        window := [], pending := [], scroll := none, rebuild := false, scoreShow := none
        title := .none, titleRows := [], hinted := none } ∧
      t.cache = ((s.lines.window.flatMap fun x => x.pins) ++
        (match s.lines.scoreShow with
          | none => []
          | some x => headlineText x.headline) ++ s.lines.titleRows.flatten).foldl
        Cache.release s.cache ∧
      t.voice = { s.voice with
        channels := t.voice.channels, tone := none
        lastTone := match s.voice.tone with
          | none => s.voice.lastTone
          | some x => some { mic := x.mic, note := x.note, voiced := x.voiced
                             average := x.average, outcome := .aborted } } ∧
      (∀ m : Fin 4, t.voice.channels[m] = { s.voice.channels[m] with
        takingPart := false, judged := 0, hits := 0, notes := 0, kept := 0, strays := 0
        openNote := none, lock := .unlocked, hitRun := 0, missRun := 0, lockCount := 0
        firstMiss := none, flags := ⟨false, false, false, false⟩, frozen := false }) ∧
      t.ring = [] ∧ t.best = [] ∧
      ∀ (p : Port) (c : Fin 16), (t.port p).notices[c] = if c = 0 then some .sessionReset else none

/-! ## Invariants of every step -/

/-- The invariants below hold right after reset. -/
def Obligations.InvariantsHoldAtReset : Prop :=
  (State.reset.flashCanonical ∧ State.reset.ticketsDistinct ∧ State.reset.clockAgrees ∧
    State.reset.resultsBounded) ∧
  (State.reset.roomAgrees ∧ State.reset.titleAgrees ∧ State.reset.cacheAgrees ∧
    State.reset.channelsAgree)

/-- Every step keeps the flash in its canonical form. -/
def Obligations.FlashStaysCanonical : Prop :=
  ∀ s t : State, s.flashCanonical → step s = .next t → t.flashCanonical

/-- Every step keeps the Book at 32 entries at most and every ticket held once, by the Book or the
stage. -/
def Obligations.TicketsStayDistinct : Prop :=
  ∀ s t : State, s.ticketsDistinct → step s = .next t → t.ticketsDistinct

/-- Every step keeps the clock STOPPED at position 0 exactly while the stage is EMPTY, and
position, accumulator, tempo, key offset, slip window and last SYNC difference in range; the interlude
state is INSIDE exactly within a span. -/
def Obligations.ClockStaysWithTheStage : Prop :=
  ∀ s t : State, s.clockAgrees → step s = .next t → t.clockAgrees

/-- Every step keeps the result ring and the best list within their bounds, each ticket once in
each, the best list in descending order of headline. -/
def Obligations.ResultsStayBounded : Prop :=
  ∀ s t : State, s.resultsBounded → step s = .next t → t.resultsBounded

/-- Every step keeps the Book, the slots and the stage in agreement, and the title band the one they
call for: a slot is bound to one ticket of the Book or the stage, each ticket to one slot at most, or
is FREE or in SCRUB; ON_STAGE is the turn's slot; a CALLED entry is the head, with the stage EMPTY,
the Book not held and its slot READY; the title band shows the song on stage, else that of a head
whose slot is READY, else nothing. -/
def Obligations.RoomStaysInOrder : Prop :=
  ∀ s t : State, s.roomAgrees → s.titleAgrees → step s = .next t → t.roomAgrees ∧ t.titleAgrees

/-- Every step keeps the Glyph Cache of 640 entries with each code held once, the recency order naming
exactly the entries not FREE, the fetch order exactly the FETCHING ones, each once, and at most 64
prefetches queued. -/
def Obligations.CacheStaysInOrder : Prop :=
  ∀ s t : State, s.cacheAgrees → step s = .next t → t.cacheAgrees

/-- Every step keeps, for every channel, H at or below A and A at or below 65,535, K at or below N, S at or
below 65,535, the hit run at or below 2, the miss run at or below 16, the lock count at or below 255 and
above 0 where the channel is LOCKED, a channel frozen where A is 65,535, and the open note's h at or below
its a and its a at or below A. It says no upper bound of N. -/
def Obligations.ChannelCountsStayInOrder : Prop :=
  ∀ s t : State, s.channelsAgree → step s = .next t → t.channelsAgree

/-! ## The Request Book -/

/-- The checks of a request in their order: it is refused with the first reason whose condition it
meets, and passes when it meets none; a refused ENQUEUE changes nothing and answers REFUSED with the
reason, a refused panel REQUEST leaves the Book and the slots alone and stores and owes the VERDICT
with the reason. Before the checks an ENQUEUE of tier PRIORITY on the console port is NOT_PERMITTED,
and one with a tier or tag outside its set is RANGE, in that order (log 32).
An accepted request, where every ticket is held once and in 1 to 65,535: the entry is in its place
in the order with ticket, round, time and tag, the counter stands after its ticket, QUEUE_CHANGED is
pending on console and venue, and the requester is told ticket and position. -/
def Obligations.RequestsAreCheckedAndAccepted : Prop :=
  (((∀ (s : State) (who : Requester) (song : Nat) (tier : Tier) (r : RefusalReason),
      s.refusal who song tier = some r ↔
        s.meets who song tier r ∧ ∀ q : RefusalReason, q.number < r.number →
          ¬ s.meets who song tier q) ∧
    (∀ (s : State) (who : Requester) (song : Nat) (tier : Tier),
      s.refusal who song tier = none ↔ ∀ q : RefusalReason, ¬ s.meets who song tier q) ∧
    (∀ (s : State) (p : Port) (song : BitVec 24) (tier : Byte) (tag : OptionalByte) (o : Fin 10)
        (t : Tier) (g : Option Nat) (r : RefusalReason),
      s.canTake (.enqueue p song tier tag) = true → portOrigin p = some o →
      tierOf tier = some t → tagOf tag = some g → ¬ (p = .console ∧ t = .priority) →
      s.refusal (.port o) song.toNat t = some r →
      ∃ u, Runs (.enqueue p song tier tag) [] .refused [BitVec.ofNat 8 r.number] s u) ∧
    ∀ (s : State) (p : Fin 8) (seq : Byte) (song : BitVec 24) (tag : Byte) (r : RefusalReason),
      s.replyDue p (replyFrame p 0x11 seq (be24 song.toNat ++ [tag])) = true →
      s.repeated p (seqOf seq) = none → s.refusal (.panel p) song.toNat .normal = some r →
      ∃ u, exec (.request p seq song tag) s = .next u ∧ Touches [.loop, .notices] s u ∧
        u.loop.exchange = .toVerdict p (seqOf seq) (.refused r) ∧
        u.loop.panels[p].stored = some (seqOf seq, .refused r)) ∧
   ∀ (s : State) (p : Port) (song : BitVec 24) (tier : Byte) (tag : OptionalByte),
     s.canTake (.enqueue p song tier tag) = true →
     (p = .console → tier = 1 →
       ∃ u, Runs (.enqueue p song tier tag) [] .notPermitted [] s u) ∧
     (1 < tier.toNat → ∃ u, Runs (.enqueue p song tier tag) [] .range [] s u) ∧
     (¬ (p = .console ∧ tier = 1) →
       1 < tag.presence.toNat ∨ (tag.presence = 1 ∧ 16 ≤ tag.value.toNat) →
       ∃ u, Runs (.enqueue p song tier tag) [] .range [] s u)) ∧
  (∀ (s : State) (p : Port) (song : BitVec 24) (tier : Byte) (tag : OptionalByte) (o : Fin 10)
      (t : Tier) (g : Option Nat),
    s.ticketsDistinct → s.canTake (.enqueue p song tier tag) = true → portOrigin p = some o →
    tierOf tier = some t → tagOf tag = some g → ¬ (p = .console ∧ t = .priority) →
    s.refusal (.port o) song.toNat t = none →
    let entry : Entry :=
      { ticket := s.issueTicket, songId := song.toNat, origin := o, tier := t
        round := if t = .normal then 1 + s.book.normalCount o else 1, tag := g
        acceptedAt := s.sessionTime, moved := false, state := .waiting }
    let book := { s.book with entries := s.book.inserted entry }
    ∃ u, Runs (.enqueue p song tier tag) [.book, .slots, .lines, .cache, .notices] .ok
        (be16 entry.ticket ++ be8 (book.position entry.ticket)) s u ∧
      u.book.order = book.order ∧
      u.book = { s.book with
        entries := u.book.entries, nextTicket := if entry.ticket = 65535 then 1 else entry.ticket + 1 } ∧
      u.shows .console (.queueChanged (s.book.entries.length + 1)) ∧
      u.shows .venue (.queueChanged (s.book.entries.length + 1))) ∧
  ∀ (s : State) (p : Fin 8) (seq : Byte) (song : BitVec 24) (tag : Byte),
    s.ticketsDistinct → s.replyDue p (replyFrame p 0x11 seq (be24 song.toNat ++ [tag])) = true →
    s.repeated p (seqOf seq) = none → s.refusal (.panel p) song.toNat .normal = none →
    let entry : Entry :=
      { ticket := s.issueTicket, songId := song.toNat, origin := p.val, tier := .normal
        round := 1 + s.book.normalCount p.val
        tag := if tag.toNat < 16 then some tag.toNat else none
        acceptedAt := s.sessionTime, moved := false, state := .waiting }
    let book := { s.book with entries := s.book.inserted entry }
    let verdict := Verdict.accepted entry.ticket (book.position entry.ticket)
    ∃ u, exec (.request p seq song tag) s = .next u ∧
      Touches [.loop, .book, .slots, .lines, .cache, .notices] s u ∧
      u.book.order = book.order ∧
      u.book.nextTicket = (if entry.ticket = 65535 then 1 else entry.ticket + 1) ∧
      (u.book.quotaTimes[p] = (s.book.quotaTimes[p] ++ [s.sessionTime]).drop
        (if 8 < s.book.quotaTimes[p].length + 1 then 1 else 0)) ∧
      (∀ q : Fin 8, q ≠ p → u.book.quotaTimes[q] = s.book.quotaTimes[q]) ∧
      u.loop.exchange = .toVerdict p (seqOf seq) verdict ∧
      u.loop.panels[p] = { s.loop.panels[p] with
        presence := .present, missRun := 0, stored := some (seqOf seq, verdict) } ∧
      u.shows .console (.queueChanged (s.book.entries.length + 1)) ∧
      u.shows .venue (.queueChanged (s.book.entries.length + 1))

/-- The next ticket: counting upward from the counter, 65,535 followed by 1, the first number held
neither by an entry nor by the turn, reached within 34 numbers. -/
def Obligations.TicketsAreIssuedInOrder : Prop :=
  ∀ s : State, s.ticketsDistinct →
    let number := fun k => (s.book.nextTicket - 1 + k) % 65535 + 1
    let held := fun n => (∃ e ∈ s.book.entries, e.ticket = n) ∨ s.onStage n = true
    ∃ k, k < 34 ∧ s.issueTicket = number k ∧ ¬ held (number k) ∧ ∀ j, j < k → held (number j)

/-- In ARRIVAL mode a new NORMAL entry is appended at the end of the Book, behind every entry already
in it, whatever their tiers and rounds: so it is with an accepted ENQUEUE of tier NORMAL and with a
panel's accepted REQUEST. -/
def Obligations.ArrivalInsertionAppends : Prop :=
  (∀ (b : Book) (e : Entry), b.mode = .arrival → e.tier = .normal →
    b.inserted e = b.entries ++ [e]) ∧
  (∀ (s : State) (p : Port) (song : BitVec 24) (tag : OptionalByte) (o : Fin 10) (g : Option Nat),
    s.canTake (.enqueue p song 0 tag) = true → portOrigin p = some o → tagOf tag = some g →
    s.refusal (.port o) song.toNat .normal = none → s.book.mode = .arrival →
    ∃ u e, exec (.enqueue p song 0 tag) s = .next u ∧ u.book.order = s.book.order ++ [e] ∧
      e.tier = .normal ∧ e.origin = o.val ∧ e.songId = song.toNat ∧ e.tag = g) ∧
  ∀ (s : State) (p : Fin 8) (seq : Byte) (song : BitVec 24) (tag : Byte),
    s.replyDue p (replyFrame p 0x11 seq (be24 song.toNat ++ [tag])) = true →
    s.repeated p (seqOf seq) = none → s.refusal (.panel p) song.toNat .normal = none →
    s.book.mode = .arrival →
    ∃ u e, exec (.request p seq song tag) s = .next u ∧ u.book.order = s.book.order ++ [e] ∧
      e.tier = .normal ∧ e.origin = p.val ∧ e.songId = song.toNat

/-- A new PRIORITY entry goes, in either mode, directly behind the last PRIORITY entry, or else
directly behind the CALLED head, or else to position 1. -/
def Obligations.PriorityInsertionPlace : Prop :=
  ∀ (b : Book) (e : Entry), e.tier = .priority →
    ∃ ahead behind, b.entries = ahead ++ behind ∧ b.inserted e = ahead ++ e :: behind ∧
      (∀ x ∈ behind, x.tier = .normal) ∧
      ((∃ xs x, ahead = xs ++ [x] ∧ x.tier = .priority) ∨
        ((∀ x ∈ b.entries, x.tier = .normal) ∧
          ((∃ x, ahead = [x] ∧ x.state = .called) ∨
            (ahead = [] ∧ ∀ x, b.entries.head? = some x → x.state = .waiting))))

/-- Fair insertion: in ROTATE mode a new NORMAL entry passes the protected front (the CALLED head
and all entries up to the last PRIORITY one) and every entry of a lower round, or of its own round
and a rank not above its own, and stands before the first entry it does not pass. -/
def Obligations.FairInsertionPlace : Prop :=
  ∀ (b : Book) (e : Entry), b.mode = .rotate → e.tier = .normal → b.lowest < 10 →
    let rank := fun o : Nat => ((o : Int) - b.lowest - 1) % 10
    let stops := fun x : Entry =>
      e.round < x.round ∨ (x.round = e.round ∧ rank e.origin < rank x.origin)
    ∃ front passed rest, b.entries = front ++ passed ++ rest ∧
      b.inserted e = front ++ passed ++ e :: rest ∧
      (∀ x ∈ passed ++ rest, x.tier = .normal) ∧
      ((∃ xs x, front = xs ++ [x] ∧ x.tier = .priority) ∨
        (∃ x, front = [x] ∧ x.state = .called) ∨
        (front = [] ∧ ∀ x, b.entries.head? = some x → x.state = .waiting)) ∧
      (∀ x ∈ passed, ¬ stops x) ∧ ∀ x, rest.head? = some x → stops x

/-- CANCEL from a port, and from the entry's panel: the entry leaves the Book, its slot goes to
SCRUB, CALL_WITHDRAWN is raised for a CALLED head; a WAITING entry that is now the head, its slot READY,
the stage empty and the Book not held, is called, with CALL; where nothing can be called no CALL is
raised. Where the ticket is the turn's, another panel's or nobody's, the Book is as it was. A panel's
CANCEL stores its sequence number and verdict, owes the VERDICT, returns the miss run to 0 and makes
the panel PRESENT, with PANEL_STATE where it was ABSENT. -/
def Obligations.CancelRemovesTheEntry : Prop :=
  let cancelled := fun (s u : State) (e : Entry) =>
    let rest := s.book.entries.filter fun x => x.ticket ≠ e.ticket
    u.book.order = s.book.order.filter (fun x => x.ticket ≠ e.ticket) ∧
    u.book = { s.book with entries := u.book.entries } ∧
    (∀ i, s.boundSlot e.ticket = some i → u.slots[i].state = .scrub ∧ u.slots[i].ticket = none) ∧
    (e.state = .called → u.shows .playback (.callWithdrawn e.ticket)) ∧
    u.shows .console (.queueChanged u.book.entries.length) ∧
    u.shows .venue (.queueChanged u.book.entries.length) ∧
    (s.ticketsDistinct →
      (∀ head behind i, rest = head :: behind → head.state = .waiting → s.turn = none →
        s.book.held = false → s.boundSlot head.ticket = some i → s.slots[i].state = .ready →
        u.book.entries = { head with state := .called } :: behind ∧
        u.slots[i] = s.slots[i] ∧ u.shows .playback (.call head.ticket i)) ∧
      (s.turn ≠ none ∨ s.book.held = true ∨ rest = [] ∨
          (∃ head behind, rest = head :: behind ∧ (head.state = .called ∨
            ∀ i : Fin 4, s.slots[i].ticket = some head.ticket → s.slots[i].state ≠ .ready)) →
        u.book.entries = rest ∧ ∀ q : Port,
          (u.port q).notices[(1 : Fin 16)] = (s.port q).notices[(1 : Fin 16)]))
  (∀ (s : State) (p : Port) (t : BitVec 16), s.canTake (.cancel p t) = true →
    match s.holder t.toNat with
    | .stage => ∃ u, Runs (.cancel p t) [] .state [] s u
    | .nobody => ∃ u, Runs (.cancel p t) [] .notFound [] s u
    | .entry e => ∃ u, Runs (.cancel p t) [.book, .slots, .lines, .cache, .notices] .ok [] s u ∧
        cancelled s u e) ∧
  ∀ (s : State) (p : Fin 8) (seq : Byte) (t : BitVec 16),
    s.replyDue p (replyFrame p 0x12 seq (be16 t.toNat)) = true →
    s.repeated p (seqOf seq) = none →
    let verdict : Verdict := match s.holder t.toNat with
      | .stage => .onStage
      | .nobody => .unknown
      | .entry e => if e.origin = p.val then .cancelled else .notYours
    ∃ u, exec (.panelCancel p seq t) s = .next u ∧
      Touches [.loop, .book, .slots, .lines, .cache, .notices] s u ∧
      u.loop = { s.loop.setPanel p { s.loop.panels[p] with
          missRun := 0, presence := .present, stored := some (seqOf seq, verdict) } with
        quiet := 0, exchange := .toVerdict p (seqOf seq) verdict } ∧
      (s.loop.panels[p].presence = .absent →
        u.shows .console (.panelState p .present) ∧ u.shows .venue (.panelState p .present)) ∧
      (∀ e, s.holder t.toNat = .entry e → e.origin = p.val → cancelled s u e) ∧
      (verdict ≠ .cancelled → Touches [.loop, .notices] s u ∧
        (s.loop.panels[p].presence = .present → Touches [.loop] s u))

/-- MOVE: the entry stands at the position asked for, brought into 1 to the number of entries, 1
becoming 2 behind a CALLED head; its round is that of the nearest NORMAL entry ahead, or 1; its
moved mark is set and nothing else of it changes. The turn's ticket and the CALLED head are
refused STATE, a ticket nobody holds NOT_FOUND.
PROMOTE: a WAITING NORMAL entry becomes PRIORITY and is inserted anew as a PRIORITY entry is;
the reply gives its position. The turn's ticket, the CALLED head and a PRIORITY entry are refused
STATE, a fifth PRIORITY entry LIMIT, a ticket nobody holds NOT_FOUND. -/
def Obligations.MoveAndPromotePlaceTheEntry : Prop :=
  (∀ (s : State) (p : Port) (t : BitVec 16) (pos : Byte), s.canTake (.move p t pos) = true →
     match s.holder t.toNat with
     | .stage => ∃ u, Runs (.move p t pos) [] .state [] s u
     | .nobody => ∃ u, Runs (.move p t pos) [] .notFound [] s u
     | .entry e =>
       if e.state = .called then ∃ u, Runs (.move p t pos) [] .state [] s u
       else
         let target :=
           if (∃ x, s.book.entries.head? = some x ∧ x.state = .called) ∧ pos.toNat ≤ 1 then 2
           else max 1 (min pos.toNat s.book.entries.length)
         let others := s.book.order.filter fun x => x.ticket ≠ e.ticket
         let ahead := others.take (target - 1)
         let round := match (ahead.filter fun x => x.tier = .normal).getLast? with
           | some x => x.round
           | none => 1
         ∃ u, Runs (.move p t pos) [.book, .slots, .lines, .cache, .notices]
             (if target = pos.toNat then .ok else .okClamped) [BitVec.ofNat 8 target] s u ∧
           u.book.order = ahead ++
             { e with round := round, moved := true, state := .waiting } ::
               others.drop (target - 1) ∧
           u.book = { s.book with entries := u.book.entries } ∧
           u.shows .console (.queueChanged u.book.entries.length) ∧
           u.shows .venue (.queueChanged u.book.entries.length)) ∧
  ∀ (s : State) (p : Port) (t : BitVec 16), s.canTake (.promote p t) = true →
    match s.holder t.toNat with
    | .stage => ∃ u, Runs (.promote p t) [] .state [] s u
    | .nobody => ∃ u, Runs (.promote p t) [] .notFound [] s u
    | .entry e =>
      if e.state = .called ∨ e.tier = .priority then
        ∃ u, Runs (.promote p t) [] .state [] s u
      else if 4 ≤ (s.book.entries.filter fun x => x.tier = .priority).length then
        ∃ u, Runs (.promote p t) [] .limit [] s u
      else
        let rest := { s.book with
          entries := s.book.entries.filter fun x => x.ticket ≠ e.ticket }
        let book := { s.book with entries := rest.inserted { e with tier := .priority } }
        ∃ u, Runs (.promote p t) [.book, .slots, .lines, .cache, .notices] .ok
            [BitVec.ofNat 8 (book.position e.ticket)] s u ∧
          u.book.order = book.order ∧
          u.book = { s.book with entries := u.book.entries } ∧
          u.shows .console (.queueChanged u.book.entries.length) ∧
          u.shows .venue (.queueChanged u.book.entries.length)

/-- BOOK-HOLD sets the hold flag and un-calls a CALLED head, with CALL_WITHDRAWN to playback and
QUEUE_CHANGED to console and venue; with no CALLED head nothing else changes. BOOK-RELEASE clears
the flag, and a WAITING head whose slot is READY is then called while the stage is EMPTY, with CALL
to playback and QUEUE_CHANGED to console and venue; where nothing can be called it raises nothing.
The venue's policies (on/off bytes 0 = on, log 12): each command sets its own values, brought into
range where the spec clamps, refused RANGE with nothing changed where it refuses; the running order is
untouched. -/
def Obligations.HoldReleaseAndPolicies : Prop :=
  ((∀ (s : State) (p : Port), s.canTake (.bookHold p) = true →
     match s.book.calledHead with
     | none => ∃ u, Runs (.bookHold p) [.book] .ok [] s u ∧ u.book = { s.book with held := true }
     | some e => ∃ u, Runs (.bookHold p) [.book, .slots, .lines, .cache, .notices] .ok [] s u ∧
         u.book = { s.book with
           held := true, entries := { e with state := .waiting } :: s.book.entries.tail } ∧
         u.shows .playback (.callWithdrawn e.ticket) ∧
         u.shows .console (.queueChanged s.book.entries.length) ∧
         u.shows .venue (.queueChanged s.book.entries.length) ∧
         (u.port .playback).notices[(9 : Fin 16)] = (s.port .playback).notices[(9 : Fin 16)]) ∧
   ∀ (s : State) (p : Port), s.canTake (.bookRelease p) = true →
     ∃ u, Runs (.bookRelease p) [.book, .slots, .lines, .cache, .notices] .ok [] s u ∧
       u.book.held = false ∧ u.book.order = s.book.order ∧
       u.book = { s.book with held := false, entries := u.book.entries } ∧
       (∀ e rest i, s.book.entries = e :: rest → e.state = .waiting →
         s.boundSlot e.ticket = some i → s.slots[i].state = .ready → s.turn = none →
         u.book.entries = { e with state := .called } :: rest ∧
           u.shows .playback (.call e.ticket i) ∧
           u.shows .console (.queueChanged s.book.entries.length) ∧
           u.shows .venue (.queueChanged s.book.entries.length) ∧
           (u.port .playback).notices[(9 : Fin 16)] =
             (s.port .playback).notices[(9 : Fin 16)]) ∧
       (s.turn.isSome = true ∨ s.book.entries = [] ∨
           (∃ e rest, s.book.entries = e :: rest ∧ (e.state = .called ∨
             ∀ i, s.boundSlot e.ticket = some i → s.slots[i].state ≠ .ready)) →
         u.book = { s.book with held := false } ∧ Touches [.book, .lines, .cache, .links] s u)) ∧
  ∀ (s : State) (p : Port),
    (∀ m r : Byte, s.canTake (.setOrderMode p m r) = true →
      if m.toNat ≤ 1 ∧ r.toNat ≤ 1 then
        ∃ u, Runs (.setOrderMode p m r) [.book] .ok [] s u ∧
          u.book = { s.book with mode := if m = 0 then .arrival else .rotate
                                 rotateOnTake := decide (r = 0) }
      else ∃ u, Runs (.setOrderMode p m r) [] .range [] s u) ∧
    (∀ o : Byte, s.canTake (.setRotation p o) = true →
      if o.toNat < 10 then
        ∃ u, Runs (.setRotation p o) [.book] .ok [] s u ∧
          u.book = { s.book with lowest := o.toNat }
      else ∃ u, Runs (.setRotation p o) [] .range [] s u) ∧
    (∀ m : BitVec 16, s.canTake (.setOriginMask p m) = true →
      if m.toNat < 1024 then
        ∃ u, Runs (.setOriginMask p m) [.book] .ok [] s u ∧
          u.book = { s.book with masked := BitVec.ofNat 10 m.toNat }
      else ∃ u, Runs (.setOriginMask p m) [] .range [] s u) ∧
    (∀ o c : Byte, s.canTake (.setCap p o c) = true →
      if h : o.toNat < 10 then
        ∃ u, Runs (.setCap p o c) [.book] (if 1 ≤ c.toNat ∧ c.toNat ≤ 8 then .ok else .okClamped)
            [] s u ∧
          u.book = { s.book with
            caps := s.book.caps.set o.toNat (if c = 0 then 1 else min c.toNat 8) h }
      else ∃ u, Runs (.setCap p o c) [] .range [] s u) ∧
    (∀ (q : Byte) (w : BitVec 16), s.canTake (.setQuota p q w) = true →
      ∃ u, Runs (.setQuota p q w) [.book]
          (if 1 ≤ q.toNat ∧ q.toNat ≤ 8 ∧ 10 ≤ w.toNat ∧ w.toNat ≤ 900 then .ok
            else .okClamped) [] s u ∧
        u.book = { s.book with quota := if q = 0 then 1 else min q.toNat 8
                               quotaWindow := if w.toNat < 10 then 10 else min w.toNat 900 }) ∧
    ∀ v : Byte, s.canTake (.setDuplicatePolicy p v) = true →
      if v.toNat ≤ 1 then
        ∃ u, Runs (.setDuplicatePolicy p v) [.book] .ok [] s u ∧
          u.book = { s.book with noDuplicates := decide (v = 0) }
      else ∃ u, Runs (.setDuplicatePolicy p v) [] .range [] s u

/-! ## The panel loop -/

/-- POLL, VERDICT and ANSWER: once the line has been quiet for 1 ms the frame of 12.3 is sent, its
bytes summing to 0; after a POLL the reply window runs, after a VERDICT or ANSWER the exchange has
ended and the next visit is chosen. -/
def Obligations.LoopSendsItsFrames : Prop :=
  ∀ (s : State) (p : Fin 8), 1 ≤ s.loop.quiet →
    let address : Byte := BitVec.ofNat 8 (128 + p.val)
    (s.loop.exchange = .toPoll p →
      let body : List Byte := [0xA5, address, 0x01, 0, 1,
        match s.loop.panels[p].stored with
        | some (seq, _) => BitVec.ofNat 8 seq.toNat
        | none => 0xFF]
      ∃ c : Byte, (body ++ [c]).foldl (· + ·) 0 = 0 ∧
        exec .poll s = .next { s with loop := { s.loop with
          sent := body ++ [c], exchange := .window p s.loop.replyWindow } }) ∧
    (∀ seq v, s.loop.exchange = .toVerdict p seq v →
      let body : List Byte := [0xA5, address, 0x02, BitVec.ofNat 8 seq.toNat, 5] ++ v.payload
      ∃ c : Byte, (body ++ [c]).foldl (· + ·) 0 = 0 ∧
        exec .verdict s = .next { s with loop := { s.loop with sent := body ++ [c] }.chooseNext }) ∧
    ∀ seq a, s.loop.exchange = .toAnswer p seq a →
      let body : List Byte := [0xA5, address, 0x03, BitVec.ofNat 8 seq.toNat, 5] ++ a.payload
      ∃ c : Byte, (body ++ [c]).foldl (· + ·) 0 = 0 ∧
        exec .answer s = .next { s with loop := { s.loop with sent := body ++ [c] }.chooseNext }

/-- A miss, by the reply window's expiry or after the quiet that follows a bad reply: the miss run
rises and holds at 3, a PRESENT panel whose run reaches 3 becomes ABSENT with PANEL_STATE, the
receive-error count stays (a bad reply was counted at its bad byte, log 21), and the exchange has
ended.
The choice of visits: in a cycle the lowest enabled PRESENT panel above all visited so far, in
the sweep the lowest enabled one; when none is left, a cycle makes one visit to the first enabled
ABSENT panel after the absent pointer that it has not visited, and the pointer moves there; then
the loop rests for the cycle gap. The gap's expiry begins a new cycle. -/
def Obligations.MissesAndVisits : Prop :=
  (∀ (s : State) (p : Fin 8) (i : Instr),
     (i = .replyWindowExpiry ∧ s.loop.exchange = .window p 0) ∨
       (i = .badReplyQuietExpiry ∧ s.loop.exchange = .ignoring p ∧ 3 ≤ s.loop.quiet) →
     let old := s.loop.panels[p]
     let gone := old.presence = .present ∧ 2 ≤ old.missRun
     let new := { old with
       missRun := min 3 (old.missRun + 1)
       presence := if gone then .absent else old.presence }
     ∃ u, exec i s = .next u ∧ Touches [.loop, .notices] s u ∧
       u.loop = (s.loop.setPanel p new).chooseNext ∧
       (gone → u.shows .console (.panelState p .absent) ∧ u.shows .venue (.panelState p .absent)) ∧
       (¬ gone → Touches [.loop] s u)) ∧
  (∀ l : Loop, l.lastVisit = true → l.chooseNext.phase = .gap ∧ l.chooseNext.exchange = .none ∧
    l.chooseNext.gapLeft = l.cycleGap) ∧
  (∀ l : Loop, l.lastVisit = false →
    let ascending := fun q : Fin 8 => l.panels[q].enabled = true ∧ (∀ v ∈ l.visited, v < q) ∧
      (l.phase = .sweep ∨ l.panels[q].presence = .present)
    let absent := fun q : Fin 8 => l.phase ≠ .sweep ∧ l.panels[q].enabled = true ∧
      l.panels[q].presence = .absent ∧ q ∉ l.visited
    let after := fun q : Fin 8 => (q - l.absentPointer - 1).val
    (∀ q, ascending q → (∀ x, ascending x → q ≤ x) →
      l.chooseNext = { l with exchange := .toPoll q, visited := l.visited ++ [q] }) ∧
    ((∀ q, ¬ ascending q) → ∀ q, absent q → (∀ x, absent x → after q ≤ after x) →
      l.chooseNext = { l with exchange := .toPoll q, visited := l.visited ++ [q]
                              absentPointer := q, lastVisit := true }) ∧
    ((∀ q, ¬ ascending q) → (∀ q, ¬ absent q) →
      l.chooseNext = { l with phase := .gap, exchange := .none, visited := []
                              gapLeft := l.cycleGap })) ∧
  ∀ s : State, s.loop.phase = .gap → s.loop.gapLeft = 0 →
    exec .cycleGapExpiry s = .next { s with loop :=
      { s.loop with phase := .cycle, visited := [], lastVisit := false }.chooseNext }

/-- A reply's bytes: one that leaves the reply unfinished is kept, one that spoils it (by the table of
R29) is counted as a receive error at once (log 21) and the line is then ignored, as it is when 3 ms,
told in whole ticks (log 11), pass within a reply; a byte while no reply is awaited is discarded. The
line counts as quiet from the byte on.
The endings of R29: a reply frame of a panel's kind, whatever its sequence byte (log 1), is good
exactly when its last byte has come, and a reply is bad at the first byte that is not as the frame's
start, address, kind, length or check must be. -/
def Obligations.ReplyBytesMakeGoodAndBadReplies : Prop :=
  (∀ (s : State) (b : Byte),
     (∀ p bytes, s.loop.exchange.awaited = some (p, bytes) →
       (replyStatus p (bytes ++ [b]) = .more →
         exec (.replyByteReceived b) s = .next { s with loop := { s.loop with
           exchange := .receiving p (bytes ++ [b]), quiet := 0 } }) ∧
       ∀ framing : Bool, framing = true ∨ replyStatus p (bytes ++ [b]) = .bad →
         ∃ u, exec (.badReply b framing) s = .next u ∧ Touches [.loop] s u ∧
           u.loop = { s.loop.setPanel p { s.loop.panels[p] with
               errors := if s.loop.panels[p].errors < 255 then s.loop.panels[p].errors + 1
                 else 255 } with
             exchange := .ignoring p, quiet := 0 }) ∧
     (∀ p bytes, s.loop.exchange = .receiving p bytes → 3 ≤ s.loop.quiet →
       ∃ u, exec .replyByteTimeout s = .next u ∧ Touches [.loop] s u ∧
         u.loop = { s.loop.setPanel p { s.loop.panels[p] with
             errors := if s.loop.panels[p].errors < 255 then s.loop.panels[p].errors + 1
               else 255 } with
           exchange := .ignoring p }) ∧
     (s.loop.exchange.awaited = none →
       exec (.strayLoopByte b) s = .next { s with loop := { s.loop with quiet := 0 } })) ∧
  (∀ (p : Fin 8) (kind seq : Byte) (payload : List Byte), kindLength kind = some payload.length →
    replyStatus p (replyFrame p kind seq payload) = .good ∧
      ∀ n, n < (replyFrame p kind seq payload).length →
        replyStatus p ((replyFrame p kind seq payload).take n) = .more) ∧
  (∀ (p : Fin 8) (bytes : List Byte) (b : Byte), replyStatus p bytes = .more →
    (replyStatus p (bytes ++ [b]) = .bad ↔
      (bytes.length = 0 ∧ b ≠ 0xA5) ∨
      (bytes.length = 1 ∧ b.toNat ≠ p.val) ∨
      (bytes.length = 2 ∧ b ≠ 0x10 ∧ b ≠ 0x11 ∧ b ≠ 0x12 ∧ b ≠ 0x13) ∨
      (bytes.length = 4 ∧ b.toNat ≠
        (if bytes[2]? = some 0x10 then 0 else if bytes[2]? = some 0x11 then 4 else 2)) ∨
      (∃ n, bytes[4]? = some n ∧ bytes.length = n.toNat + 5 ∧
        (bytes ++ [b]).foldl (· + ·) 0 ≠ 0))) ∧
  ∀ (p : Fin 8) (bytes : List Byte) (b : Byte), replyStatus p bytes = .more →
    replyStatus p (bytes ++ [b]) = .good →
    ∃ kind seq payload, kindLength kind = some payload.length ∧
      bytes ++ [b] = replyFrame p kind seq payload

/-- A good IDLE ends the exchange; a good WHERE is owed the ANSWER from the Book, else the stage,
else the result ring. Both return the miss run to 0 and make the panel PRESENT, with PANEL_STATE
where it was ABSENT, and change nothing that is stored.
A good REQUEST or CANCEL with the stored sequence number is a repeat, whatever it asks: it is
owed the stored verdict unchanged, and neither the Book nor what is stored changes. -/
def Obligations.GoodRepliesAreActedOn : Prop :=
  (∀ (s : State) (p : Fin 8) (seq : Byte),
     let panel := { s.loop.panels[p] with missRun := 0, presence := .present }
     let loop := { s.loop.setPanel p panel with quiet := 0 }
     (s.replyDue p (replyFrame p 0x10 seq []) = true →
       ∃ u, exec (.idle p seq) s = .next u ∧ Touches [.loop, .notices] s u ∧
         u.loop = loop.chooseNext ∧
         (s.loop.panels[p].presence = .absent →
           u.shows .console (.panelState p .present) ∧ u.shows .venue (.panelState p .present)) ∧
         (s.loop.panels[p].presence = .present → Touches [.loop] s u)) ∧
     ∀ t : BitVec 16, s.replyDue p (replyFrame p 0x13 seq (be16 t.toNat)) = true →
       let answer : Answer :=
         if t = 0 then .unknown
         else if s.book.position t.toNat ≠ 0 then .waiting (s.book.position t.toNat)
         else if s.onStage t.toNat = true then .onStage
         else match s.ring.find? fun r => r.ticket = t.toNat with
           | some r => .done r.headline
           | none => .unknown
       ∃ u, exec (.whereTicket p seq t) s = .next u ∧ Touches [.loop, .notices] s u ∧
         u.loop = { loop with exchange := .toAnswer p (seqOf seq) answer } ∧
         (s.loop.panels[p].presence = .absent →
           u.shows .console (.panelState p .present) ∧ u.shows .venue (.panelState p .present)) ∧
         (s.loop.panels[p].presence = .present → Touches [.loop] s u)) ∧
  ∀ (s : State) (p : Fin 8) (seq : Byte) (v : Verdict) (i : Instr),
    s.loop.panels[p].stored = some (seqOf seq, v) →
    (∃ song tag, i = .request p seq song tag ∧
        s.replyDue p (replyFrame p 0x11 seq (be24 song.toNat ++ [tag])) = true) ∨
      (∃ t, i = .panelCancel p seq t ∧
        s.replyDue p (replyFrame p 0x12 seq (be16 t.toNat)) = true) →
    ∃ u, exec i s = .next u ∧ Touches [.loop, .notices] s u ∧
      u.loop = { s.loop.setPanel p { s.loop.panels[p] with
          missRun := 0, presence := .present } with
        quiet := 0, exchange := .toVerdict p (seqOf seq) v }

/-! ## The stage -/

/-- TAKE-TURN of a CALLED head on an EMPTY stage: the head leaves the Book and becomes the turn,
its slot goes ON_STAGE, the rotation ring follows a NORMAL head, the clock is CUED at 0, every
channel takes its turn-start values, a tone check is ABORTED, the window is empty, the title band
shows the song and any score show has ended; TURN_STARTED and QUEUE_CHANGED go to console and
venue. -/
def Obligations.TakeTurnTakesTheCalledHead : Prop :=
  ∀ (s : State) (p : Port) (e : Entry) (rest : List Entry) (i : Fin 4),
    s.canTake (.takeTurn p) = true → s.turn = none → s.book.entries = e :: rest →
    e.state = .called → s.boundSlot e.ticket = some i → (∀ x ∈ rest, x.ticket ≠ e.ticket) →
    ∃ u, Runs (.takeTurn p)
        [.book, .turn, .slots, .clock, .lines, .cache, .voice, .notices] .ok
        (be16 e.ticket ++ be24 e.songId ++ [BitVec.ofNat 8 i.val]) s u ∧
      u.turn = some { ticket := e.ticket, songId := e.songId, slot := i, origin := e.origin
                      tier := e.tier, tag := e.tag, startedAt := s.sessionTime
                      flags := ⟨false, false, false, false, false, false⟩ } ∧
      u.book = { s.book with
        entries := rest
        lowest := if e.tier = .normal ∧ s.book.rotateOnTake = true then e.origin
          else s.book.lowest } ∧
      u.slots[i] = { s.slots[i] with state := .onStage } ∧
      u.clock.state = .cued ∧ u.clock.position = 0 ∧ u.clock.accumulator = 0 ∧
      u.clock.tempo = 1000 ∧ u.clock.key = 0 ∧ u.clock.slipWindow = s.clock.slipWindow ∧
      u.clock.lastSync = none ∧ u.clock.endTime = s.slots[i].track.map (·.endTime) ∧
      (∀ m : Fin 4, u.voice.channels[m] =
        { enabled := s.voice.channels[m].enabled, part := s.voice.channels[m].part
          colour := s.voice.channels[m].colour, takingPart := s.voice.channels[m].enabled
          judged := 0, hits := 0, notes := 0, kept := 0, strays := 0, openNote := none
          lock := .unlocked, hitRun := 0, missRun := 0, lockCount := 0, firstMiss := none
          flags := ⟨false, false, false, false⟩, frozen := false
          lastFrame := s.voice.channels[m].lastFrame }) ∧
      u.voice.tone = none ∧
      (∀ t, s.voice.tone = some t →
        u.voice.lastTone.map (·.outcome) = some .aborted ∧
          u.shows .console (.toneDone t.mic .aborted) ∧
          u.shows .venue (.toneDone t.mic .aborted)) ∧
      u.lines.window = [] ∧ u.lines.pending = [] ∧ u.lines.scroll = none ∧
      u.lines.scoreShow = none ∧ u.lines.title = .stage i ∧
      u.shows .console (.turnStarted e.ticket i) ∧ u.shows .venue (.turnStarted e.ticket i) ∧
      u.shows .console (.queueChanged rest.length) ∧ u.shows .venue (.queueChanged rest.length) ∧
      (u.port .playback).notices[(6 : Fin 16)] = (s.port .playback).notices[(6 : Fin 16)]

/-- The venue's loop settings: a panel's enable (0 = on, log 12), the receive-error counts of one panel
or of all, and the two times brought into range; nothing else of the loop changes.
The other outcomes of TAKE-TURN: STATE while a turn is on stage, NO_TURN without a CALLED head;
END-TURN and ABORT-TURN of a ticket that is not the turn's are NOT_ON_STAGE, an END-TURN with a
reason outside its three is RANGE, nothing changing; SET-AUTO-END (0 = on, log 12) sets its setting
or is RANGE.
WAKE, GO-STANDBY, SET-OVERLAY, SET-FMARK (switch, INVERT and FMARK 0 = on, log 12) and
DISPLAY-COUNTERS-CLEAR: each has its effect in every power state, or is refused RANGE with nothing
changed. -/
def Obligations.SettingsAreSetOrRefused : Prop :=
  (∀ (s : State) (p : Port),
     (∀ n v : Byte, s.canTake (.panelEnable p n v) = true →
       if h : n.toNat < 8 ∧ v.toNat ≤ 1 then
         ∃ u, Runs (.panelEnable p n v) [.loop] .ok [] s u ∧
           u.loop = s.loop.setPanel ⟨n.toNat, h.1⟩
             { s.loop.panels[n.toNat] with enabled := decide (v = 0) }
       else ∃ u, Runs (.panelEnable p n v) [] .range [] s u) ∧
     (∀ n : Byte, s.canTake (.panelCountersClear p n) = true →
       if n.toNat < 8 ∨ n = 0xFF then
         ∃ u, Runs (.panelCountersClear p n) [.loop] .ok [] s u ∧
           u.loop = { s.loop with panels := u.loop.panels } ∧
           ∀ q : Fin 8, u.loop.panels[q] =
             if n = 0xFF ∨ n.toNat = q.val then { s.loop.panels[q] with errors := 0 }
             else s.loop.panels[q]
       else ∃ u, Runs (.panelCountersClear p n) [] .range [] s u) ∧
     ∀ w g : BitVec 16, s.canTake (.setLoopTiming p w g) = true →
       ∃ u, Runs (.setLoopTiming p w g) [.loop]
           (if 5 ≤ w.toNat ∧ w.toNat ≤ 100 ∧ 10 ≤ g.toNat ∧ g.toNat ≤ 1000 then .ok
             else .okClamped) [] s u ∧
         u.loop = { s.loop with
           replyWindow := if w.toNat < 5 then 5 else min w.toNat 100
           cycleGap := if g.toNat < 10 then 10 else min g.toNat 1000 }) ∧
  ((∀ (s : State) (p : Port), s.canTake (.takeTurn p) = true →
      (s.turn.isSome = true → ∃ u, Runs (.takeTurn p) [] .state [] s u) ∧
      (s.turn = none → (∀ e, s.book.entries.head? = some e → e.state = .waiting) →
        ∃ u, Runs (.takeTurn p) [] .noTurn [] s u)) ∧
   ∀ (s : State) (p : Port),
     (∀ (n : BitVec 16) (r : Byte), s.canTake (.endTurn p n r) = true →
       (3 ≤ r.toNat → ∃ u, Runs (.endTurn p n r) [] .range [] s u) ∧
       (r.toNat < 3 → n = 0 ∨ s.onStage n.toNat = false →
         ∃ u, Runs (.endTurn p n r) [] .notOnStage [] s u)) ∧
     (∀ n : BitVec 16, s.canTake (.abortTurn p n) = true → n = 0 ∨ s.onStage n.toNat = false →
       ∃ u, Runs (.abortTurn p n) [] .notOnStage [] s u) ∧
     ∀ v : Byte, s.canTake (.setAutoEnd p v) = true →
       if v.toNat ≤ 1 then
         ∃ u, Runs (.setAutoEnd p v) [.autoEnd] .ok [] s u ∧ u.autoEnd = decide (v = 0)
       else ∃ u, Runs (.setAutoEnd p v) [] .range [] s u) ∧
  ∀ (s : State) (p : Port),
    (s.canTake (.wake p) = true →
      let ready := s.font.store ≠ .scanning ∧ s.video.path ≠ .changeover
      let power : Power := if s.video.power = .active ∨ ready then .active else .waking
      ∃ u, Runs (.wake p) [.video] .ok [BitVec.ofNat 8 power.place] s u ∧
        u.video = { s.video with power := power }) ∧
    (s.canTake (.goStandby p) = true →
      ∃ u, Runs (.goStandby p) [.video] .ok [] s u ∧
        u.video = { s.video with power := .standby }) ∧
    (∀ a b c d : Byte, s.canTake (.setOverlay p a b c d) = true →
      if a.toNat ≤ 1 ∧ b.toNat ≤ 2 ∧ c.toNat ≤ 1 ∧ d.toNat ≤ 1 then
        ∃ u, Runs (.setOverlay p a b c d) [.video] .ok [] s u ∧
          u.video = { s.video with
            switch := decide (a = 0), invert := decide (c = 0)
            content := if b = 0 then .normal else if b = 1 then .blank else .fill
            scope := if d = 0 then .full else .lyricOnly }
      else ∃ u, Runs (.setOverlay p a b c d) [] .range [] s u) ∧
    (∀ v : Byte, s.canTake (.setFmark p v) = true →
      if v.toNat ≤ 1 then
        ∃ u, Runs (.setFmark p v) [.video] .ok [] s u ∧
          u.video = { s.video with fmark := decide (v = 0) }
      else ∃ u, Runs (.setFmark p v) [] .range [] s u) ∧
    (s.canTake (.displayCountersClear p) = true →
      ∃ u, Runs (.displayCountersClear p) [.video] .ok [] s u ∧
        u.video = { s.video with glyphLate := 0, postLate := 0, lineClipped := 0 })

/-- The end of a turn by END-TURN with reason COMPLETE, SKIPPED or FAILED, and by ABORT-TURN: open
notes are tallied, the result record is filed uncollected and offered to the best list: the turn's own
fields, the key before the end, the session time, one result per channel that took part, in mic order,
with its counts, part, flags and first miss and its final score, and the headline of these; the slot
goes to SCRUB, the clock to STOPPED at 0, the window is emptied, the score show starts if there is a
headline, the stage is EMPTY, and the notices are raised, TURN_ENDED to playback only for an abort.
The calling condition is then tested: a WAITING head with a READY slot is called unless the Book is
held, with CALL and QUEUE_CHANGED; where nothing can be called the Book stays as it was. -/
def Obligations.EndingATurnFilesAndClears : Prop :=
  ∀ (s : State) (p : Port) (t : Turn) (i : Instr) (reason : EndReason),
    s.turn = some t → s.canTake i = true → t.ticket ≠ 0 →
    (∃ (n : BitVec 16) (r : Byte), n.toNat = t.ticket ∧ i = .endTurn p n r ∧
        ((r = 0 ∧ reason = .complete) ∨ (r = 1 ∧ reason = .skipped) ∨
          (r = 2 ∧ reason = .failed))) ∨
      (∃ n : BitVec 16, n.toNat = t.ticket ∧ i = .abortTurn p n ∧ reason = .aborted) →
    let results : List ChannelResult :=
      (([0, 1, 2, 3] : List (Fin 4)).filter fun m => s.voice.channels[m].takingPart).map fun m =>
        let c := s.tallyAllOpen.voice.channels[m]
        { mic := m, part := c.part
          assessed := match s.slots[t.slot].track with
            | some track => if track.partCount = 1 then .a else c.part
            | none => c.part
          judged := c.judged, hits := c.hits, strays := c.strays, notes := c.notes, kept := c.kept
          final := finalScore s.voice.scoring c, lockCount := c.lockCount, flags := c.flags
          firstMiss := c.firstMiss }
    let record : ResultRecord :=
      { ticket := t.ticket, songId := t.songId, origin := t.origin, tag := t.tag
        reason := reason, flags := t.flags, key := s.clock.key, startedAt := t.startedAt
        endedAt := s.sessionTime, headline := headlineOf (results.filterMap fun r => r.final)
        channels := results, collected := false }
    let kept :=
      if s.ring.any (fun r => r.ticket = t.ticket) then
        s.ring.filter fun r => r.ticket ≠ t.ticket
      else if 16 ≤ s.ring.length then s.ring.tail else s.ring
    ∃ u, Runs i [.book, .turn, .slots, .clock, .lines, .cache, .voice, .ring, .best, .notices] .ok
        (be16 t.ticket) s u ∧
      u.turn = none ∧ u.ring = kept ++ [record] ∧
      u.best = record.offer s.best ∧
      u.slots[t.slot].state = .scrub ∧ u.slots[t.slot].ticket = none ∧
      u.clock.state = .stopped ∧ u.clock.position = 0 ∧ u.clock.tempo = 1000 ∧
      u.clock.key = 0 ∧ u.clock.slipWindow = s.clock.slipWindow ∧
      u.lines.window = [] ∧ u.lines.pending = [] ∧ u.lines.scroll = none ∧
      (∀ h, record.headline = some h → s.lines.scoreHold ≠ 0 →
        u.lines.scoreShow = some { headline := h, left := s.lines.scoreHold }) ∧
      (record.headline = none → u.lines.scoreShow = s.lines.scoreShow) ∧
      (∀ m : Fin 4, u.voice.channels[m].openNote = none ∨
        (s.voice.channels[m].enabled = true → s.voice.channels[m].frozen = true)) ∧
      u.book.order = s.book.order ∧
      (∀ e rest j, s.book.entries = e :: rest → e.state = .waiting → s.book.held = false →
        s.boundSlot e.ticket = some j → j ≠ t.slot → s.slots[j].state = .ready →
        u.book = { s.book with entries := { e with state := .called } :: rest } ∧
        u.shows .playback (.call e.ticket j) ∧
        u.shows .console (.queueChanged s.book.entries.length) ∧
        u.shows .venue (.queueChanged s.book.entries.length)) ∧
      (s.book.held = true ∨ s.book.entries = [] ∨
          (∃ e rest, s.book.entries = e :: rest ∧ (e.state = .called ∨
            ∀ j : Fin 4, s.slots[j].ticket = some e.ticket → s.slots[j].state = .ready →
              j = t.slot)) →
        u.book = s.book ∧ ∀ q : Port,
          (u.port q).notices[(9 : Fin 16)] = (s.port q).notices[(9 : Fin 16)]) ∧
      u.shows .console (.resultReady t.ticket reason record.headline) ∧
      u.shows .venue (.resultReady t.ticket reason record.headline) ∧
      u.shows .console (.turnEnded t.ticket reason) ∧ u.shows .venue (.turnEnded t.ticket reason) ∧
      (if reason = .aborted then u.shows .playback (.turnEnded t.ticket reason)
        else (u.port .playback).notices[(3 : Fin 16)] = (s.port .playback).notices[(3 : Fin 16)])

/-! ## Song slots -/

/-- Loading: each command's checks in their order and its effect. LOAD-DATA appends at the write
offset and restarts the stall timer; past 49,152 bytes the slot is FAULT(OVERFLOW) and none of the
piece is stored; LOAD-END compares length and sum and starts the check or faults the slot, its reply
carrying the reason as an optional field, absent in CHECKING (log 46). -/
def Obligations.LoadsAreTakenInOrder : Prop :=
  ∀ (s : State) (p : Port) (n : Byte),
    (∀ t : BitVec 16, s.canTake (.loadBegin p n t) = true →
      if h : n.toNat < 4 then
        let x := s.slots[n.toNat]
        if x.state ≠ .reserved ∨ x.ticket ≠ some t.toNat then
          ∃ u, Runs (.loadBegin p n t) [] .stale [] s u
        else if ∃ j : Fin 4, s.slots[j].state = .loading then
          ∃ u, Runs (.loadBegin p n t) [] .busy [] s u
        else ∃ u, Runs (.loadBegin p n t) [.slots] .ok [] s u ∧
          u.slots = s.slots.set n.toNat { x with state := .loading, bytes := [], timer := 2000 } h
      else ∃ u, Runs (.loadBegin p n t) [] .range [] s u) ∧
    (∀ (o : BitVec 16) (d : List Byte), s.canTake (.loadData p n o d) = true →
      if h : n.toNat < 4 ∧ 1 ≤ d.length ∧ d.length ≤ 240 then
        let x := s.slots[n.toNat]
        if x.state ≠ .loading then ∃ u, Runs (.loadData p n o d) [] .stale [] s u
        else if o.toNat ≠ x.bytes.length then
          ∃ u, Runs (.loadData p n o d) [] .order (be16 x.bytes.length) s u
        else if 49152 < x.bytes.length + d.length then
          ∃ u, Runs (.loadData p n o d) [.slots, .notices] .full [] s u ∧
            u.slots = s.slots.set n.toNat
              { x with state := .fault, fault := some (.overflow, none), timer := 0 } h.1 ∧
            u.shows .playback (.slotFault ⟨n.toNat, h.1⟩ (x.ticket.getD 0) .overflow) ∧
            u.shows .console (.slotFault ⟨n.toNat, h.1⟩ (x.ticket.getD 0) .overflow)
        else ∃ u, Runs (.loadData p n o d) [.slots] .ok (be16 (x.bytes.length + d.length)) s u ∧
          u.slots = s.slots.set n.toNat { x with bytes := x.bytes ++ d, timer := 2000 } h.1
      else ∃ u, Runs (.loadData p n o d) [] .range [] s u) ∧
    ∀ l c : BitVec 16, s.canTake (.loadEnd p n l c) = true →
      if h : n.toNat < 4 then
        let x := s.slots[n.toNat]
        if x.state ≠ .loading then ∃ u, Runs (.loadEnd p n l c) [] .stale [] s u
        else
          let fault : Option FaultReason :=
            if l.toNat ≠ x.bytes.length then some .length
            else if c.toNat ≠ (x.bytes.map (·.toNat)).sum % 65536 then some .sum
            else none
          match fault with
          | some r => ∃ u, Runs (.loadEnd p n l c) [.slots, .notices] .ok
                [7, 1, BitVec.ofNat 8 r.place] s u ∧
              u.slots = s.slots.set n.toNat
                { x with state := .fault, fault := some (r, none), timer := 0 } h ∧
              u.shows .playback (.slotFault ⟨n.toNat, h⟩ (x.ticket.getD 0) r) ∧
              u.shows .console (.slotFault ⟨n.toNat, h⟩ (x.ticket.getD 0) r)
          | none => ∃ u, Runs (.loadEnd p n l c) [.slots] .ok [3, 0, 0] s u ∧
              u.slots = s.slots.set n.toNat
                { x with state := .checking
                         timer := max 1 ((x.bytes.length + 2047) / 2048) } h
      else ∃ u, Runs (.loadEnd p n l c) [] .range [] s u

/-- The intervals of a slot end its state: a stalled load faults, a check that passes makes the
slot READY with no note tallied and the calling condition is tested, a check that fails faults the
slot with its reason and record index, and a scrub leaves the slot FREE and starts a pass. -/
def Obligations.SlotIntervalsEndTheirStates : Prop :=
  ∀ (s : State) (i : Fin 4), s.slots[i].timer = 0 →
    let x := s.slots[i]
    (x.state = .loading →
      ∃ u, exec (.stallTimerExpiry i) s = .next u ∧ Touches [.slots, .notices] s u ∧
        u.slots = s.slots.set i { x with state := .fault, fault := some (.stalled, none) } ∧
        u.shows .playback (.slotFault i (x.ticket.getD 0) .stalled) ∧
        u.shows .console (.slotFault i (x.ticket.getD 0) .stalled)) ∧
    (x.state = .checking →
      match checkTrack (s.wantedSong i) x.bytes with
      | .error (r, index) =>
        ∃ u, exec (.checkComplete i) s = .next u ∧ Touches [.slots, .notices] s u ∧
          u.slots = s.slots.set i { x with state := .fault, fault := some (r, index) } ∧
          u.shows .playback (.slotFault i (x.ticket.getD 0) r) ∧
          u.shows .console (.slotFault i (x.ticket.getD 0) r)
      | .ok track =>
        let ready := s.setSlot i { x with
          state := .ready, track := some track
          tallied := Vector.replicate 4 (List.replicate track.notes.length none) }
        ∃ u, exec (.checkComplete i) s = .next u ∧
          Touches [.book, .slots, .lines, .cache, .notices] s u ∧
          u.book.order = s.book.order ∧
          match ready.callHead with
          | none => u.slots = ready.slots ∧ u.book = s.book
          | some c => u.slots = c.changed.slots ∧ u.book = c.book) ∧
    (x.state = .scrub →
      ∃ u, exec (.scrubComplete i) s = .next u ∧ Touches [.slots, .notices] s u ∧
        u.slots = (s.setSlot i Slot.empty).pass.slots)

/-- A reservation pass goes through the first D entries from the head, with the count of the slots in
SCRUB. An entry with a slot is passed over; else the FREE slot of lowest number becomes its own,
RESERVED with 0 bytes used, and STAGE_WANTED is raised to playback; without a FREE slot a slot in
SCRUB is waited for, each counted once; with none left the slot bound to the entry farthest behind,
beyond D, goes to SCRUB, or nothing changes. So slots bound to the first D entries, and slots bound
to nothing but not FREE, stay as they are; and while one of the first D entries has no slot, no slot
is FREE.
SET-LOOKAHEAD sets the depth, brought into 1 to 3, and runs a pass with it; RETRY-STAGE sends
the faulted slot of a Book entry to SCRUB, unbound, and is refused STATE or NOT_FOUND otherwise. -/
def Obligations.PassesServeTheFirstEntries : Prop :=
  (∀ s : State, s.pass = ((s.book.entries.take s.depth).foldl State.passEntry
    (s, (slotNumbers.filter fun i => s.slots[i].state = .scrub).length)).1) ∧
  (∀ (t : State) (n : Nat) (e : Entry),
     ((∃ i : Fin 4, t.slots[i].ticket = some e.ticket) → State.passEntry (t, n) e = (t, n)) ∧
     ((∀ i : Fin 4, t.slots[i].ticket ≠ some e.ticket) →
       (∀ i : Fin 4, t.slots[i].state = .free → (∀ j, j < i → t.slots[j].state ≠ .free) →
         ∃ u, State.passEntry (t, n) e = (u, n) ∧ Touches [.slots, .notices] t u ∧
           u.slots = t.slots.set i { state := .reserved, ticket := some e.ticket, bytes := []
                                     fault := none, track := none
                                     tallied := Vector.replicate 4 [], timer := 0 } ∧
           u.shows .playback (.stageWanted e.ticket i e.songId) ∧
           ∀ q : Port, q ≠ .playback → u.port q = t.port q) ∧
       ((∀ i : Fin 4, t.slots[i].state ≠ .free) →
         (0 < n → State.passEntry (t, n) e = (t, n - 1)) ∧
         (n = 0 →
           (∀ ahead x behind i, t.book.entries.drop t.depth = ahead ++ x :: behind →
             t.boundSlot x.ticket = some i → (∀ y ∈ behind, t.boundSlot y.ticket = none) →
             State.passEntry (t, n) e = ({ t with slots := t.slots.set i { t.slots[i] with
               state := .scrub, ticket := none
               timer := 1 + (t.slots[i].bytes.length + 4095) / 4096 } }, 0)) ∧
           ((∀ y ∈ t.book.entries.drop t.depth, t.boundSlot y.ticket = none) →
             State.passEntry (t, n) e = (t, 0)))))) ∧
  (∀ s : State, s.ticketsDistinct →
     (∀ i : Fin 4, s.slots[i].state = .free ∨ s.slots[i].state = .scrub →
       s.slots[i].ticket = none) →
     (∀ i j : Fin 4, s.slots[i].ticket = s.slots[j].ticket → s.slots[i].ticket.isSome = true →
       i = j) →
     let first := s.book.entries.take s.depth
     let u := s.pass
     (∀ i : Fin 4,
       u.slots[i] = s.slots[i] ∨
       (s.slots[i].state = .free ∧ ∃ e ∈ first, s.boundSlot e.ticket = none ∧
         u.slots[i] = { state := .reserved, ticket := some e.ticket, bytes := [], fault := none
                        track := none, tallied := Vector.replicate 4 [], timer := 0 }) ∨
       ((∃ e ∈ s.book.entries.drop s.depth, s.slots[i].ticket = some e.ticket) ∧
         (∀ j : Fin 4, u.slots[j].state ≠ .free) ∧
         u.slots[i] = { s.slots[i] with
           state := .scrub, ticket := none
           timer := 1 + (s.slots[i].bytes.length + 4095) / 4096 })) ∧
     ((∃ e ∈ first, u.boundSlot e.ticket = none) → ∀ i : Fin 4, u.slots[i].state ≠ .free)) ∧
  ∀ (s : State) (p : Port),
    (∀ d : Byte, s.canTake (.setLookahead p d) = true →
      let depth := if d = 0 then 1 else min d.toNat 3
      ∃ u, Runs (.setLookahead p d) [.depth, .slots, .notices]
          (if 1 ≤ d.toNat ∧ d.toNat ≤ 3 then .ok else .okClamped) [] s u ∧
        u.depth = depth ∧ u.slots = (State.pass { s with depth := depth }).slots) ∧
    ∀ t : BitVec 16, s.canTake (.retryStage p t) = true →
      match s.holder t.toNat with
      | .stage => ∃ u, Runs (.retryStage p t) [] .state [] s u
      | .nobody => ∃ u, Runs (.retryStage p t) [] .notFound [] s u
      | .entry e =>
        match s.boundSlot e.ticket with
        | none => ∃ u, Runs (.retryStage p t) [] .state [] s u
        | some i =>
          if s.slots[i].state = .fault then
            ∃ u, Runs (.retryStage p t) [.slots] .ok [] s u ∧
              u.slots = s.slots.set i { s.slots[i] with
                state := .scrub, ticket := none
                timer := 1 + (s.slots[i].bytes.length + 4095) / 4096 }
          else ∃ u, Runs (.retryStage p t) [] .state [] s u

/-- What the check of a track comes to. The header tests in their order, with index 0. Then, for a
header that passes them, the records in byte order: the first record that fails, by its values or by
the bytes where it should stand, gives its reason and its record index. Then the marks as a whole: no
END, a second END, an END before the end of a line or note, the first interlude mark that does not
alternate or stands after the END, a start without an end. A track that meets every test passes, with
its values as they stand in it.
What a track that passes is: part count 1 or 2, key, counts and times in range, lines and notes in
order of start, the notes of one part never overlapping, every line and note ended by the END time,
and the interlude spans in order, one after another, within it. -/
def Obligations.CheckedTracksAreSound : Prop :=
  (∀ (song : Nat) (bytes : List Byte),
     let field := fun offset width : Nat =>
       ((bytes.drop offset).take width).foldl (fun n b => n * 256 + b.toNat) 0
     if bytes.length < 21 ∨ bytes.length < 21 + 2 * (field 19 1 + field 20 1) then
       checkTrack song bytes = .error (.truncated, some 0)
     else if bytes.take 4 ≠ [0x55, 0x46, 0x54, 0x4B] then
       checkTrack song bytes = .error (.signature, some 0)
     else if field 4 1 ≠ 1 then checkTrack song bytes = .error (.version, some 0)
     else if field 6 3 ≠ song then checkTrack song bytes = .error (.songMismatch, some 0)
     else if field 5 1 = 0 ∨ 2 < field 5 1 ∨ field 13 1 < 36 ∨ 96 < field 13 1 ∨
         3599999 < field 9 4 then checkTrack song bytes = .error (.range, some 0)
     else if 512 < field 14 2 ∨ 2048 < field 16 2 ∨ 64 < field 18 1 ∨ 40 < field 19 1 ∨
         40 < field 20 1 then checkTrack song bytes = .error (.limit, some 0)
     else ∀ reason, checkTrack song bytes ≠ .error (reason, some 0)) ∧
  (∀ (song : Nat) (h : Header) (records : List TrackRecord), song < 2 ^ 24 → h.fits →
     (∀ r ∈ records, r.fits) → recordsPass h records →
     let head := h.bytes song ++ records.flatMap TrackRecord.bytes
     (∀ (r : TrackRecord) (rest : List Byte) (reason : FaultReason), r.fits →
       records.length < h.recordCount → r.fails h records reason →
       checkTrack song (head ++ r.bytes ++ rest) = .error (reason, some (records.length + 1))) ∧
     (∀ (rest : List Byte) (reason : FaultReason), records.length < h.recordCount →
       BadRecord h records rest reason →
       checkTrack song (head ++ rest) = .error (reason, some (records.length + 1))) ∧
     ∀ rest : List Byte, records.length = h.recordCount →
       let cues := (marksOf records).filter fun m => m.kind ≠ 2
       checkTrack song (head ++ rest) =
         match (marksOf records).filter fun m => m.kind = 2 with
         | [] => .error (.marks, none)
         | [e] =>
           if (∃ l ∈ linesOf records, e.time < l.stop) ∨
               ∃ n ∈ notesOf records, e.time < n.start + n.duration then
             .error (.marks, some e.index)
           else
             match cues.zipIdx.find? fun m => m.1.kind ≠ m.2 % 2 || decide (e.time < m.1.time) with
             | some m => .error (.marks, some m.1.index)
             | none =>
               if cues.length % 2 = 1 then .error (.marks, cues.getLast?.map (·.index))
               else .ok
                 { partCount := h.partCount, originalKey := h.originalKey, duration := h.duration
                   lineCount := h.lineCount, title := h.title, artist := h.artist
                   lines := linesOf records, notes := notesOf records, endTime := e.time
                   spans := (List.range (cues.length / 2)).map fun n =>
                     (((cues[2 * n]?).map (·.time)).getD 0,
                       ((cues[2 * n + 1]?).map (·.time)).getD 0) }
         | _ :: e :: _ => .error (.marks, some e.index)) ∧
  ∀ (song : Nat) (bytes : List Byte) (t : Track), checkTrack song bytes = .ok t →
    (t.partCount = 1 ∨ t.partCount = 2) ∧ 36 ≤ t.originalKey ∧ t.originalKey ≤ 96 ∧
    t.duration ≤ 3599999 ∧ t.lines.length = t.lineCount ∧ t.lineCount ≤ 512 ∧
    t.notes.length ≤ 2048 ∧ t.title.length ≤ 40 ∧ t.artist.length ≤ 40 ∧
    t.endTime ≤ 3599999 ∧ t.spans.length ≤ 31 ∧
    (∀ l ∈ t.lines, 1 ≤ l.syllables.length ∧ l.syllables.length ≤ 16 ∧
      (∀ z ∈ l.syllables, 1 ≤ z.glyphs.length ∧ z.glyphs.length ≤ 6) ∧
      l.syllables.Pairwise (fun x y => x.start + x.duration ≤ y.start) ∧
      l.stop ≤ t.endTime ∧ (t.partCount = 1 → l.tag ≠ .b)) ∧
    t.lines.Pairwise (fun x y => x.start ≤ y.start) ∧
    (∀ n ∈ t.notes, 36 ≤ n.number ∧ n.number ≤ 96 ∧ 1 ≤ n.duration ∧
      n.start + n.duration ≤ t.endTime ∧ (t.partCount = 1 → n.tag ≠ .b)) ∧
    t.notes.Pairwise (fun x y => x.start ≤ y.start) ∧
    (∀ p : Part, (t.notes.filter fun n => n.tag.isOf p).Pairwise
      fun x y => x.start + x.duration ≤ y.start) ∧
    (∀ x ∈ t.spans, x.1 ≤ x.2 ∧ x.2 ≤ t.endTime) ∧
    t.spans.Pairwise fun x y => x.2 ≤ y.1

/-! ## The song clock -/

/-- PLAY, PAUSE and RESUME move the clock from CUED to RUNNING, from RUNNING to PAUSED and from
PAUSED to RUNNING, keeping position and accumulator, and are refused STATE in every other state;
the reply gives state and position.
SET-TEMPO and SET-KEY: refused STATE in STOPPED, the reply then without a value (the model's choice,
log 51); else the value brought into range is in force,
is given in the reply, and sets its turn flag exactly when it is another than before. -/
def Obligations.TransportTempoAndKey : Prop :=
  (∀ (s : State) (p : Port) (i : Instr) (whenIn goesTo : ClockState),
     (i = .play p ∧ whenIn = .cued ∧ goesTo = .running) ∨
       (i = .pause p ∧ whenIn = .running ∧ goesTo = .paused) ∨
       (i = .resume p ∧ whenIn = .paused ∧ goesTo = .running) →
     s.canTake i = true →
     if s.clock.state = whenIn then
       ∃ u, Runs i [.clock] .ok (BitVec.ofNat 8 goesTo.place :: be32 s.clock.position) s u ∧
         u.clock = { s.clock with state := goesTo }
     else
       ∃ u, Runs i [] .state (BitVec.ofNat 8 s.clock.state.place :: be32 s.clock.position) s u) ∧
  ∀ (s : State) (p : Port),
    (∀ x : BitVec 16, s.canTake (.setTempo p x) = true →
      if s.clock.state = .stopped then ∃ u, Runs (.setTempo p x) [] .state [] s u
      else
        let tempo := if x.toNat < 750 then 750 else min x.toNat 1250
        ∃ u, Runs (.setTempo p x) [.clock, .turn]
            (if 750 ≤ x.toNat ∧ x.toNat ≤ 1250 then .ok else .okClamped) (be16 tempo) s u ∧
          u.clock = { s.clock with tempo := tempo } ∧
          u.turn = s.turn.map fun t => { t with flags := { t.flags with
            tempoChanged := t.flags.tempoChanged || decide (tempo ≠ s.clock.tempo) } }) ∧
    ∀ x : Byte, s.canTake (.setKey p x) = true →
      if s.clock.state = .stopped then ∃ u, Runs (.setKey p x) [] .state [] s u
      else
        let key : Int := if x.toInt < -7 then -7 else min x.toInt 7
        ∃ u, Runs (.setKey p x) [.clock, .turn]
            (if -7 ≤ x.toInt ∧ x.toInt ≤ 7 then .ok else .okClamped) [BitVec.ofInt 8 key] s u ∧
          u.clock = { s.clock with key := key } ∧
          u.turn = s.turn.map fun t => { t with flags := { t.flags with
            keyChanged := t.flags.keyChanged || decide (key ≠ s.clock.key) } }

/-- SEEK: RANGE above 3,599,999, STATE in STOPPED; to the clock's own position it clears the
accumulator only; to another it is a jump that sets REWOUND or SKIPPED_AHEAD, takes the interlude
state afresh and requests a rebuild of the window, and a jump over the END time with auto-end on
ends the turn COMPLETE, the reply then giving the clock state that the command found, as in the worked
example of 5.7 (log 31). -/
def Obligations.SeekJumps : Prop :=
  ∀ (s : State) (p : Port) (x : BitVec 32), s.canTake (.seek p x) = true →
    let data := BitVec.ofNat 8 s.clock.state.place :: be32 x.toNat
    let passes := s.autoEnd = true ∧ s.turn.isSome = true ∧
      ∃ e, s.clock.endTime = some e ∧ s.clock.position < e ∧ e ≤ x.toNat
    (3599999 < x.toNat → ∃ u, Runs (.seek p x) [] .range [] s u) ∧
    (x.toNat ≤ 3599999 → s.clock.state = .stopped → ∃ u, Runs (.seek p x) [] .state [] s u) ∧
    (x.toNat ≤ 3599999 → s.clock.state ≠ .stopped → x.toNat = s.clock.position →
      ∃ u, Runs (.seek p x) [.clock] .ok data s u ∧ u.clock = { s.clock with accumulator := 0 }) ∧
    (x.toNat ≤ 3599999 → s.clock.state ≠ .stopped → x.toNat ≠ s.clock.position → ¬ passes →
      ∃ u, Runs (.seek p x) [.turn, .clock, .slots, .lines, .cache, .voice] .ok data s u ∧
        u.clock = { s.clock with position := x.toNat, accumulator := 0
                                 interlude := u.clock.interlude } ∧
        (u.clock.interlude = .inside ↔
          ∃ z ∈ s.clock.spans, z.1 ≤ x.toNat ∧ x.toNat < z.2) ∧
        u.turn = s.turn.map (fun t => { t with flags := { t.flags with
          rewound := t.flags.rewound || decide (x.toNat < s.clock.position)
          skippedAhead := t.flags.skippedAhead || decide (s.clock.position < x.toNat) } }) ∧
        u.lines.rebuild = true ∧ u.lines.scroll = none) ∧
    (x.toNat ≤ 3599999 → s.clock.state ≠ .stopped → passes →
      ∃ u, Runs (.seek p x) [.book, .turn, .slots, .clock, .lines, .cache, .voice, .ring, .best,
          .notices] .ok data s u ∧
        u.turn = none ∧ u.clock.state = .stopped ∧ u.clock.position = 0 ∧
        ∀ t, s.turn = some t →
          (u.ring.getLast?.map fun r => (r.ticket, r.reason, r.flags.skippedAhead, r.key)) =
            some (t.ticket, .complete, true, s.clock.key) ∧
          ∀ q : Port, u.shows q (.turnEnded t.ticket .complete))

/-- SYNC: RANGE above 3,599,999, STATE unless RUNNING; the difference is kept, and a difference
within the slip window changes nothing else, while a larger one sets CLOCK_SLIP, raises it to
playback and console and jumps to the position given, which may end the turn. The reply's mark is 0
for ignored and 1 for taken (log 14), and its position after a jump that ends the turn is the one
jumped to (log 31). -/
def Obligations.SyncSteersTheClock : Prop :=
  ∀ (s : State) (p : Port) (x : BitVec 32), s.canTake (.sync p x) = true →
    let d : Int := (x.toNat : Int) - s.clock.position
    let passes := s.autoEnd = true ∧ s.turn.isSome = true ∧
      ∃ e, s.clock.endTime = some e ∧ s.clock.position < e ∧ e ≤ x.toNat
    (3599999 < x.toNat → ∃ u, Runs (.sync p x) [] .range [] s u) ∧
    (x.toNat ≤ 3599999 → s.clock.state ≠ .running → ∃ u, Runs (.sync p x) [] .state [] s u) ∧
    (x.toNat ≤ 3599999 → s.clock.state = .running → d.natAbs ≤ s.clock.slipWindow →
      ∃ u, Runs (.sync p x) [.clock] .ok
          (0 :: (be32 (BitVec.ofInt 32 d).toNat ++ be32 s.clock.position)) s u ∧
        u.clock = { s.clock with lastSync := some d }) ∧
    (x.toNat ≤ 3599999 → s.clock.state = .running → s.clock.slipWindow < d.natAbs →
      let data := 1 :: (be32 (BitVec.ofInt 32 d).toNat ++ be32 x.toNat)
      (¬ passes →
        ∃ u, Runs (.sync p x) [.turn, .clock, .slots, .lines, .cache, .voice, .notices] .ok data
            s u ∧
          u.clock = { s.clock with position := x.toNat, accumulator := 0, lastSync := some d
                                   interlude := u.clock.interlude } ∧
          u.turn = s.turn.map (fun t => { t with flags := { t.flags with
            clockSlip := true
            rewound := t.flags.rewound || decide (d < 0)
            skippedAhead := t.flags.skippedAhead || decide (0 < d) } }) ∧
          u.lines.rebuild = true ∧
          ∀ t, s.turn = some t →
            u.shows .playback (.clockSlip t.ticket s.clock.position x.toNat) ∧
            u.shows .console (.clockSlip t.ticket s.clock.position x.toNat)) ∧
      (passes →
        ∃ u, Runs (.sync p x) [.book, .turn, .slots, .clock, .lines, .cache, .voice, .ring, .best,
            .notices] .ok data s u ∧
          u.turn = none ∧ u.clock.state = .stopped ∧
          ∀ t, s.turn = some t →
            u.shows .playback (.clockSlip t.ticket s.clock.position x.toNat) ∧
            u.shows .console (.clockSlip t.ticket s.clock.position x.toNat) ∧
            ∀ q : Port, u.shows q (.turnEnded t.ticket .complete)))

/-- SET-SLIP-WINDOW, on the playback port alone and in every clock state: the window is brought
into 0 to 200 and governs each later SYNC, which is ignored exactly within it; it is 20 ms after a
power-on reset and a session reset keeps it. -/
def Obligations.SlipWindowIsSet : Prop :=
  PermittedOn 0x25 [.playback] ∧
  (∀ (s : State) (p : Port) (x : BitVec 16), s.canTake (.setSlipWindow p x) = true →
    ∃ u, Runs (.setSlipWindow p x) [.clock] (if x.toNat ≤ 200 then .ok else .okClamped) [] s u ∧
      u.clock = { s.clock with slipWindow := min x.toNat 200 }) ∧
  (∀ (s : State) (p : Port) (x : BitVec 32), s.canTake (.sync p x) = true →
    s.clock.state = .running → x.toNat ≤ 3599999 → s.autoEnd = false →
    ∃ u, exec (.sync p x) s = .next u ∧ (u.clock.position = s.clock.position ↔
      ((x.toNat : Int) - s.clock.position).natAbs ≤ s.clock.slipWindow)) ∧
  (∀ s : State, ∃ u, exec .powerOnReset s = .next u ∧ u.clock.slipWindow = 20) ∧
  ∀ s : State, s.canTake (.sessionReset .venue) = true →
    ∃ u, exec (.sessionReset .venue) s = .next u ∧ u.clock.slipWindow = s.clock.slipWindow

/-- A timebase tick, in every state, answers a next state. Where an interval had run out and its row has
not come, the tick first makes what the rows would have made, in the order of log 11; where none had:
session time rises by 1 modulo 2^32, every running interval by 1 ms (the quiet times held at 3, 100
and 50 ms, the longest a rule asks for), and a RUNNING clock adds its tempo to the accumulator and
advances once for each full 1000, up to 3,599,999, where the accumulator is 0; an advance that passes
the END time with auto-end on ends the turn COMPLETE (the followers' order is log 15). A clock that is
not RUNNING, or stands at its limit, keeps all its values (that one which a SEEK or SYNC has put at the
limit does so is the model's choice, log 50). -/
def Obligations.TicksAdvanceTheClock : Prop :=
  (∀ s : State, ∃ u, exec .timebaseTick s = .next u) ∧
  (∀ s t : State, Ran intervalRows s t → t.upToDate →
    exec .timebaseTick s = exec .timebaseTick t) ∧
  ∀ s : State, s.clockAgrees → s.upToDate →
    ∃ u, exec .timebaseTick s = .next u ∧ u.sessionTime = s.sessionTime + 1 ∧
      u.pending = s.pending ∧ (∀ q : Port, (u.port q).reply = (s.port q).reply) ∧
      u.loop = { s.loop with
        quiet := min 3 (s.loop.quiet + 1), gapLeft := s.loop.gapLeft - 1
        exchange := match s.loop.exchange with
          | .window p n => .window p (n - 1)
          | x => x } ∧
      u.font = { s.font with
        store := match s.font.store with
          | .busy op n => .busy op (min 5000 (n + 1))
          | x => x } ∧
      u.video.inputQuiet = min 100 (s.video.inputQuiet + 1) ∧
      u.voice.quiet = min 50 (s.voice.quiet + 1) ∧ u.voice.frame = s.voice.frame ∧
      (∀ i : Fin 4, s.slots[i].state = .loading ∨ s.slots[i].state = .checking ∨
          s.slots[i].state = .scrub → (∀ t, s.turn = some t → t.slot ≠ i) →
        (u.slots[i].state = s.slots[i].state ∧ u.slots[i].timer = s.slots[i].timer - 1) ∨
        (u.slots[i].state = .scrub ∧
          ∃ e ∈ s.book.entries.drop s.depth, s.slots[i].ticket = some e.ticket)) ∧
      let show_ := s.lines.scoreShow.map fun x => { headline := x.headline, left := x.left - 1 }
      let total := s.clock.accumulator + s.clock.tempo
      let there := s.clock.position + total / 1000
      let ends := s.autoEnd = true ∧
        ∃ e, s.clock.endTime = some e ∧ s.clock.position < e ∧ e ≤ min there 3599999
      (s.clock.state ≠ .running ∨ s.clock.position = 3599999 →
        u.clock = s.clock ∧ u.turn = s.turn ∧ u.ring = s.ring ∧
        (∀ i : Fin 4, u.slots[i] = { s.slots[i] with timer := s.slots[i].timer - 1 }) ∧
        u.lines.scoreShow = show_) ∧
      (s.clock.state = .running → s.clock.position < 3599999 → ¬ ends →
        u.turn = s.turn ∧ u.ring = s.ring ∧ u.clock.state = .running ∧
        (there < 3599999 → u.clock.position = there ∧ u.clock.accumulator = total % 1000) ∧
        (3599999 ≤ there → u.clock.position = 3599999 ∧ u.clock.accumulator = 0) ∧
        u.clock = { s.clock with
          position := u.clock.position, accumulator := u.clock.accumulator
          interlude := u.clock.interlude } ∧
        (∀ i : Fin 4, u.slots[i] = { s.slots[i] with
          timer := s.slots[i].timer - 1, tallied := u.slots[i].tallied }) ∧
        u.lines.scoreShow = show_) ∧
      (s.clock.state = .running → s.clock.position < 3599999 → ends →
        u.turn = none ∧ u.clock.state = .stopped ∧ u.clock.position = 0 ∧
        ∀ t, s.turn = some t → ∃ r, u.ring.getLast? = some r ∧
          r.ticket = t.ticket ∧ r.reason = .complete ∧
          (u.lines.scoreShow = match r.headline with
            | none => show_
            | some h => if s.lines.scoreHold = 0 then show_
              else some { headline := h, left := s.lines.scoreHold }) ∧
          ∀ q : Port, u.shows q (.turnEnded t.ticket .complete))

/-- The tally of the open notes, as a jump and the end of a turn make it: every enabled channel that is
not frozen closes its open note by its counts (a note that carries a mark is not counted again), and
nothing else of any channel or mark changes. A jump, by SEEK or by SYNC beyond the slip window, that
does not end the turn makes this tally and no other. An advance by 1 that does not end the turn
tallies, for each such channel, the note of its assessed part with end + latency compensation at the
new position and no mark, open or not, with the counts it has; a channel that is off or frozen, or
with no such note, keeps its counts and marks. -/
def Obligations.TalliesFollowTheClock : Prop :=
  let mark := fun a h : Nat =>
    if a = 0 then TallyMark.empty else if 2 * h < a then .counted else .kept
  let closed := fun (c : Channel) (a h : Nat) => { c with
    notes := c.notes + (if a = 0 then 0 else 1)
    kept := c.kept + (if a = 0 ∨ 2 * h < a then 0 else 1) }
  (∀ (s : State) (t : Turn), s.turn = some t →
     let v := s.tallyAllOpen
     Touches [.slots, .voice] s v ∧ ∀ m : Fin 4,
       let c := s.voice.channels[m]
       (c.enabled = false ∨ c.frozen = true ∨ c.openNote = none →
         v.voice.channels[m] = c ∧ ∀ j, v.noteMark m j = s.noteMark m j) ∧
       (∀ o, c.enabled = true → c.frozen = false → c.openNote = some o →
         (s.noteMark m o.index ≠ none →
           v.voice.channels[m] = { c with openNote := none } ∧
           ∀ j, v.noteMark m j = s.noteMark m j) ∧
         (s.noteMark m o.index = none → o.index < s.slots[t.slot].tallied[m].length →
           v.voice.channels[m] = { closed c o.a o.h with openNote := none } ∧
           ∀ j, v.noteMark m j = if j = o.index then some (mark o.a o.h) else s.noteMark m j))) ∧
  (∀ (s : State) (p : Port) (x : BitVec 32) (i : Instr), s.canTake i = true → x.toNat ≤ 3599999 →
     (i = .seek p x ∧ s.clock.state ≠ .stopped ∧ x.toNat ≠ s.clock.position) ∨
       (i = .sync p x ∧ s.clock.state = .running ∧
         s.clock.slipWindow < ((x.toNat : Int) - s.clock.position).natAbs) →
     ¬ (s.autoEnd = true ∧ s.turn.isSome = true ∧
       ∃ e, s.clock.endTime = some e ∧ s.clock.position < e ∧ e ≤ x.toNat) →
     ∃ u, exec i s = .next u ∧ u.voice = s.tallyAllOpen.voice ∧
       u.slots = s.tallyAllOpen.slots) ∧
  ∀ (s : State) (t : Turn), s.upToDate → s.turn = some t → s.clock.state = .running →
    s.clock.position < 3599999 → 1000 ≤ s.clock.accumulator + s.clock.tempo →
    s.clock.accumulator + s.clock.tempo < 2000 →
    ¬ (s.autoEnd = true ∧ s.clock.endTime = some (s.clock.position + 1)) →
    ∃ u, exec .timebaseTick s = .next u ∧ u.turn = some t ∧ ∀ m : Fin 4,
      let c := s.voice.channels[m]
      let due := fun n : Note × Nat => n ∈ s.partNotes m ∧
        n.1.start + n.1.duration + s.voice.scoring.latency = s.clock.position + 1 ∧
        s.noteMark m n.2 = none
      (c.enabled = false ∨ c.frozen = true ∨ (∀ n, ¬ due n) →
        u.voice.channels[m] = c ∧ ∀ j, u.noteMark m j = s.noteMark m j) ∧
      ∀ n, c.enabled = true → c.frozen = false → due n → (∀ x, due x → x = n) →
        n.2 < s.slots[t.slot].tallied[m].length →
        let counts := match c.openNote with
          | none => (0, 0)
          | some o => if o.index = n.2 then (o.a, o.h) else (0, 0)
        u.voice.channels[m] = { closed c counts.1 counts.2 with
          openNote := c.openNote.filter fun o => o.index ≠ n.2 } ∧
        ∀ j, u.noteMark m j =
          if j = n.2 then some (mark counts.1 counts.2) else s.noteMark m j

/-! ## Lyric lines -/

/-- The effective bands: with the settings in range the layout fits the canvas, ALTERNATE has two
rows, and a value stands below its setting only where the next larger one, all values lowered
before it being at their least, would not fit. -/
def Obligations.EffectiveBandsFit : Prop :=
  ∀ l : LineScheduler, l.titleRowsSetting ≤ 2 → l.guideSetting ≤ 512 → l.guideSetting % 8 = 0 →
    2 ≤ l.lyricRows → l.lyricRows ≤ 4 →
    let h := if l.canvas = .hd720 then 720 else 1080
    let rows := if l.style = .scroll then l.lyricRows else 2
    let b := l.layout
    b.height = h ∧ b.width = (if l.canvas = .hd720 then 1280 else 1920) ∧
      56 * b.titleRows + 56 * b.rows + b.guide + 64 ≤ h ∧
      b.lyricTop + 56 * b.rows = b.guideTop ∧ b.guideTop + b.guide + 32 = h ∧
      b.guide % 8 = 0 ∧ b.guide ≤ l.guideSetting ∧ 2 ≤ b.rows ∧ b.rows ≤ rows ∧
      b.titleRows ≤ l.titleRowsSetting ∧
      (b.guide < l.guideSetting →
        h < 56 * l.titleRowsSetting + 56 * rows + (b.guide + 8) + 64) ∧
      (b.rows < rows → b.guide = 0 ∧ h < 56 * l.titleRowsSetting + 56 * (b.rows + 1) + 64) ∧
      (b.titleRows < l.titleRowsSetting →
        b.guide = 0 ∧ b.rows = 2 ∧ h < 56 * (b.titleRows + 1) + 112 + 64)

/-- SET-BANDS and SET-STYLE: the settings are brought into range, the reply carries them (SET-BANDS
with the effective values that result), and a rebuild is requested where the style, the rows
setting or the effective row count changes; a style outside its set is RANGE, the reply then without
values (the model's choice, log 51).
SET-LINE-TIMING, SET-LYRIC-COLOURS and SET-SCORE-HOLD: each value is brought into its range and
in force; a change of lead, hold or linger requests a rebuild, a change of the scroll time alone
does not. -/
def Obligations.LineSettingsAreSet : Prop :=
  (∀ (s : State) (p : Port),
     (∀ (t : Byte) (g : BitVec 16), s.canTake (.setBands p t g) = true →
       let title := min t.toNat 2
       let guide := 8 * (min g.toNat 512 / 8)
       let lines := { s.lines with titleRowsSetting := title, guideSetting := guide }
       ∃ u, Runs (.setBands p t g) [.lines, .cache]
           (if t.toNat ≤ 2 ∧ g.toNat ≤ 512 ∧ g.toNat % 8 = 0 then .ok else .okClamped)
           (BitVec.ofNat 8 title :: (be16 guide ++ BitVec.ofNat 8 lines.layout.titleRows ::
             BitVec.ofNat 8 lines.layout.rows :: be16 lines.layout.guide)) s u ∧
         u.lines.titleRowsSetting = title ∧ u.lines.guideSetting = guide ∧
         u.lines.layout = lines.layout ∧
         u.lines.rebuild =
           (s.lines.rebuild || decide (lines.layout.rows ≠ s.lines.layout.rows)) ∧
         u.lines.style = s.lines.style ∧ u.lines.lyricRows = s.lines.lyricRows ∧
         u.lines.pending = s.lines.pending) ∧
     ∀ t r : Byte, s.canTake (.setStyle p t r) = true →
       if 2 ≤ t.toNat then ∃ u, Runs (.setStyle p t r) [] .range [] s u
       else
         let style : Style := if t = 0 then .scroll else .alternate
         let rows := if r.toNat < 2 then 2 else min r.toNat 4
         ∃ u, Runs (.setStyle p t r) [.lines, .cache]
             (if 2 ≤ r.toNat ∧ r.toNat ≤ 4 then .ok else .okClamped) [t, BitVec.ofNat 8 rows] s u ∧
           u.lines.style = style ∧ u.lines.lyricRows = rows ∧
           (style ≠ s.lines.style ∨ rows ≠ s.lines.lyricRows → u.lines.rebuild = true) ∧
           (style = s.lines.style → rows = s.lines.lyricRows →
             u.lines.rebuild = s.lines.rebuild) ∧
           u.lines.titleRowsSetting = s.lines.titleRowsSetting ∧
           u.lines.guideSetting = s.lines.guideSetting ∧ u.lines.pending = s.lines.pending) ∧
  ∀ (s : State) (p : Port),
    (∀ (a b c : BitVec 16) (d : Byte), s.canTake (.setLineTiming p a b c d) = true →
      let lead := if a.toNat < 500 then 500 else min a.toNat 4000
      let hold := min b.toNat 2000
      let linger := min c.toNat 10000
      let scroll := min d.toNat 30
      ∃ u, Runs (.setLineTiming p a b c d) [.lines, .cache]
          (if 500 ≤ a.toNat ∧ a.toNat ≤ 4000 ∧ b.toNat ≤ 2000 ∧ c.toNat ≤ 10000 ∧ d.toNat ≤ 30
            then .ok else .okClamped)
          (be16 lead ++ be16 hold ++ be16 linger ++ [BitVec.ofNat 8 scroll]) s u ∧
        u.lines.lead = lead ∧ u.lines.hold = hold ∧ u.lines.linger = linger ∧
        u.lines.scrollTime = scroll ∧
        (if lead = s.lines.lead ∧ hold = s.lines.hold ∧ linger = s.lines.linger then
          u.lines = { s.lines with scrollTime := scroll } ∧ u.cache = s.cache
        else u.lines.rebuild = true ∧ u.lines.scroll = none)) ∧
    (∀ a b c d : Colour, s.canTake (.setLyricColours p a b c d) = true →
      ∃ u, Runs (.setLyricColours p a b c d) [.lines] .ok [] s u ∧
        u.lines = { s.lines with unsung := a, sungA := b, sungB := c, sungBoth := d }) ∧
    ∀ x : BitVec 16, s.canTake (.setScoreHold p x) = true →
      ∃ u, Runs (.setScoreHold p x) [.lines] (if x.toNat ≤ 10000 then .ok else .okClamped) [] s u ∧
        u.lines = { s.lines with scoreHold := min x.toNat 10000 }

/-- The events of a line: their times; those of one time are taken done, leave, start, post, prefetch,
each kind in track order, and none while a rebuild is requested or the stage is EMPTY; an advance by 1
takes those of its new position. With no line leaving and no linger mark: a posted line is placed, in
SCROLL in the lowest empty row, or else in the bottom row as a scroll starts if row 0 is DONE, in
ALTERNATE in row k mod 2 if that is empty or its line DONE, its pins taken in its order (log 55; those
of a line it replaces released first); else it waits, counted POST_LATE (also where it was posted
before a rewind: log 47), but not during a scroll. Start and done mark the line where it stands; a
done of row 0 lets a waiting line in. A leave drops a waiting line, marks a line to linger, starts a
scroll from row 0, and in ALTERNATE empties the row. A prefetch looks each distinct glyph up once. The
score show ends when its time is out and releases its pins. A scroll counts each frame latch and ends
at its last, made by that latch or ahead of it by its own row, which the field stepTwoMade tells (log
16): the LEAVING line has left the window, and with nothing pending and no linger mark on the new top
line the rest stays in its rows. -/
def Obligations.LinesArePlacedAndScroll : Prop :=
  (∀ (l : LineScheduler) (x : Line),
     l.eventTime x .prefetch = (x.start : Int) - l.lead - 1000 ∧
     l.eventTime x .post = (x.start : Int) - l.lead ∧ l.eventTime x .start = x.start ∧
     l.eventTime x .done = x.stop + l.hold ∧ l.eventTime x .leave = x.stop + l.hold + l.linger) ∧
  (∀ (s : State) (n : Nat),
     (s.lines.rebuild = true ∨ s.turn = none → s.lineEventsAt n = s) ∧
     (s.lines.rebuild = false → s.turn.isSome = true → s.lineEventsAt n =
       (([.done, .leave, .start, .post, .prefetch] : List LineEvent).flatMap fun e =>
         (s.stageLines.filter fun z => s.lines.eventTime z.1 e = (n : Int)).map fun z =>
           (e, z)).foldl (fun s z => s.takeLineEvent z.1 z.2) s)) ∧
  (∀ s : State, s.upToDate → s.clock.state = .running → s.clock.position < 3599999 →
     1000 ≤ s.clock.accumulator + s.clock.tempo → s.clock.accumulator + s.clock.tempo < 2000 →
     ¬ (s.autoEnd = true ∧ s.clock.endTime = some (s.clock.position + 1)) →
     ∃ s' u : State, exec .timebaseTick s = .next u ∧
       Touches [.sessionTime, .loop, .slots, .lines, .font, .video, .voice, .clock] s s' ∧
       s'.font.store.place = s.font.store.place ∧ s'.video.postLate = s.video.postLate ∧
       s'.stageLines = s.stageLines ∧
       s'.lines = { s.lines with scoreShow := s.lines.scoreShow.map fun x =>
         { headline := x.headline, left := x.left - 1 } } ∧
       let v := s'.lineEventsAt (s.clock.position + 1)
       u.lines = v.lines ∧ u.cache = v.cache ∧ u.video = v.video) ∧
  (∀ (s : State) (x : Line) (k : Nat), s.lines.scroll = none → s.lines.pending = [] →
     (∀ w ∈ s.lines.window, w.state ≠ .leaving ∧ w.linger = false) →
     let l := s.lines
     let pinned := fun c : Cache => (s.lineCodes k).foldl (Cache.lookupPin s.font.store) c
     let new := fun (r : Nat) (st : LineState) => ({ index := k, row := r, state := st
                                                     clipped := false, linger := false
                                                     pins := s.lineCodes k } : WindowLine)
     let entered := fun (old : List WindowLine) (w : WindowLine) (result : List WindowLine) =>
       ∃ a b, old = a ++ b ∧ result = a ++ w :: b ∧ (∀ y ∈ a, y.row < w.row) ∧
         ∀ y, b.head? = some y → w.row ≤ y.row
     let up := fun w : WindowLine =>
       if w.row = 0 then { w with state := .leaving } else { w with row := w.row - 1 }
     let full := 0 < l.layout.rows ∧ ∀ r, r < l.layout.rows → ∃ w ∈ l.window, w.row = r
     -- post
     ((∀ w ∈ l.window, w.index ≠ k) →
       let u := s.takeLineEvent .post (x, k)
       let waits := u = { s with
         lines := { l with pending := [{ index := k, state := .posted }] }
         video := { s.video with postLate := min 255 (s.video.postLate + 1) } }
       (l.style = .scroll →
         (∀ r, r < l.layout.rows → (∀ w ∈ l.window, w.row ≠ r) →
           (∀ q, q < r → ∃ w ∈ l.window, w.row = q) →
           entered l.window (new r .posted) u.lines.window ∧
           u = { s with lines := { l with window := u.lines.window }, cache := pinned s.cache }) ∧
         (full → (∀ w ∈ l.window, w.row < l.layout.rows ∧ (w.row = 0 → w.state = .done)) →
           (0 < l.scrollTime → u = { s with
             lines := { l with
               window := l.window.map up ++ [new (l.layout.rows - 1) .posted]
               scroll := some { total := l.scrollTime, done := 0 } }
             cache := pinned s.cache }) ∧
           (l.scrollTime = 0 → u = { s with
             lines := { l with
               window := (l.window.filter fun w => w.row ≠ 0).map up ++
                 [new (l.layout.rows - 1) .posted] }
             cache := ((l.window.filter fun w => w.row = 0).flatMap fun w => w.pins).foldl
               Cache.release (pinned s.cache) })) ∧
         (full → (∀ w ∈ l.window, w.row = 0 → w.state ≠ .done) → waits)) ∧
       (l.style = .alternate →
         ((∀ w ∈ l.window, w.row ≠ k % 2) →
           entered l.window (new (k % 2) .posted) u.lines.window ∧
           u = { s with lines := { l with window := u.lines.window }, cache := pinned s.cache }) ∧
         ∀ ahead w behind, l.window = ahead ++ w :: behind → w.row = k % 2 →
           (∀ y ∈ ahead ++ behind, y.row ≠ k % 2 ∧ y.index ≠ w.index) →
           (w.state = .done →
             entered (ahead ++ behind) (new (k % 2) .posted) u.lines.window ∧
             u = { s with lines := { l with window := u.lines.window }
                          cache := pinned (w.pins.foldl Cache.release s.cache) }) ∧
           (w.state ≠ .done → waits))) ∧
     -- start, done and prefetch
     s.takeLineEvent .start (x, k) = { s with lines := { l with window := l.window.map fun w =>
       if w.index = k ∧ w.state = .posted then { w with state := .singing } else w } } ∧
     s.takeLineEvent .done (x, k) = { s with lines := { l with window := l.window.map fun w =>
       if w.index = k ∧ (w.state = .posted ∨ w.state = .singing) then
         { w with state := .done } else w } } ∧
     s.takeLineEvent .prefetch (x, k) = { s with
       cache := x.codes.eraseDups.foldl (Cache.prefetch s.font.store) s.cache } ∧
     -- leave
     (l.style = .alternate → s.takeLineEvent .leave (x, k) = { s with
       lines := { l with window := l.window.filter fun w => w.index ≠ k }
       cache := ((l.window.filter fun w => w.index = k).flatMap fun w => w.pins).foldl
         Cache.release s.cache }) ∧
     (l.style = .scroll → (∀ w ∈ l.window, w.index = k → w.row ≠ 0) →
       s.takeLineEvent .leave (x, k) = { s with lines := { l with window := l.window.map fun w =>
         if w.index = k then { w with linger := true } else w } }) ∧
     (l.style = .scroll → 0 < l.scrollTime → (∃ w ∈ l.window, w.index = k) →
       (∀ w ∈ l.window, w.index = k ↔ w.row = 0) →
       s.takeLineEvent .leave (x, k) = { s with lines := { l with
         window := l.window.map fun w =>
           if w.row = 0 then { w with state := .leaving, linger := true }
           else { w with row := w.row - 1 }
         scroll := some { total := l.scrollTime, done := 0 } } }) ∧
     -- the done event of the line in row 0, a line waiting
     ∀ (z : PendingLine) (j : Nat), l.style = .scroll → z.index = k → j ≠ k →
       0 < l.scrollTime → full →
       (∀ w ∈ l.window, w.row < l.layout.rows ∧ (w.index = j ↔ w.row = 0)) →
       State.takeLineEvent { s with lines := { l with pending := [z] } } .done (x, j) = { s with
         lines := { l with
           window := l.window.map up ++ [new (l.layout.rows - 1) z.state]
           scroll := some { total := l.scrollTime, done := 0 } }
         cache := pinned s.cache }) ∧
  (∀ (s : State) (x : Line) (k : Nat) (sc : Scroll), s.lines.scroll = some sc → sc.done < sc.total →
     let l := s.lines
     (l.holds k = false → s.takeLineEvent .post (x, k) =
       { s with lines := { l with pending := l.pending ++ [{ index := k, state := .posted }] } }) ∧
     (l.style = .scroll → s.takeLineEvent .leave (x, k) = { s with lines := { l with
       pending := l.pending.filter fun w => w.index ≠ k
       window := l.window.map fun w =>
         if w.index = k then { w with linger := true } else w } }) ∧
     s.takeLineEvent .done (x, k) = { s with lines := { l with
       window := l.window.map fun w =>
         if w.index = k ∧ (w.state = .posted ∨ w.state = .singing) then
           { w with state := .done } else w
       pending := l.pending.map fun w =>
         if w.index = k ∧ (w.state = .posted ∨ w.state = .singing) then
           { w with state := .done } else w } }) ∧
  (∀ (s : State) (sc : Scroll), s.lines.scroll = some sc → s.lines.rebuild = false →
     ∃ u, exec .frameLatch s = .next u ∧
       (s.lines.stepTwoMade = true ∨ sc.done + 1 < sc.total →
         u.lines = { s.lines with
           window := u.lines.window, stepTwoMade := false
           scroll := some { sc with done :=
             if s.lines.stepTwoMade = true then sc.done else sc.done + 1 } } ∧
         (u.lines.window.map fun w => { w with clipped := false }) =
           s.lines.window.map fun w => { w with clipped := false })) ∧
  (∀ (s : State) (h : Nat), s.lines.scoreShow = some { headline := h, left := 0 } →
    exec .scoreShowExpiry s = .next { s with
      lines := { s.lines with scoreShow := none }
      cache := (headlineText h).foldl Cache.release s.cache }) ∧
  ∀ (s : State) (sc : Scroll), s.lines.scroll = some sc → sc.total ≤ sc.done + 1 →
    s.lines.rebuild = false → s.lines.stepTwoMade = false → s.lines.pending = [] →
    (∀ x ∈ s.lines.window, x.state ≠ .leaving → x.row = 0 → x.linger = false) →
    let window := s.lines.window.filter fun x => x.state ≠ .leaving
    (∃ u, exec .scrollComplete s = .next u ∧ Touches [.lines, .cache] s u ∧
      u.lines = { s.lines with window := window, scroll := none, stepTwoMade := true } ∧
      u.cache = ((s.lines.window.filter fun x => x.state = .leaving).flatMap (·.pins)).foldl
        Cache.release s.cache) ∧
    ∃ u, exec .frameLatch s = .next u ∧ u.lines.pending = [] ∧ u.lines.scroll = none ∧
      u.lines.stepTwoMade = false ∧
      (u.lines.window.map fun w => { w with clipped := false }) =
        window.map fun w => { w with clipped := false }

/-- A frame latch, after the rebuild and the scroll's count, which it does not make again where
SCROLL_COMPLETE has made it (stepTwoMade, log 16): it captures the clock's position, the settings and
the layout, black beneath exactly in NO_INPUT (log 52); the lyric glyphs, line by line of the window,
each placed after the one before by the advances held at the latch, centred or from x = 64 on, at the
row's height and the scroll's offset (56 at a scroll's own start: log 41), split at the wipe's column
(log 42), in the colours of the line's part, exchanged under INVERT, kept where the cell reaches into
the band and left of W - 64 (log 27); and the title rows, laid out as lines in the unsung colour. It
keys exactly when the path is LOCKED or in NO_INPUT, the power ACTIVE, the switch on and the content
not BLANK, over the bands in scope with a height, keeps what it keyed, and leaves no rebuild pending.
The marks and counts, for bands keyed with content NORMAL alone: each FETCHING entry drawn without a
bitmap whose late mark is clear, and each line drawn clipped whose clipped mark is clear, is marked
and counted once, up to 255; nothing else of cache, lines and Compositor changes. -/
def Obligations.FrameLatchCapturesTheOverlay : Prop :=
  ∀ s : State,
    let v := if s.lines.stepTwoMade then s.makeRebuild else s.makeRebuild.countScroll
    let lay := s.lines.layout
    let t := s.clock.position
    let held := fun k : Code => (v.cache.find k).bind fun i => (v.cache.entry i).bitmap
    let advance := fun k : Code => ((held k).map (·.advance)).getD 32
    let drawn := fun k : Code => ((held k).map fun b => Drawn.coverage b.coverage).getD .blank
    let width := fun codes : List Code => (codes.map advance).sum
    let left := fun w : Nat =>
      if w ≤ lay.width - 128 then 64 + (lay.width - 128 - w) / 2 else 64
    let clip : Int := (lay.width - 64 : Nat)
    let bottom : Int := lay.lyricTop + 56 * (lay.rows : Int)
    -- the cells of a lyric line of the window
    let cells := fun (line : Line) (x : WindowLine) =>
      let part := match line.tag with
        | .a => s.lines.sungA
        | .b => s.lines.sungB
        | .both => s.lines.sungBoth
      let offset : Nat := (v.lines.scroll.map fun z => 56 * (z.total - z.done) / z.total).getD 0
      let row : Int := if x.state = .leaving then -1 else x.row
      (line.syllables.zipIdx.flatMap fun z =>
        let w := width z.1.glyphs
        let edge := left (width line.codes) +
          width ((line.syllables.take z.2).flatMap fun y => y.glyphs)
        let sung : Int :=
          if z.1.duration = 0 then (if t < z.1.start then 0 else w)
          else max 0 (min w (w * ((t : Int) - z.1.start) / z.1.duration))
        z.1.glyphs.zipIdx.map fun g =>
          { code := g.1, x := edge + width (z.1.glyphs.take g.2)
            y := lay.lyricTop + 56 * row + offset + 4, drawn := drawn g.1, split := edge + sung
            sung := if s.video.invert then s.lines.unsung else part
            unsung := if s.video.invert then part else s.lines.unsung, clip := clip }).filter
        fun g : GlyphBox =>
          decide (g.x < clip) && decide (g.y < bottom) && decide ((lay.lyricTop : Int) < g.y + 48)
    let lineAt := fun n : Nat =>
      (s.turn.bind fun turn => s.slots[turn.slot].track).bind fun track => track.lines[n]?
    let cellsOf := fun x : WindowLine => ((lineAt x.index).map fun l => cells l x).getD []
    ∃ u f, exec .frameLatch s = .next u ∧ Touches [.lines, .cache, .video] s u ∧
      u.video.frame = some f ∧ u.lines.rebuild = false ∧ u.lines.stepTwoMade = false ∧
      f.position = t ∧ f.black = decide (s.video.path = .noInput) ∧
      f.layout = lay ∧ f.planeOpacity = s.video.planeOpacity ∧
      f.shade = s.video.shade ∧ f.shadeOpacity = s.video.shadeOpacity ∧ f.fill = s.video.fill ∧
      f.fillContent = decide (s.video.content = .fill) ∧ f.mark = s.video.fmark ∧
      f.lyricGlyphs = v.lines.window.flatMap cellsOf ∧
      (f.titleGlyphs = s.lines.titleRows.zipIdx.flatMap fun r =>
        (r.1.zipIdx.map fun g =>
          { code := g.1, x := (left (width r.1) + width (r.1.take g.2) : Nat)
            y := (32 + 56 * r.2 + 4 : Nat), drawn := drawn g.1, split := left (width r.1)
            sung := s.lines.unsung, unsung := s.lines.unsung, clip := clip }).filter
          fun g : GlyphBox => decide (g.x < clip)) ∧
      u.video.lastKeyed = f.keyed ∧
      (f.keyed = if (s.video.path = .locked ∨ s.video.path = .noInput) ∧ s.video.power = .active ∧
          s.video.switch = true ∧ s.video.content ≠ .blank then
        some { title := decide (s.video.scope = .full ∧ lay.titleRows ≠ 0)
               lyric := true
               guide := decide (s.video.scope = .full ∧ lay.guide ≠ 0) }
        else none) ∧
      let drawnBands : Bands := match f.keyed with
        | some b => if s.video.content = .normal then b else ⟨false, false, false⟩
        | none => ⟨false, false, false⟩
      let shown := (if drawnBands.title then f.titleGlyphs else []) ++
        (if drawnBands.lyric then f.lyricGlyphs else []) ++
        (if drawnBands.guide then f.guideGlyphs else [])
      let late := fun i : Nat =>
        (shown.any fun g => decide (v.cache.find g.code = some i)) &&
          (v.cache.entry i).isFetching && (v.cache.entry i).bitmap.isNone &&
          !(v.cache.entry i).late
      let clippedNow := fun x : WindowLine =>
        drawnBands.lyric && !x.clipped && !(cellsOf x).isEmpty &&
        decide (lay.width - 128 < width (((lineAt x.index).map Line.codes).getD []))
      u.cache = { v.cache with
        entries := v.cache.entries.zipIdx.map fun e =>
          if late e.2 then { e.1 with late := true } else e.1 } ∧
      u.lines = { v.lines with
        stepTwoMade := false
        window := v.lines.window.map fun y =>
          if v.lines.window.any fun x => decide (x.index = y.index) && clippedNow x then
            { y with clipped := true }
          else y } ∧
      (s.video.glyphLate ≤ 255 → u.video.glyphLate = min 255 (s.video.glyphLate +
        ((List.range v.cache.entries.length).filter late).length)) ∧
      (s.video.lineClipped ≤ 255 →
        u.video.lineClipped =
          min 255 (s.video.lineClipped + (v.lines.window.filter clippedNow).length)) ∧
      u.video = { s.video with
        glyphLate := u.video.glyphLate, lineClipped := u.video.lineClipped
        lastKeyed := u.video.lastKeyed, frame := u.video.frame }

/-- A rebuild, made at a frame latch: in SCROLL the last lines, as many as there are rows, whose post
time is at or below the position and whose leave time is above it stand in rows 0 upward, in ALTERNATE
the last such line of each row, each in the state the position calls for and holding one pin per
glyph, its clipped mark kept if it stood in the window and else clear; nothing is pending and no
scroll is in motion. In the cache the lines gone give up their pins, then the lines newly kept take
theirs, row 0's first (in ALTERNATE log 49; a line's own in its order, log 55), then each line between
its prefetch and post times, in track order, makes a prefetch lookup for each of its codes once.
Nothing else changes. -/
def Obligations.RebuildShowsTheLinesDue : Prop :=
  ∀ (s : State) (t : Turn) (track : Track), s.lines.rebuild = true → s.turn = some t →
    s.slots[t.slot].track = some track →
    let x := s.clock.position
    let l := s.lines
    let due := track.lines.zipIdx.filter fun z =>
      decide (z.1.start ≤ x + l.lead) && decide (x < z.1.stop + l.hold + l.linger)
    let rows : List (Line × Nat) := match l.style with
      | .scroll => due.drop (due.length - l.layout.rows)
      | .alternate => ((due.filter fun z => z.2 % 2 = 0).getLast?.toList ++
          (due.filter fun z => z.2 % 2 = 1).getLast?.toList)
    let window := rows.zipIdx.map fun z : (Line × Nat) × Nat =>
      { index := z.1.2
        row := match l.style with
          | .scroll => z.2
          | .alternate => z.1.2 % 2
        state := if x < z.1.1.start then .posted
          else if x < z.1.1.stop + l.hold then .singing else .done
        clipped := l.window.any fun w => w.index = z.1.2 && w.clipped
        linger := false, pins := z.1.1.codes : WindowLine }
    let gone := l.window.filter fun w => !(rows.any fun z => z.2 = w.index)
    let new := rows.filter fun z => !(l.window.any fun w => w.index = z.2)
    let coming := track.lines.filter fun y =>
      decide (y.start ≤ x + l.lead + 1000) && decide (x + l.lead < y.start)
    let released := (gone.flatMap fun w => w.pins).foldl Cache.release s.cache
    let pinned := (new.flatMap fun z => z.1.codes).foldl (Cache.lookupPin s.font.store) released
    let v := s.makeRebuild
    Touches [.lines, .cache] s v ∧
    v.lines = { l with window := window, pending := [], scroll := none, rebuild := false } ∧
    v.cache = (coming.flatMap fun y => y.codes.eraseDups).foldl (Cache.prefetch s.font.store)
      pinned ∧
    ∃ u, exec .frameLatch s = .next u ∧ u.lines.pending = [] ∧ u.lines.scroll = none ∧
      u.lines.window.map (fun w => (w.index, w.row, w.state, w.linger, w.pins)) =
        window.map (fun w => (w.index, w.row, w.state, w.linger, w.pins)) ∧
      (u.video.lastKeyed = none ∨ s.video.content ≠ .normal → u.lines.window = window) ∧
      u.cache.recency = v.cache.recency ∧ u.cache.fetchOrder = v.cache.fetchOrder ∧
      u.cache.inProgress = v.cache.inProgress ∧
      ∀ i, u.cache.entry i = { v.cache.entry i with late := (u.cache.entry i).late }

/-! ## Glyph cache and font store -/

/-- Lookups, releases and prefetches of the cache, where it holds 640 entries. A lookup with pin of a
held code adds a pin, makes the entry most recent, and turns PREFETCH into DEMAND at its place in the
order of fetches, or a STALE entry, the store READY, into the last DEMAND fetch. One of a code not held
takes the lowest FREE entry, or else the least recent one neither pinned nor FETCHING; the font
store's state says what it becomes, and a fetch stands last in the order. A release takes a pin away;
where the last goes, a fetch not begun is withdrawn, while a RESIDENT or STALE entry and a fetch in
progress stay as they are. A prefetch takes no pin: of a held code it makes the entry most recent (in
every state of the store: log 48), else it queues a fetch, last, while fewer than 64 are in class
PREFETCH and the store is SCANNING or READY. -/
def Obligations.CacheLookupsTakeAndKeepEntries : Prop :=
  ∀ (c : Cache) (k : Code) (store : StoreState), c.entries.length = 640 →
    (∀ i, c.find k = some i → i < 640 →
      let e := c.entry i
      let d := c.lookupPin store k
      d.entry i = { e with
        pins := e.pins + 1
        state := if e.state = .fetching .prefetch ∨ (e.state = .stale ∧ store = .ready) then
          .fetching .demand else e.state } ∧
      d.recency = c.recency.filter (· ≠ i) ++ [i] ∧
      d.fetchOrder = (if e.state = .stale ∧ store = .ready then
        c.fetchOrder.filter (· ≠ i) ++ [i] else c.fetchOrder) ∧
      (∀ j, j ≠ i → d.entry j = c.entry j) ∧ d.inProgress = c.inProgress ∧
      c.prefetch store k = { c with recency := c.recency.filter (· ≠ i) ++ [i] } ∧
      (1 < e.pins ∨ (e.pins = 1 ∧
          (c.inProgress = some i ∨ ∀ cls, e.state ≠ .fetching cls)) →
        c.release k = c.setEntry i { e with pins := e.pins - 1 }) ∧
      (e.pins = 1 → c.inProgress ≠ some i → (∃ cls, e.state = .fetching cls) →
        let r := c.release k
        r.entry i =
          (if e.bitmap.isSome then { e with pins := 0, state := .stale } else CacheEntry.empty) ∧
        r.fetchOrder = c.fetchOrder.filter (· ≠ i) ∧
        r.recency = (if e.bitmap.isSome then c.recency else c.recency.filter (· ≠ i)) ∧
        r.inProgress = c.inProgress ∧ ∀ j, j ≠ i → r.entry j = c.entry j)) ∧
    (c.find k = none → c.release k = c ∧ ∀ i, i < 640 →
      ((c.entry i).state = .free ∧ ∀ j, j < i → (c.entry j).state ≠ .free) ∨
        ((∀ j, j < 640 → (c.entry j).state ≠ .free) ∧
          ∃ before after, c.recency = before ++ i :: after ∧
            (c.entry i).pins = 0 ∧ (c.entry i).isFetching = false ∧
            ∀ j ∈ before, 0 < (c.entry j).pins ∨ (c.entry j).isFetching = true) →
      let d := c.lookupPin store k
      let p := c.prefetch store k
      (∀ j, j ≠ i → d.entry j = c.entry j) ∧ d.inProgress = c.inProgress ∧
      d.recency = c.recency.filter (· ≠ i) ++ [i] ∧
      d.fetchOrder = (if store = .scanning ∨ store = .ready then
        c.fetchOrder.filter (· ≠ i) ++ [i] else c.fetchOrder) ∧
      d.entry i = { code := some k, pins := 1, late := false
                    state := match store with
                      | .scanning | .ready => .fetching .demand
                      | .absent => .resident
                      | .maintenance | .busy _ _ => .stale
                    bitmap := match store with
                      | .scanning | .ready => none
                      | .absent | .maintenance | .busy _ _ =>
                        some { coverage := .substitute, advance := 24 }
                    substitute := match store with
                      | .scanning | .ready => false
                      | .absent | .maintenance | .busy _ _ => true } ∧
      (if (store = .scanning ∨ store = .ready) ∧
          (c.entries.filter fun e => e.state = .fetching .prefetch).length < 64 then
        p.entry i = { code := some k, state := .fetching .prefetch, bitmap := none
                      substitute := false, pins := 0, late := false } ∧
          p.fetchOrder = c.fetchOrder.filter (· ≠ i) ++ [i] ∧
          p.recency = c.recency.filter (· ≠ i) ++ [i] ∧ p.inProgress = c.inProgress ∧
          ∀ j, j ≠ i → p.entry j = c.entry j
      else p = c))

/-- A fetch starts for the earliest waiting DEMAND entry, or else the earliest PREFETCH entry, when
none is in progress, the store READY, the power ACTIVE and no maintenance waits, and at no other time;
for a code at or above the glyph count it completes in the same step with the substitute. A fetch's
completion gives the record's coverage and advance, brought into 4 to 32, or the substitute for a code
at or above the glyph count or a record not PRESENT, and leaves pins and recency. The substitute is a
hollow rectangle at full coverage, its place in the cell being a free value (log 4). -/
def Obligations.GlyphFetchesAreServed : Prop :=
  (∀ (s : State) (i : Nat) (k : Code) (h : FontHeader), s.cache.inProgress = none →
    s.font.store = .ready → s.font.maintWanted = false → s.video.power = .active →
    (s.cache.entry i).code = some k → s.font.header = some h →
    (∃ before after, s.cache.fetchOrder = before ++ i :: after ∧
      (((s.cache.entry i).state = .fetching .demand ∧
          ∀ j ∈ before, (s.cache.entry j).state ≠ .fetching .demand) ∨
        ((s.cache.entry i).state = .fetching .prefetch ∧
          (∀ j ∈ before, (s.cache.entry j).state ≠ .fetching .prefetch) ∧
          ∀ j ∈ s.cache.fetchOrder, (s.cache.entry j).state ≠ .fetching .demand))) →
    (k.toNat < h.glyphCount →
      exec .glyphFetchStart s = .next { s with cache := { s.cache with inProgress := some i } }) ∧
    (h.glyphCount ≤ k.toNat →
      ∃ u, exec .glyphFetchStart s = .next u ∧ Touches [.cache] s u ∧
        u.cache.inProgress = none ∧ u.cache.recency = s.cache.recency ∧
        u.cache.fetchOrder = s.cache.fetchOrder.filter (· ≠ i) ∧
        (∀ j, j ≠ i → u.cache.entry j = s.cache.entry j) ∧
        u.cache.entry i = { s.cache.entry i with
          state := .resident, late := false, substitute := true
          bitmap := some { coverage := .substitute, advance := 24 } })) ∧
  (∀ s : State, s.cache.inProgress ≠ none ∨ s.font.store ≠ .ready ∨ s.font.maintWanted = true ∨
      s.video.power ≠ .active ∨
      (∀ i ∈ s.cache.fetchOrder, ∀ cls, (s.cache.entry i).state ≠ .fetching cls) →
    exec .glyphFetchStart s = .next s) ∧
  (∀ s : State, s.cache.inProgress = none → exec .glyphFetchComplete s = .next s) ∧
  (∃ left holeLeft holeRight right top holeTop holeBottom bottom : Nat,
    left < holeLeft ∧ holeLeft < holeRight ∧ holeRight < right ∧ right ≤ 32 ∧
    top < holeTop ∧ holeTop < holeBottom ∧ holeBottom < bottom ∧ bottom ≤ 48 ∧
    ∀ x y : Nat, Coverage.substitute.level x y =
      if (left ≤ x ∧ x < right ∧ top ≤ y ∧ y < bottom) ∧
          ¬ (holeLeft ≤ x ∧ x < holeRight ∧ holeTop ≤ y ∧ y < holeBottom) then 3 else 0) ∧
  ∀ (s : State) (i : Nat) (k : Code) (h : FontHeader), s.cache.inProgress = some i →
    i < s.cache.entries.length → (s.cache.entry i).code = some k → s.font.header = some h →
    let at_ := h.tableBase + k.toNat * 388
    let there := k.toNat < h.glyphCount ∧ (Memory.read s.flash at_).toNat % 2 = 1
    let advance := (Memory.read s.flash (at_ + 1)).toNat
    ∃ u, exec .glyphFetchComplete s = .next u ∧ Touches [.cache] s u ∧
      u.cache.inProgress = none ∧ u.cache.recency = s.cache.recency ∧
      u.cache.fetchOrder = s.cache.fetchOrder.filter (· ≠ i) ∧
      (∀ j, j ≠ i → u.cache.entry j = s.cache.entry j) ∧
      u.cache.entry i = { s.cache.entry i with
        state := .resident, late := false, substitute := decide (¬ there)
        bitmap := some (if there then
            { coverage := .record (Memory.bytes s.flash (at_ + 4) 384)
              advance := if advance < 4 then 4 else min advance 32 }
          else { coverage := .substitute, advance := 24 }) }

/-- The completion of a scan: READY with the header's values when signature, version, glyph count,
size and table are valid, every pinned STALE entry going to FETCHING; ABSENT otherwise, every STALE
and FETCHING entry becoming the substitute, its late mark cleared (the model's choice, log 43). FONT_DONE goes to the venue after FONT-MAINT-END, and a
WAKING overlay becomes ACTIVE. -/
def Obligations.ScansFindTheFont : Prop :=
  ∀ s : State, s.font.store = .scanning →
    let byte := fun a => (Memory.read s.flash a).toNat
    let count := byte 6 * 256 + byte 7
    let base := ((byte 8 * 256 + byte 9) * 256 + byte 10) * 256 + byte 11
    let size := byte 5
    let valid := byte 0 = 0x55 ∧ byte 1 = 0x46 ∧ byte 2 = 0x46 ∧ byte 3 = 0x4E ∧ byte 4 = 1 ∧
      1 ≤ count ∧ (size = 4 ∨ size = 8 ∨ size = 16 ∨ size = 32 ∨ size = 64) ∧
      base + count * 388 ≤ size * 1048576
    ∃ u, exec .fontScanComplete s = .next u ∧ Touches [.font, .cache, .video, .notices] s u ∧
      u.font = { s.font with
        store := if valid then .ready else .absent, maintScan := false
        header := if valid then some ⟨count, base, size⟩ else none } ∧
      (s.font.maintScan = true →
        u.shows .venue (.fontDone (if valid then .ready else .absent) s.font.fault)) ∧
      (s.font.maintScan = false → Touches [.font, .cache, .video] s u) ∧
      u.video = { s.video with
        power := if s.video.power = .waking ∧ s.video.path ≠ .changeover then .active
          else s.video.power } ∧
      (¬ valid → u.cache.fetchOrder = [] ∧ u.cache.recency = s.cache.recency ∧
        u.cache.entries = s.cache.entries.map fun e =>
          if e.state = .stale ∨ e.isFetching = true then
            { e with state := .resident, substitute := true, late := false
                     bitmap := some { coverage := .substitute, advance := 24 } }
          else e) ∧
      (valid → s.cache.recency.Nodup → (∀ i ∈ s.cache.recency, i < s.cache.entries.length) →
        (∀ i ∈ s.cache.fetchOrder, (s.cache.entry i).state ≠ .stale) →
        u.cache.recency = s.cache.recency ∧
        (∀ i ∈ s.cache.recency, u.cache.entry i =
          if (s.cache.entry i).state = .stale ∧ 0 < (s.cache.entry i).pins then
            { s.cache.entry i with state := .fetching .demand } else s.cache.entry i) ∧
        u.cache.fetchOrder = s.cache.fetchOrder ++ s.cache.recency.filter fun i =>
          (s.cache.entry i).state = .stale && decide (0 < (s.cache.entry i).pins))

/-- Maintenance: FONT-MAINT-BEGIN, in READY and ABSENT, waits unanswered while a fetch is in progress
and else enters MAINTENANCE and answers in its own step (deduced, log 22), as the end of the wait
does; a FETCHING DEMAND entry then becomes STALE, its late mark kept (the model's choice, log 43);
FONT-MAINT-END clears the latch, makes RESIDENT entries STALE and starts the scan; FONT-WRITE-ENABLE
and FONT-PROTECT set the latch and the level. Each is refused STATE, BUSY or RANGE in the states the
table gives. -/
def Obligations.MaintenanceIsEnteredAndLeft : Prop :=
  (∀ (s : State) (p : Port), s.canTake (.fontMaintBegin p) = true →
    (s.font.store = .ready ∨ s.font.store = .absent →
      (s.cache.inProgress.isSome = true → ∃ u, exec (.fontMaintBegin p) s = .next u ∧
        Touches [.font, .links] s u ∧ u.font = { s.font with maintWanted := true } ∧
        (u.port p).link = .waiting ∧
        (∀ q, q ≠ p → u.port q = s.port q)) ∧
      (s.cache.inProgress = none → ∃ u, Runs (.fontMaintBegin p) [.font, .cache] .ok [] s u ∧
        u.font = { s.font with store := .maintenance, latch := false, fault := false
                               maintWanted := false } ∧
        u.cache = s.cache.atMaintenance)) ∧
    (s.font.store = .scanning ∨ s.font.store = .maintenance →
      ∃ u, Runs (.fontMaintBegin p) [] .state [] s u) ∧
    (∀ op n, s.font.store = .busy op n → ∃ u, Runs (.fontMaintBegin p) [] .busy [] s u)) ∧
  (∀ s : State, s.font.maintWanted = true → s.cache.inProgress = none →
    ∃ u, exec .maintenanceEntry s = .next u ∧ Touches [.font, .cache, .links] s u ∧
      u.font = { s.font with store := .maintenance, latch := false, fault := false
                             maintWanted := false } ∧
      u.cache = s.cache.atMaintenance ∧ Answers .venue 0x2E .ok [] s u) ∧
  (∀ (c : Cache) (i : Nat), (c.atMaintenance.entries[i]?) = (c.entries[i]?).map fun e =>
    match e.state, e.bitmap with
    | .fetching .prefetch, _ => CacheEntry.empty
    | .fetching .demand, none =>
      { e with state := .stale, substitute := true
               bitmap := some { coverage := .substitute, advance := 24 } }
    | .fetching .demand, some _ => { e with state := .stale }
    | _, _ => e) ∧
  ∀ (s : State) (p : Port),
    (s.canTake (.fontMaintEnd p) = true →
      match s.font.store with
      | .maintenance => ∃ u, Runs (.fontMaintEnd p) [.font, .cache] .ok [] s u ∧
          u.font = { s.font with store := .scanning, latch := false, maintScan := true } ∧
          u.cache = { s.cache with entries := s.cache.entries.map fun e =>
            if e.state = .resident then { e with state := .stale } else e }
      | .busy _ _ => ∃ u, Runs (.fontMaintEnd p) [] .busy [] s u
      | _ => ∃ u, Runs (.fontMaintEnd p) [] .state [] s u) ∧
    (s.canTake (.fontWriteEnable p) = true →
      match s.font.store with
      | .maintenance => ∃ u, Runs (.fontWriteEnable p) [.font] .ok [] s u ∧
          u.font = { s.font with latch := true }
      | .busy _ _ => ∃ u, Runs (.fontWriteEnable p) [] .busy [] s u
      | _ => ∃ u, Runs (.fontWriteEnable p) [] .state [] s u) ∧
    ∀ v : Byte, s.canTake (.fontProtect p v) = true →
      match s.font.store with
      | .busy _ _ => ∃ u, Runs (.fontProtect p v) [] .busy [] s u
      | _ =>
        if 4 ≤ v.toNat then ∃ u, Runs (.fontProtect p v) [] .range [] s u
        else ∃ u, Runs (.fontProtect p v) [.font] .ok [] s u ∧
          u.font = { s.font with protection := u.font.protection } ∧
          u.font.protection.place = v.toNat

/-- FONT-PROGRAM and FONT-ERASE: their checks in order, and the operation started; the flash itself is
not changed by the command.
The end of a flash operation: done, a program leaves each byte it names holding the old value ANDed
with the new and an erase leaves 0xFF; abandoned after 5 s, the bytes named are free values (log 2)
and the fault flag is set. Either way the latch is clear, the store is in MAINTENANCE, and every other
byte of the flash reads as before. FONT-READ gives the bytes as the flash holds them. -/
def Obligations.FlashOperationsAreCheckedAndEnd : Prop :=
  (∀ (s : State) (p : Port) (i : Instr) (op : FlashOp) (bad : Prop),
     (∃ (a : BitVec 32) (d : List Byte), i = .fontProgram p a d ∧ op = .program a.toNat d ∧
       (bad ↔ d.length = 0 ∨ 240 < d.length ∨
         a.toNat / 256 ≠ (a.toNat + d.length - 1) / 256 ∨
         s.font.addressLimit ≤ a.toNat + d.length - 1)) ∨
       (∃ n : BitVec 16, i = .fontErase p n ∧ op = .erase n.toNat ∧
         (bad ↔ s.font.addressLimit ≤ n.toNat * 4096)) →
     s.canTake i = true →
     let first := match op with
       | .program a _ => a
       | .erase n => n * 4096
     let count := match op with
       | .program _ d => d.length
       | .erase _ => 4096
     let size := s.font.header.map fun h => h.sizeMiB * 1048576
     let guarded := match s.font.protection, size with
       | .none, _ => False
       | .upperQuarter, some n => n * 3 / 4 < first + count
       | .upperHalf, some n => n / 2 < first + count
       | _, _ => True
     match s.font.store with
     | .busy _ _ => ∃ u, Runs i [] .busy [] s u
     | .maintenance =>
       (bad → ∃ u, Runs i [] .range [] s u) ∧
       (¬ bad → s.font.latch = false → ∃ u, Runs i [] .notEnabled [] s u) ∧
       (¬ bad → s.font.latch = true → guarded → ∃ u, Runs i [] .protected_ [] s u) ∧
       (¬ bad → s.font.latch = true → ¬ guarded → ∃ u, Runs i [.font] .ok [] s u ∧
         u.font = { s.font with store := .busy op 0 })
     | _ => ∃ u, Runs i [] .state [] s u) ∧
  (∀ (s : State) (op : FlashOp) (n : Nat), s.font.store = .busy op n → s.flashCanonical →
    let first := match op with
      | .program a _ => a
      | .erase x => x * 4096
    let count := match op with
      | .program _ d => d.length
      | .erase _ => 4096
    (∃ u, exec .flashOperationDone s = .next u ∧ Touches [.font, .flash] s u ∧
      u.font = { s.font with store := .maintenance, latch := false } ∧
      (∀ a, a < first ∨ first + count ≤ a → Memory.read u.flash a = Memory.read s.flash a) ∧
      ∀ k, k < count → Memory.read u.flash (first + k) =
        match op with
        | .program _ d => Memory.read s.flash (first + k) &&& d.getD k 0xFF
        | .erase _ => 0xFF) ∧
    (5000 ≤ n → ∃ u, exec .flashOperationTimeout s = .next u ∧
      Touches [.font, .flash, .freeCount] s u ∧
      u.font = { s.font with store := .maintenance, latch := false, fault := true } ∧
      ∀ a, a < first ∨ first + count ≤ a → Memory.read u.flash a = Memory.read s.flash a)) ∧
  ∀ (s : State) (p : Port) (a : BitVec 32) (n : Byte), s.canTake (.fontRead p a n) = true →
    match s.font.store with
    | .maintenance =>
      if 1 ≤ n.toNat ∧ n.toNat ≤ 240 ∧ a.toNat + n.toNat ≤ s.font.addressLimit then
        ∃ u, Runs (.fontRead p a n) [] .ok
          (n :: (List.range n.toNat).map fun k => Memory.read s.flash (a.toNat + k)) s u
      else ∃ u, Runs (.fontRead p a n) [] .range [] s u
    | .busy _ _ => ∃ u, Runs (.fontRead p a n) [] .busy [] s u
    | _ => ∃ u, Runs (.fontRead p a n) [] .state [] s u

/-! ## Compositor and video path -/

/-- The class of a measured frame: a supported format exactly when every active line has the same
width, the sync is progressive, the size is one of the two and the period lies in 19.60 to 20.40 or
16.40 to 17.00 ms. An input frame start that completes no frame (the first after power-on or a loss:
log 24), among them one in NO_INPUT after 100 ms without a start, measures none; one taken before a
coincident loss of input completes its frame, and a run made in NO_INPUT is kept over 100 ms without a
start there (log 44).
A measurement and the path: the run rises and holds at 2 or begins anew at 1; LOCKED leaves at once
for CHANGEOVER at a frame that is not of its format; the other states move at a run of 2, to LOCKED
with locked format, free-run format and canvas, or to UNSUPPORTED. Each change raises VIDEO_STATE to
playback and console, and makes a WAKING overlay ACTIVE where the new state is not CHANGEOVER and the
store is not SCANNING; no change raises nothing and leaves the power. The loss of input after 100 ms,
in every state but NO_INPUT: NO_INPUT with no run, the output free-running at the kept free-run
format, VIDEO_STATE raised; a WAKING overlay may become ACTIVE. -/
def Obligations.VideoPathFollowsTheInput : Prop :=
  ((∀ (m : FrameMeasure) (f : Format), FrameMeasure.classify m = .supported f ↔
     m.uniform = true ∧ m.progressive = true ∧
       ((m.width = 1280 ∧ m.height = 720 ∧ (f = .f720p50 ∨ f = .f720p60)) ∨
         (m.width = 1920 ∧ m.height = 1080 ∧ (f = .f1080p50 ∨ f = .f1080p60))) ∧
       (if f = .f720p50 ∨ f = .f1080p50 then 1960 ≤ m.period ∧ m.period ≤ 2040
         else 1640 ≤ m.period ∧ m.period ≤ 1700)) ∧
   ∀ (s : State) (m : FrameMeasure),
     s.video.frameUnderWay = false ∨ (s.video.path = .noInput ∧ 100 ≤ s.video.inputQuiet) →
     exec (.inputFrameStart m) s = .next { s with video := { s.video with
       inputQuiet := 0, frameUnderWay := true
       output := if s.video.output = .toFollow then .following else s.video.output } }) ∧
  (∀ (s : State) (m : FrameMeasure), s.video.frameUnderWay = true →
     ¬ (s.video.path = .noInput ∧ 100 ≤ s.video.inputQuiet) →
     let c := FrameMeasure.classify m
     let run := if s.video.runClass = some c then min 2 (s.video.runCount + 1) else 1
     let path := s.video.path
     ∃ u, exec (.inputFrameStart m) s = .next u ∧
       Touches [.video, .lines, .cache, .notices] s u ∧
       u.video.runClass = some c ∧ u.video.runCount = run ∧ u.video.inputQuiet = 0 ∧
       u.video.frameUnderWay = true ∧
       u.video.power = (if u.video.path ≠ path ∧ u.video.path ≠ .changeover ∧
           s.font.store ≠ .scanning ∧ s.video.power = .waking then .active
         else s.video.power) ∧
       (∀ f, path ≠ .locked → run = 2 → c = .supported f →
         u.video.path = .locked ∧ u.video.locked = some f ∧ u.video.freeRun = f ∧
         u.lines.canvas = (if f = .f720p50 ∨ f = .f720p60 then .hd720 else .hd1080) ∧
         (s.video.output = .freeRunning → u.video.output = .toFollow) ∧
         u.shows .playback (.videoState .locked (some f)) ∧
         u.shows .console (.videoState .locked (some f))) ∧
       (path = .noInput ∨ path = .changeover → run = 2 → c = .unsupported →
         u.video.path = .unsupported ∧
         (s.video.output = .freeRunning → u.video.output = .toFollow) ∧
         u.shows .playback (.videoState .unsupported none) ∧
         u.shows .console (.videoState .unsupported none)) ∧
       (∀ f, path = .locked → s.video.locked = some f → c ≠ .supported f →
         u.video.path = .changeover ∧ u.video.locked = some f ∧
         u.shows .playback (.videoState .changeover none) ∧
         u.shows .console (.videoState .changeover none)) ∧
       ((path ≠ .locked ∧ run < 2) ∨ (path = .unsupported ∧ c = .unsupported) ∨
           (∃ f, path = .locked ∧ s.video.locked = some f ∧ c = .supported f) →
         u.video.path = path ∧ u.video.locked = s.video.locked ∧ Touches [.video] s u)) ∧
  ∀ s : State, s.video.path ≠ .noInput → 100 ≤ s.video.inputQuiet →
    ∃ u, exec .inputLossTimeout s = .next u ∧ Touches [.video, .notices] s u ∧
      u.video = { s.video with
        path := .noInput, runClass := none, runCount := 0, output := .freeRunning
        frameUnderWay := false
        power := if s.video.power = .waking ∧ s.font.store ≠ .scanning then .active
          else s.video.power } ∧
      u.shows .playback (.videoState .noInput none) ∧ u.shows .console (.videoState .noInput none)

/-- SET-PLANE, on console and venue: the four blend settings, each opacity brought into 0 to 16 with
OK_CLAMPED, every colour valid; they govern from the next frame latch; their values at power-on;
a session reset keeps them. -/
def Obligations.PlaneIsSet : Prop :=
  PermittedOn 0x3B [.console, .venue] ∧
  (∀ (s : State) (p : Port) (o so : Byte) (shade fill : Colour),
    s.canTake (.setPlane p o shade so fill) = true →
    ∃ u, Runs (.setPlane p o shade so fill) [.video]
        (if o.toNat ≤ 16 ∧ so.toNat ≤ 16 then .ok else .okClamped) [] s u ∧
      u.video = { s.video with
        planeOpacity := min o.toNat 16, shade := shade, shadeOpacity := min so.toNat 16
        fill := fill } ∧
      ∃ v f, exec .frameLatch u = .next v ∧ v.video.frame = some f ∧
        f.planeOpacity = min o.toNat 16 ∧ f.shade = shade ∧ f.shadeOpacity = min so.toNat 16 ∧
        f.fill = fill) ∧
  (∀ s : State, ∃ u, exec .powerOnReset s = .next u ∧ u.video.planeOpacity = 16 ∧
    u.video.shade = 0x000000 ∧ u.video.shadeOpacity = 6 ∧ u.video.fill = 0x000000) ∧
  ∀ s : State, s.canTake (.sessionReset .venue) = true →
    ∃ u, exec (.sessionReset .venue) s = .next u ∧ u.video = s.video

/-- What a frame latch captures for the guide band: the bars of the notes of the enabled channels'
parts over t - 1000 to t + 3000, none while the interlude is INSIDE or without notes; each enabled
channel's marker where its last voice frame was voiced and completed at most 40 ms before (the edges
are log 26); the score show's text, centred, from a guide height of 48 on.
The output picture, a function of the capture and the input pixel (log 33): where nothing is keyed,
outside the bands, whose margins are x = 64 and W - 64 (log 26), and in a band not in scope, the input
(black in NO_INPUT) passes; under FILL a pixel of a keyed band is the fill colour. Else each overlay
element is blended exactly over what stands beneath it, component by component, by
floor((α × ov + (16 - α) × vid + 8) / 16): the lyric band's shade; each glyph, with α by its coverage and the plane
opacity, in its sung or unsung colour; in the guide band first bars, in the order of the notes (log
54), then markers, filled or as outlines, with α the plane opacity, then the text. With plane opacity
0 nothing is seen. -/
def Obligations.GuideBandAndPixelsAreExact : Prop :=
  (∀ s : State, ∃ u f, exec .frameLatch s = .next u ∧ u.video.frame = some f ∧
    let lay := s.lines.layout
    let t : Int := s.clock.position
    let key := s.clock.key
    let guide : Int := lay.guide
    (s.turn = none ∨ lay.guide = 0 → f.bars = [] ∧ f.markers = []) ∧
    (∀ turn track, s.turn = some turn → s.slots[turn.slot].track = some track →
      track.notes = [] ∨ s.clock.interlude = .inside → f.bars = []) ∧
    (∀ turn track, s.turn = some turn → s.slots[turn.slot].track = some track →
      track.notes = [] → f.markers = []) ∧
    (∀ turn track lowest highest, s.turn = some turn → s.slots[turn.slot].track = some track →
      lay.guide ≠ 0 → (∃ n ∈ track.notes, n.number = lowest) → (∃ n ∈ track.notes, n.number = highest) →
      (∀ n ∈ track.notes, lowest ≤ n.number ∧ n.number ≤ highest) →
      let part := fun m : Fin 4 => if track.partCount = 1 then Part.a else s.voice.channels[m].part
      let isOf := fun (n : Note) (p : Part) =>
        n.tag = .both ∨ (n.tag = .a ∧ p = .a) ∨ (n.tag = .b ∧ p = .b)
      let lo : Int := 8 * (lowest + key - 2)
      let hi : Int := 8 * (highest + key + 2)
      let row := fun q : Int => (hi - q) * (guide - 1) / (hi - lo)
      let column := fun x : Int => 64 + (x - (t - 1000)) * (lay.width - 128 : Nat) / 4000
      (s.clock.interlude = .outside →
        f.bars = (track.notes.filter fun n =>
            (([0, 1, 2, 3] : List (Fin 4)).any fun m =>
              s.voice.channels[m].enabled && decide (isOf n (part m))) &&
            decide (t - 1000 < n.start + n.duration) && decide ((n.start : Int) < t + 3000)).map
          fun n =>
            let y := lay.guideTop + row (8 * (n.number + key))
            { x0 := max 64 (column n.start), x1 := min (lay.width - 64 : Nat)
                (column (n.start + n.duration)), y0 := y - 3, y1 := y + 3
              colour := match n.tag with
                | .a => s.lines.sungA
                | .b => s.lines.sungB
                | .both => s.lines.sungBoth
              filled := true }) ∧
      f.markers = ([0, 1, 2, 3] : List (Fin 4)).filterMap fun m =>
        let c := s.voice.channels[m]
        let notes := track.notes.filter fun n => isOf n (part m)
        let note := ((notes.filter fun n => (n.start : Int) ≤ t ∧ t < n.start + n.duration).head?.or
          ((notes.filter fun n => (n.start : Int) < t).getLast?.or notes.head?))
        match c.lastFrame.bind (fun x => x.pitch.map fun p => (x.at_, p)), note with
        | some (at_, p), some n =>
          if c.enabled = true ∧ (s.sessionTime - at_).toNat ≤ 40 then
            let r := 8 * ((n.number : Int) + key)
            let sung := r + ((p - r + 48) % 96 - 48)
            let y := lay.guideTop + max 0 (min (guide - 1) (row sung))
            let x : Int := 64 + ((lay.width - 128) / 4 : Nat)
            some { x0 := x - 4, x1 := x + 4, y0 := y - 4, y1 := y + 4
                   colour := c.colour, filled := decide (c.lock = .locked) }
          else none
        | _, _ => none) ∧
    (s.lines.scoreShow = none ∨ lay.guide < 48 → f.guideGlyphs = []) ∧
    ∀ show_, s.lines.scoreShow = some show_ → 48 ≤ lay.guide → show_.headline ≤ 10000 →
      s.lines.rebuild = false → s.lines.scroll = none →
      let advance := fun k : Code => match s.cache.find k with
        | none => 32
        | some i => ((s.cache.entry i).bitmap.map fun b => b.advance).getD 32
      let h := show_.headline
      let text : List Code := ((Nat.toDigits 10 (h / 100)).map fun d => BitVec.ofNat 16 d.toNat) ++
        [0x2E, BitVec.ofNat 16 (0x30 + h / 10 % 10), BitVec.ofNat 16 (0x30 + h % 10)]
      (∀ k, advance k ≤ 32) →
      f.guideGlyphs.map (fun g => g.code) = text ∧
      ∀ n g, f.guideGlyphs[n]? = some g →
        g.y = ((lay.guideTop + (lay.guide - 48) / 2 : Nat) : Int) ∧ g.sung = s.lines.sungBoth ∧
        g.unsung = s.lines.sungBoth ∧
        g.x = ((64 + (lay.width - 128 - (text.map advance).sum) / 2 +
          ((text.take n).map advance).sum : Nat) : Int)) ∧
  ∀ (f : OutputFrame) (x y : Nat) (input : Colour),
    let beneath := if f.black = true then 0 else input
    let inTitle := 64 ≤ x ∧ x < f.layout.width - 64 ∧ 32 ≤ y ∧ y < 32 + 56 * f.layout.titleRows
    let inLyric := 64 ≤ x ∧ x < f.layout.width - 64 ∧ f.layout.lyricTop ≤ y ∧
      y < f.layout.lyricTop + 56 * f.layout.rows
    let inGuide := 64 ≤ x ∧ x < f.layout.width - 64 ∧ f.layout.guideTop ≤ y ∧
      y < f.layout.guideTop + f.layout.guide
    let blended := fun (alpha : Nat) (ov vid out : Colour) => ∀ n : Nat, n < 3 →
      let part := fun c : Colour => c.toNat / 256 ^ n % 256
      part out = (alpha * part ov + (16 - alpha) * part vid + 8) / 16
    -- one glyph cell, and one bar or marker, over the pixel without it
    let glyph := fun (g : GlyphBox) (vid out : Colour) =>
      if g.x ≤ x ∧ x < g.x + 32 ∧ x < g.clip ∧ g.y ≤ y ∧ y < g.y + 48 then
        let level := g.drawn.level (x - g.x).toNat (y - g.y).toNat
        blended ((if level = 0 then 0 else if level = 1 then 5 else if level = 2 then 11 else 16) *
          f.planeOpacity / 16) (if x < g.split then g.sung else g.unsung) vid out
      else out = vid
    let patch := fun (p : Patch) (vid out : Colour) =>
      if p.x0 ≤ x ∧ x < p.x1 ∧ p.y0 ≤ y ∧ y < p.y1 ∧
          (p.filled = true ∨ x = p.x0 ∨ x = p.x1 - 1 ∨ y = p.y0 ∨ y = p.y1 - 1) then
        blended f.planeOpacity p.colour vid out
      else out = vid
    (f.keyed = none → f.pixel x y input = beneath) ∧
    (¬ inTitle → ¬ inLyric → ¬ inGuide → f.pixel x y input = beneath) ∧
    (∀ b, f.keyed = some b →
      (inTitle → b.title = false → f.pixel x y input = beneath) ∧
      (¬ inTitle → inLyric → b.lyric = false → f.pixel x y input = beneath) ∧
      (¬ inTitle → ¬ inLyric → inGuide → b.guide = false → f.pixel x y input = beneath) ∧
      ((inTitle ∧ b.title = true) ∨ (¬ inTitle ∧ inLyric ∧ b.lyric = true) ∨
          (¬ inTitle ∧ ¬ inLyric ∧ inGuide ∧ b.guide = true) →
        (f.fillContent = true → f.pixel x y input = f.fill) ∧
        (f.fillContent = false → f.planeOpacity = 0 → f.pixel x y input = beneath)) ∧
      (f.fillContent = false → f.planeOpacity ≤ 16 →
        (inTitle → b.title = true →
          (f.titleGlyphs = [] → f.pixel x y input = beneath) ∧
          ∀ gs g, f.titleGlyphs = gs ++ [g] →
            glyph g (OutputFrame.pixel { f with titleGlyphs := gs } x y input) (f.pixel x y input)) ∧
        (¬ inTitle → inLyric → b.lyric = true → f.shadeOpacity ≤ 16 →
          (f.lyricGlyphs = [] →
            blended (f.shadeOpacity * f.planeOpacity / 16) f.shade beneath (f.pixel x y input)) ∧
          ∀ gs g, f.lyricGlyphs = gs ++ [g] →
            glyph g (OutputFrame.pixel { f with lyricGlyphs := gs } x y input) (f.pixel x y input)) ∧
        (¬ inTitle → ¬ inLyric → inGuide → b.guide = true →
          (f.guideGlyphs = [] → f.markers = [] → f.bars = [] → f.pixel x y input = beneath) ∧
          (∀ gs g, f.guideGlyphs = gs ++ [g] →
            glyph g (OutputFrame.pixel { f with guideGlyphs := gs } x y input)
              (f.pixel x y input)) ∧
          (∀ ps p, f.guideGlyphs = [] → f.markers = ps ++ [p] →
            patch p (OutputFrame.pixel { f with markers := ps } x y input) (f.pixel x y input)) ∧
          ∀ ps p, f.guideGlyphs = [] → f.markers = [] → f.bars = ps ++ [p] →
            patch p (OutputFrame.pixel { f with bars := ps } x y input) (f.pixel x y input))))

/-! ## Voice assessment -/

/-- The audio state: 50 ms without a word clock edge make it LOST, the voice frames under way
discarded and a tone check ABORTED; the first edge in LOST, by either of its rows (deduced, log 18),
makes it PRESENT and begins new voice frames with its own samples; an edge in PRESENT adds its
samples. A sample is the top 16 bits of its slot's word. AUDIO_STATE goes to the console port at each
change. -/
def Obligations.AudioStateFollowsTheWordClock : Prop :=
  ∀ s : State, s.voice.frame.length < 960 →
    (s.voice.audio = .present → 50 ≤ s.voice.quiet →
      ∃ u, exec .audioLossTimeout s = .next u ∧ Touches [.voice, .notices] s u ∧
        u.voice = { s.voice with
          audio := .lost, frame := [], tone := none
          lastTone := match s.voice.tone with
            | none => s.voice.lastTone
            | some t => some { mic := t.mic, note := t.note, voiced := t.voiced
                               average := t.average, outcome := .aborted } } ∧
        u.shows .console (.audioState .lost) ∧
        (∀ t, s.voice.tone = some t → u.shows .console (.toneDone t.mic .aborted) ∧
          u.shows .venue (.toneDone t.mic .aborted)) ∧
        (s.voice.tone = none → ∀ q : Port, q ≠ .console → u.port q = s.port q)) ∧
    ∀ w : TdmWords, s.voice.tone = none →
      ∃ x : Samples,
        x[0].toInt = w.w0.toInt / 256 ∧ x[1].toInt = w.w1.toInt / 256 ∧
        x[2].toInt = w.w2.toInt / 256 ∧ x[3].toInt = w.w3.toInt / 256 ∧
        (s.voice.audio = .lost → ∀ i : Instr, i = .audioRestored w ∨ i = .tdmFrame w →
          ∃ u, exec i s = .next u ∧ Touches [.voice, .notices] s u ∧
            u.voice = { s.voice with audio := .present, quiet := 0, frame := [x] } ∧
            u.shows .console (.audioState .present) ∧
            ∀ q : Port, q ≠ .console → u.port q = s.port q) ∧
        (s.voice.audio = .present →
          ∃ u, exec (.tdmFrame w) s = .next u ∧ Touches [.voice] s u ∧
            u.voice = { s.voice with quiet := 0, frame := s.voice.frame ++ [x] })

/-- Detection: the sung pitch of a period of T16 sixteenths in 699 to 10,971 is 552 +
round-half-up(96 × log2(f / 440)) with f = 768,000 / T16 Hz, told exactly by the 192nd power of
f / 440 = 19200 / (11 × T16), and lies in 297 to 679.
The crossings of a frame, with H half the gate: each is the first sample at or above H after the
first one at or below −H that follows the crossing before it (or the frame's beginning), until no such
pair follows. A frame is voiced exactly when its level reaches the gate, it has two or more crossings,
and T16, the mean period rounded half up, is in range; its pitch is that of T16. -/
def Obligations.PitchIsExact : Prop :=
  (∀ t : Nat, 699 ≤ t → t ≤ 10971 →
    let q := pitchOf t - 552
    (2 : ℚ) ^ (2 * q - 1) ≤ (19200 / (11 * (t : ℚ))) ^ 192 ∧
      (19200 / (11 * (t : ℚ))) ^ 192 < (2 : ℚ) ^ (2 * q + 1) ∧
      297 ≤ pitchOf t ∧ pitchOf t ≤ 679) ∧
  ∀ (gate : Nat) (xs : List Int),
    let threshold : Int := (gate / 2 : Nat)
    let low := fun i : Nat => i < xs.length ∧ xs.getD i 0 ≤ -threshold
    let high := fun i : Nat => i < xs.length ∧ threshold ≤ xs.getD i 0
    -- where each crossing's sample armed the detector, and the crossing itself
    ∃ found : List (Nat × Nat),
      let after := fun n : Nat => (((found.take n).getLast?).map fun x => x.2 + 1).getD 0
      (∀ n armed crossing, found[n]? = some (armed, crossing) →
        after n ≤ armed ∧ low armed ∧ (∀ i, after n ≤ i → i < armed → ¬ low i) ∧
        armed < crossing ∧ high crossing ∧ ∀ i, armed < i → i < crossing → ¬ high i) ∧
      (∀ i j, after found.length ≤ i → low i → i < j → ¬ high j) ∧
      let c := found.length
      let first := ((found.head?).map (·.2)).getD 0
      let last := ((found.getLast?).map (·.2)).getD 0
      let t16 := (32 * (last - first) + (c - 1)) / (2 * (c - 1))
      detect gate xs =
        if (xs.map Int.natAbs).sum / 960 < gate ∨ c < 2 ∨ t16 < 699 ∨ 10971 < t16 then none
        else some (pitchOf t16)

/-- The completion of the voice frames, channel by channel: the last voice frame is set on every
channel; a channel that is off or frozen, a clock that is not RUNNING and a judgement time below 0
count nothing; outside every note a voiced frame with the interlude OUTSIDE is a STRAY; in a note
before its grace, or in one that is marked, nothing is judged; else the frame is a HIT or a MISS of
the open note, another open note being tallied first by its counts, with lock and first miss
following, and saturation freezes the channel. That the frame completes by this row once its 960
samples are there is log 17. -/
def Obligations.VoiceFramesAreJudged : Prop :=
  ∀ (s : State) (m : Fin 4), 960 ≤ s.voice.frame.length →
    ∃ u, exec .voiceFrameComplete s = .next u ∧ Touches [.slots, .voice, .notices] s u ∧
      u.voice.frame = [] ∧ u.voice.audio = s.voice.audio ∧ u.voice.scoring = s.voice.scoring ∧
      let g := s.voice.scoring
      let pitch := detect g.gate (s.voice.frame.map fun x => x[m].toInt)
      let c := { s.voice.channels[m] with
        lastFrame := some { pitch := pitch, at_ := s.sessionTime } }
      let t := s.clock.position - g.latency
      let covers := fun n : Note × Nat => n.1.start ≤ t ∧ t < n.1.start + n.1.duration
      (c.enabled = false ∨ c.frozen = true ∨ s.clock.state ≠ .running ∨
          s.clock.position < g.latency → u.voice.channels[m] = c) ∧
      (c.enabled = true → c.frozen = false → s.clock.state = .running →
          g.latency ≤ s.clock.position →
        ((∀ n ∈ s.partNotes m, ¬ covers n) →
          if pitch ≠ none ∧ s.clock.interlude = .outside then
            u.voice.channels[m] = { c with
              strays := min 65535 (c.strays + 1), hitRun := 0, missRun := min 16 (c.missRun + 1)
              lock := if c.missRun < 15 then c.lock else .unlocked }
          else u.voice.channels[m] = c) ∧
        ∀ (n : Note) (i : Nat), (n, i) ∈ s.partNotes m → covers (n, i) →
          (∀ x ∈ s.partNotes m, covers x → x = (n, i)) →
          (t < n.start + g.grace ∨ s.noteMark m i ≠ none → u.voice.channels[m] = c) ∧
          (n.start + g.grace ≤ t → s.noteMark m i = none →
            (∀ o, c.openNote = some o → o.index ≠ i → s.noteMark m o.index = none) →
            c.judged < 65534 → c.hits ≤ c.judged →
            let r : Int := 8 * (n.number + s.clock.key)
            let other := c.openNote.filter fun o => o.index ≠ i
            let counts := match c.openNote with
              | some o => if o.index = i then (o.a, o.h) else (0, 0)
              | none => (0, 0)
            let c := { c with
              notes := c.notes + (match other with
                | none => 0
                | some o => if o.a = 0 then 0 else 1)
              kept := c.kept + (match other with
                | none => 0
                | some o => if o.a = 0 ∨ 2 * o.h < o.a then 0 else 1) }
            (∀ o k, other = some o → s.turn = some k →
              o.index < s.slots[k.slot].tallied[m].length → u.noteMark m o.index =
                some (if o.a = 0 then .empty else if 2 * o.h < o.a then .counted else .kept)) ∧
            let hit := ∃ p d, pitch = some p ∧
              (if g.folding = true then
                (∃ k : Int, d = p - r + 96 * k) ∧ -48 ≤ d ∧ d ≤ 47 else d = p - r) ∧
              d.natAbs ≤ g.tolerance
            (hit → u.voice.channels[m] = { c with
              judged := c.judged + 1, hits := c.hits + 1
              openNote := some { index := i, a := counts.1 + 1, h := counts.2 + 1 }
              hitRun := min 2 (c.hitRun + 1), missRun := 0
              lock := if 1 ≤ c.hitRun then .locked else c.lock
              lockCount := if c.lock = .unlocked ∧ 1 ≤ c.hitRun then min 255 (c.lockCount + 1)
                else c.lockCount }) ∧
            (¬ hit → u.voice.channels[m] = { c with
              judged := c.judged + 1
              openNote := some { index := i, a := counts.1 + 1, h := counts.2 }
              hitRun := 0, missRun := min 16 (c.missRun + 1)
              lock := if c.missRun < 15 then c.lock else .unlocked
              firstMiss := if c.firstMiss = none ∧ 0 < c.lockCount then
                some { time := t, reference := r, pitch := pitch } else c.firstMiss })) ∧
          (n.start + g.grace ≤ t → s.noteMark m i = none → 65534 ≤ c.judged →
            c.judged ≤ 65535 →
            u.voice.channels[m].judged = 65535 ∧ u.voice.channels[m].frozen = true ∧
            u.voice.channels[m].flags.saturated = true ∧ u.voice.channels[m].openNote = none))

/-- SET-MIC-ENABLE, SET-MIC-COLOUR and SET-PART: RANGE for a mic or value outside its set; with the
stage EMPTY, or for the value it has (the on/off bytes, 0 for on, are log 12), the setting alone; during
a turn a channel turned off has its open note tallied and its lock undone, one turned on takes part
late, and a change of part tallies the open note and recounts N and K by the marks of the new part.
SET-SCORING: a folding value outside on and off, and two weights that come to 0, are RANGE with
no setting changed; else the eight settings are brought into range, in force and in the reply, and
a change of latency compensation during a turn tallies, on every enabled channel not frozen, the open
note whose end is at or below the new judgement time, and nothing else.
A tally closes the open note and marks it by its counts EMPTY, COUNTED or KEPT, N and K rising by the
mark; a note that carries a mark keeps it and counts nothing. Every other mark is unchanged. -/
def Obligations.MicsAndScoringAreSet : Prop :=
  let tallied := fun (s : State) (m : Fin 4) =>
    let c := s.voice.channels[m]
    match c.openNote with
    | none => c
    | some o => { c with
        openNote := none
        notes := c.notes + (if s.noteMark m o.index ≠ none ∨ o.a = 0 then 0 else 1)
        kept := c.kept + (if s.noteMark m o.index ≠ none ∨ o.a = 0 ∨ 2 * o.h < o.a then 0 else 1) }
  let marks := fun (s : State) (t : Turn) (m k : Fin 4) (i : Nat) =>
    match s.voice.channels[m].openNote with
    | none => s.noteMark k i
    | some o =>
      if k = m ∧ i = o.index ∧ s.noteMark m i = none ∧ i < s.slots[t.slot].tallied[m].length then
        some (if o.a = 0 then .empty else if 2 * o.h < o.a then .counted else .kept)
      else s.noteMark k i
  let marksOnly := fun (s u : State) (t : Turn) =>
    (∀ k : Fin 4, k ≠ t.slot → u.slots[k] = s.slots[k]) ∧
      u.slots[t.slot] = { s.slots[t.slot] with tallied := u.slots[t.slot].tallied }
  (∀ (s : State) (p : Port) (mic v : Byte),
     (s.canTake (.setMicEnable p mic v) = true →
       if h : mic.toNat < 4 ∧ v.toNat ≤ 1 then
         let m : Fin 4 := ⟨mic.toNat, h.1⟩
         let c := s.voice.channels[m]
         (s.turn = none ∨ c.enabled = decide (v = 0) →
           ∃ u, Runs (.setMicEnable p mic v) [.voice] .ok [] s u ∧ u.voice = { s.voice with
             channels := s.voice.channels.set mic.toNat { c with enabled := decide (v = 0) } h.1 }) ∧
         (∀ t, s.turn = some t → c.enabled = false → v = 0 →
           ∃ u, Runs (.setMicEnable p mic v) [.voice] .ok [] s u ∧ u.voice = { s.voice with
             channels := s.voice.channels.set mic.toNat { c with
               enabled := true, takingPart := true
               flags := { c.flags with lateJoin := true } } h.1 }) ∧
         (∀ t, s.turn = some t → c.enabled = true → v = 1 →
           ∃ u, Runs (.setMicEnable p mic v) [.slots, .voice] .ok [] s u ∧
             u.voice = { s.voice with
               channels := s.voice.channels.set mic.toNat { tallied s m with
                 enabled := false, lock := .unlocked, hitRun := 0, missRun := 0
                 flags := { c.flags with
                   partial_ := c.flags.partial_ || c.takingPart } } h.1 } ∧
             (∀ (k : Fin 4) (i : Nat), u.noteMark k i = marks s t m k i) ∧ marksOnly s u t)
       else ∃ u, Runs (.setMicEnable p mic v) [] .range [] s u) ∧
     (∀ colour : Colour, s.canTake (.setMicColour p mic colour) = true →
       if h : mic.toNat < 4 then
         ∃ u, Runs (.setMicColour p mic colour) [.voice] .ok [] s u ∧ u.voice = { s.voice with
           channels := s.voice.channels.set mic.toNat
             { s.voice.channels[mic.toNat] with colour := colour } h }
       else ∃ u, Runs (.setMicColour p mic colour) [] .range [] s u) ∧
     (s.canTake (.setPart p mic v) = true →
       if h : mic.toNat < 4 ∧ v.toNat ≤ 1 then
         let m : Fin 4 := ⟨mic.toNat, h.1⟩
         let c := s.voice.channels[m]
         let part : Part := if v = 0 then .a else .b
         (s.turn = none ∨ c.part = part →
           ∃ u, Runs (.setPart p mic v) [.voice] .ok [] s u ∧ u.voice = { s.voice with
             channels := s.voice.channels.set mic.toNat { c with part := part } h.1 }) ∧
         (∀ t, s.turn = some t → c.part ≠ part →
           ∃ u, Runs (.setPart p mic v) [.turn, .slots, .voice] .ok [] s u ∧
             u.voice = { s.voice with
               channels := s.voice.channels.set mic.toNat { c with
                 part := part, openNote := none
                 notes := ((u.partNotes m).filter fun n =>
                   u.noteMark m n.2 = some .counted || u.noteMark m n.2 = some .kept).length
                 kept := ((u.partNotes m).filter fun n => u.noteMark m n.2 = some .kept).length
                 flags := { c.flags with
                   partChanged := c.flags.partChanged || c.enabled } } h.1 } ∧
             u.turn = some { t with flags := { t.flags with
               partChanged := t.flags.partChanged || c.enabled } } ∧
             (∀ (k : Fin 4) (i : Nat), u.noteMark k i = marks s t m k i) ∧ marksOnly s u t)
       else ∃ u, Runs (.setPart p mic v) [] .range [] s u)) ∧
  ∀ (s : State) (p : Port) (gate : BitVec 16) (tol : Byte) (grace latency : BitVec 16)
      (fold wp wn cost : Byte),
    s.canTake (.setScoring p gate tol grace latency fold wp wn cost) = true →
    let i : Instr := .setScoring p gate tol grace latency fold wp wn cost
    let g : Scoring :=
      { gate := min gate.toNat 8191, tolerance := min tol.toNat 24, grace := min grace.toNat 200
        latency := min latency.toNat 250, folding := decide (fold = 0)
        pitchWeight := min wp.toNat 15, noteWeight := min wn.toNat 15
        strayCost := min cost.toNat 20 }
    if 2 ≤ fold.toNat ∨ (wp = 0 ∧ wn = 0) then ∃ u, Runs i [] .range [] s u
    else
      ∃ u, Runs i [.voice, .slots]
          (if gate.toNat ≤ 8191 ∧ tol.toNat ≤ 24 ∧ grace.toNat ≤ 200 ∧ latency.toNat ≤ 250 ∧
              wp.toNat ≤ 15 ∧ wn.toNat ≤ 15 ∧ cost.toNat ≤ 20 then .ok else .okClamped)
          (be16 g.gate ++ [BitVec.ofNat 8 g.tolerance] ++ be16 g.grace ++ be16 g.latency ++
            [fold, BitVec.ofNat 8 g.pitchWeight, BitVec.ofNat 8 g.noteWeight,
              BitVec.ofNat 8 g.strayCost]) s u ∧
        u.voice = { s.voice with scoring := g, channels := u.voice.channels } ∧
        (s.turn = none ∨ g.latency = s.voice.scoring.latency →
          u.slots = s.slots ∧ u.voice.channels = s.voice.channels) ∧
        ∀ t, s.turn = some t → g.latency ≠ s.voice.scoring.latency → marksOnly s u t ∧
          ∀ m : Fin 4,
            let c := s.voice.channels[m]
            let due := c.enabled = true ∧ c.frozen = false ∧
              ∃ (o : OpenNote) (track : Track) (n : Note), c.openNote = some o ∧
                s.stageTrack = some track ∧ track.notes[o.index]? = some n ∧
                n.start + n.duration + g.latency ≤ s.clock.position
            (due → u.voice.channels[m] = tallied s m ∧
              ∀ j : Nat, u.noteMark m j = marks s t m m j) ∧
            (¬ due → u.voice.channels[m] = c ∧ ∀ j : Nat, u.noteMark m j = s.noteMark m j)

/-- The tone check: TONE-CHECK's conditions in their order; the square wave is in its first half of a
period exactly where floor(2 k F / 48,000) is even, with F = 440 × 2^((note − 69) / 12), told by
twelfth powers; while it runs it replaces the samples of its channel alone; a frame of it completed
before the 50th counts as done, and as voiced with its pitch in the sum if it is voiced, while a frame
begun before the check counts nothing; and its 50th frame ends it PASS when all 50 were voiced with an
average within 1 of 8 × note, else FAIL, with TONE_DONE. The wave begins with the next voice frame to
begin (deduced, log 38). That a frame whose 960 samples are there is completed by a row of
its own, VOICE_FRAME_COMPLETE or, at the 50th, TONE_CHECK_END as well, is the model's choice (log 17). -/
def Obligations.ToneChecksRunFiftyFrames : Prop :=
  (∀ (s : State) (p : Port) (mic note : Byte), s.canTake (.toneCheck p mic note) = true →
    if h : mic.toNat < 4 ∧ 36 ≤ note.toNat ∧ note.toNat ≤ 96 then
      if s.turn.isSome = true ∨ s.voice.audio = .lost then
        ∃ u, Runs (.toneCheck p mic note) [] .state [] s u
      else if s.voice.tone.isSome = true then ∃ u, Runs (.toneCheck p mic note) [] .busy [] s u
      else ∃ u, Runs (.toneCheck p mic note) [.voice] .ok [] s u ∧
        u.voice = { s.voice with
          tone := some { mic := ⟨mic.toNat, h.1⟩, note := note.toNat, done := 0, voiced := 0
                         sum := 0, made := none } }
    else ∃ u, Runs (.toneCheck p mic note) [] .range [] s u) ∧
  (∀ note k : Nat, 36 ≤ note → note ≤ 96 → k < 48000 →
    let n := halfPeriods note k
    n ^ 12 * 600 ^ 12 * 2 ^ 69 ≤ (11 * k) ^ 12 * 2 ^ note ∧
      (11 * k) ^ 12 * 2 ^ note < (n + 1) ^ 12 * 600 ^ 12 * 2 ^ 69 ∧
      (toneSample note k).toInt = if n % 2 = 0 then 8000 else -8000) ∧
  (∀ (s : State) (w : TdmWords) (t : ToneCheck), s.voice.audio = .present →
    s.voice.frame.length < 960 → s.voice.tone = some t →
    ∃ u x, exec (.tdmFrame w) s = .next u ∧ Touches [.voice] s u ∧
      u.voice.frame = s.voice.frame ++ [x] ∧ u.voice.channels = s.voice.channels ∧
      x[0].toInt = (if t.mic = 0 ∧ (t.made ≠ none ∨ s.voice.frame = []) then
        (toneSample t.note (t.made.getD 0)).toInt else w.w0.toInt / 256) ∧
      x[1].toInt = (if t.mic = 1 ∧ (t.made ≠ none ∨ s.voice.frame = []) then
        (toneSample t.note (t.made.getD 0)).toInt else w.w1.toInt / 256) ∧
      x[2].toInt = (if t.mic = 2 ∧ (t.made ≠ none ∨ s.voice.frame = []) then
        (toneSample t.note (t.made.getD 0)).toInt else w.w2.toInt / 256) ∧
      x[3].toInt = (if t.mic = 3 ∧ (t.made ≠ none ∨ s.voice.frame = []) then
        (toneSample t.note (t.made.getD 0)).toInt else w.w3.toInt / 256) ∧
      u.voice.tone = some { t with made :=
        if t.made ≠ none ∨ s.voice.frame = [] then some (t.made.getD 0 + 1) else none }) ∧
  (∀ (s : State) (t : ToneCheck), 960 ≤ s.voice.frame.length → s.voice.tone = some t →
    t.made = none ∨ t.done < 49 →
    let pitch := detect s.voice.scoring.gate (s.voice.frame.map fun x => x[t.mic].toInt)
    ∃ u, exec .voiceFrameComplete s = .next u ∧ Touches [.slots, .voice, .notices] s u ∧
      u.voice.frame = [] ∧ u.voice.lastTone = s.voice.lastTone ∧
      u.voice.tone = (if t.made = none then some t else some { t with
        done := t.done + 1
        voiced := t.voiced + if pitch = none then 0 else 1
        sum := t.sum + (pitch.getD 0).toNat }) ∧
      ∀ q : Port, (u.port q).notices[(15 : Fin 16)] = (s.port q).notices[(15 : Fin 16)]) ∧
  ∀ (s : State) (t : ToneCheck) (i : Instr), i = .toneCheckEnd ∨ i = .voiceFrameComplete →
    960 ≤ s.voice.frame.length → s.voice.tone = some t → t.made ≠ none → t.done = 49 →
    let pitch := detect s.voice.scoring.gate (s.voice.frame.map fun x => x[t.mic].toInt)
    let voiced := t.voiced + if pitch = none then 0 else 1
    let sum := t.sum + (pitch.getD 0).toNat
    ∃ u r, exec i s = .next u ∧ Touches [.slots, .voice, .notices] s u ∧
      u.voice.tone = none ∧ u.voice.lastTone = some r ∧ u.voice.frame = [] ∧
      r.mic = t.mic ∧ r.note = t.note ∧ r.voiced = voiced ∧
      (voiced = 0 → r.average = none) ∧
      (0 < voiced → ∃ a, r.average = some a ∧ 2 * voiced * a ≤ 2 * sum + voiced ∧
        2 * sum + voiced < 2 * voiced * (a + 1)) ∧
      (r.outcome = .pass ↔ voiced = 50 ∧ ∃ a, r.average = some a ∧
        ((a : Int) - 8 * t.note).natAbs ≤ 1) ∧
      (r.outcome = .pass ∨ r.outcome = .fail) ∧
      u.shows .console (.toneDone t.mic r.outcome) ∧ u.shows .venue (.toneDone t.mic r.outcome)

/-! ## Scores and results -/

/-- Scores: with H ≤ A, K ≤ N and a weight above 0, the base is 10,000 × X / Y rounded half up, in
0 to 10,000, the final score the base less a penalty of at most 2000, not below 0; a channel with
no judged frame or no counted note is UNSCORED; the headline is the mean rounded half up, absent
without scores, and in 0 to 10,000.
An offer to a best list of at most 5 entries in descending order: only a COMPLETE record with a
headline is offered; an entry of its ticket goes first; with room, or above the fifth entry, which
then goes, the copy stands after every headline at or above its own and before every lower one;
else it is not entered. -/
def Obligations.ScoresAndBestListAreExact : Prop :=
  ((∀ (g : Scoring) (c : Channel), c.hits ≤ c.judged → c.kept ≤ c.notes →
     0 < g.pitchWeight + g.noteWeight →
     (c.judged = 0 ∨ c.notes = 0 → finalScore g c = none) ∧
     (c.judged ≠ 0 → c.notes ≠ 0 →
       let x := g.pitchWeight * c.hits * c.notes + g.noteWeight * c.kept * c.judged
       let y := (g.pitchWeight + g.noteWeight) * c.judged * c.notes
       ∃ b f : Nat, finalScore g c = some f ∧ b ≤ 10000 ∧
         2 * y * b ≤ 20000 * x + y ∧ 20000 * x + y < 2 * y * (b + 1) ∧
         (f : Int) = max 0 ((b : Int) - min (c.strays * g.strayCost) 2000))) ∧
   ∀ xs : List Nat, (headlineOf xs = none ↔ xs = []) ∧
     ∀ h, headlineOf xs = some h →
       2 * xs.length * h ≤ 2 * xs.sum + xs.length ∧
       2 * xs.sum + xs.length < 2 * xs.length * (h + 1) ∧
       ((∀ x ∈ xs, x ≤ 10000) → h ≤ 10000)) ∧
  ∀ (r : ResultRecord) (best : List BestEntry), best.length ≤ 5 →
    best.Pairwise (fun a b => b.headline ≤ a.headline) →
    (r.reason ≠ .complete ∨ r.headline = none → r.offer best = best) ∧
    ∀ h, r.reason = .complete → r.headline = some h →
      let others := best.filter fun y => y.ticket ≠ r.ticket
      let copy : BestEntry :=
        { ticket := r.ticket, songId := r.songId, origin := r.origin, tag := r.tag, headline := h
          endedAt := r.endedAt }
      if others.length = 5 ∧ ∀ y, others.getLast? = some y → h ≤ y.headline then
        r.offer best = others
      else ∃ ahead behind, r.offer best = ahead ++ copy :: behind ∧
        ahead ++ behind = others.take 4 ∧ (∀ y ∈ ahead, h ≤ y.headline) ∧
        ∀ y ∈ behind, y.headline < h

/-- RESULT-TAKE marks the record of its ticket collected, and is NOT_FOUND for a ticket no record
holds; the loss of a record raises RESULT_OVERWRITTEN to the venue port exactly when it is not
collected; BEST-CLEAR empties the best list and leaves the ring. -/
def Obligations.ResultsAreTakenAndCleared : Prop :=
  (∀ (s : State) (p : Port) (n : BitVec 16), s.canTake (.resultTake p n) = true →
    if n ≠ 0 ∧ ∃ r ∈ s.ring, r.ticket = n.toNat then
      ∃ u, Runs (.resultTake p n) [.ring] .ok (be16 n.toNat) s u ∧
        u.ring.length = s.ring.length ∧
        ∀ (k : Nat) (r : ResultRecord), s.ring[k]? = some r → u.ring[k]? =
          some { r with collected := r.collected || decide (r.ticket = n.toNat) }
    else ∃ u, Runs (.resultTake p n) [] .notFound [] s u) ∧
  (∀ (s : State) (t : Nat) (old : ResultRecord),
    (s.ring.find? fun r => r.ticket = t) = some old ∨
      ((∀ r ∈ s.ring, r.ticket ≠ t) ∧ 16 ≤ s.ring.length ∧ s.ring.head? = some old) →
    (if old.collected = true then s.makeRoom t = { s with ring := (s.makeRoom t).ring }
      else (s.makeRoom t).shows .venue (.resultOverwritten old.ticket)) ∧
    (∀ r, r ∈ (s.makeRoom t).ring → r ∈ s.ring ∧ r.ticket ≠ t)) ∧
  ∀ (s : State) (p : Port), s.canTake (.bestClear p) = true →
    ∃ u, Runs (.bestClear p) [.best] .ok [] s u ∧ u.best = []

/-! ## Client ports and notices -/

/-- NOTICE-TAKE takes the pending, unmasked class of highest priority with its summary, or NONE
(16, log 29), the class byte its place counted from 0 (log 14), and gives the pending set after the take
and the mask set; NOTICE-MASK replaces the mask set and clears nothing; the attention line is asserted
exactly while a pending class is unmasked, and bit n of a pending set tells class n. The form of
VIDEO_STATE's summary outside LOCKED is the model's choice (log 46). -/
def Obligations.NoticesAreTakenInPriority : Prop :=
  (∀ (s : State) (p : Port), s.canTake (.noticeTake p) = true →
    let q := s.port p
    ((∀ c : Fin 16, q.notices[c] = none ∨ q.mask.getLsb c = true) →
      ∃ u, Runs (.noticeTake p) [] .ok
        (16 :: (be16 q.pendingSet ++ be16 q.mask.toNat)) s u) ∧
    ∀ (c : Fin 16) (n : Notice), q.notices[c] = some n → q.mask.getLsb c = false →
      (∀ d : Fin 16, d < c → q.notices[d] = none ∨ q.mask.getLsb d = true) →
      ∃ u, Runs (.noticeTake p) [.notices] .ok
          (BitVec.ofNat 8 c :: (n.summary ++ be16 (u.port p).pendingSet ++ be16 q.mask.toNat))
          s u ∧
        (u.port p).notices = q.notices.set c none c.isLt ∧
        ∀ r, r ≠ p → u.port r = s.port r) ∧
  (∀ (s : State) (p : Port) (m : BitVec 16), s.canTake (.noticeMask p m) = true →
    ∃ u, exec (.noticeMask p m) s = .next u ∧ Touches [.links] s u ∧
      u.port p = { s.port p with
        link := .ready, gathered := (u.port p).gathered, held := none, replyWaiting := true
        discarded := (u.port p).discarded, mask := m
        reply := some { code := 0x4A, result := .ok
                        data := be16 m.toNat ++ be16 (s.port p).pendingSet } } ∧
      ∀ r, r ≠ p → u.port r = s.port r) ∧
  ∀ q : PortState,
    (q.attention = true ↔ ∃ c : Fin 16, q.notices[c] ≠ none ∧ q.mask.getLsb c = false) ∧
    ∀ n : Nat, q.pendingSet.testBit n = true ↔ ∃ h : n < 16, q.notices[n] ≠ none

/-- A frame written whole to a READY port, on the SPI ports behind the kind byte 01: a code of 0, a
length above 250 and too few bytes before the end discard it; else it is accepted, an unread reply
dropped, and the port answers UNKNOWN_COMMAND, NOT_PERMITTED or BAD_LENGTH in that order, or waits
with the command it spells. A port that is not READY discards the frame and keeps what it does, the
frame under way in RECEIVING among it (log 57). The frame may come in any two pieces. On the SPI ports
any other kind byte shifts out the status byte, sets LAST_FRAME_DISCARDED and has the rest of its
transaction ignored; kind 02 reads, whole or in pieces, REPLY_WAITING standing until the reply has been
returned whole or the read ends, be it by the next transaction. That pieces are rows of their own and
that the port answers two of its results itself and UNKNOWN_COMMAND by its row is the model's form
(log 10); past the end of the reply nothing more is shifted out (log 45).
A read returns the status byte and then the reply, if one is waiting, or the empty reply mark,
as far as it goes; it clears REPLY_WAITING and changes nothing else. Bits 0 to 3 of the status byte
are READY, REPLY_WAITING, NOTICE_PENDING and LAST_FRAME_DISCARDED. -/
def Obligations.PortTransactionsAreTaken : Prop :=
  -- the port once the read given in pieces that is under way, if one is, has ended
  let ended := fun q : PortState => { q with
    reading := none
    replyWaiting := q.replyWaiting && !q.reading.any ReadUnderWay.clears }
  -- what a read returns
  let returned := fun q : PortState => match q.replyWaiting, q.reply with
    | true, some r => q.status :: r.code :: BitVec.ofNat 8 r.result.number ::
        (be16 r.data.length ++ r.data)
    | _, _ => [q.status, 0]
  ((∀ (s : State) (p : Port) (c n : Byte) (params : List Byte),
     let bytes := if p = .venue then c :: n :: params else 0x01 :: c :: n :: params
     let f : Frame := { code := c, params := params.take n.toNat }
     let q := ended (s.port p)
     ∃ u, exec (.writeTransaction p true bytes true) s = .next u ∧ Touches [.links] s u ∧
       (∀ r, r ≠ p → u.port r = s.port r) ∧ (u.port p).mask = q.mask ∧
       (u.port p).shifted = (if p = .venue then q.shifted else [q.status]) ∧
       (q.link ≠ .ready → u.port p = { q with
         discarded := true, shifted := (u.port p).shifted }) ∧
       (q.link = .ready →
         ((c = 0 ∨ 250 < n.toNat ∨ params.length < n.toNat) →
           (u.port p).link = .ready ∧ (u.port p).discarded = true ∧
           (u.port p).reply = q.reply ∧ (u.port p).replyWaiting = q.replyWaiting) ∧
         (c ≠ 0 → n.toNat ≤ 250 → n.toNat ≤ params.length →
           (u.port p).discarded = false ∧
           (76 < c.toNat → (u.port p).link = .waiting ∧ (u.port p).held = some f ∧
             ∃ v, exec (.unknownCommand p) u = .next v ∧ Touches [.links] u v ∧
               Answers p c .unknownCommand [] u v) ∧
           (c.toNat ≤ 76 → permitted c p = false → Answers p c .notPermitted [] u u) ∧
           (c.toNat ≤ 76 → permitted c p = true → commandOf p f = none →
             Answers p c .badLength [] u u) ∧
           ∀ i, permitted c p = true → commandOf p f = some i →
             (u.port p).link = .waiting ∧ (u.port p).held = some f ∧
             (u.port p).reply = none ∧ (u.port p).replyWaiting = false ∧ u.canTake i = true))) ∧
   ∀ (s t u : State) (p : Port) (x y : List Byte), (s.port p).link ≠ .receiving →
     (p = .venue ∨ ∃ z, x = 0x01 :: z) → exec (.writeTransaction p true x false) s = .next t →
     exec (.writeTransaction p false y true) t = .next u →
     exec (.writeTransaction p true (x ++ y) true) s = .next u) ∧
  (∀ (s : State) (p : Port) (x y : List Byte), p ≠ .venue →
    let q := ended (s.port p)
    (∀ (k : Byte) (closes : Bool), k ≠ 0x01 → k ≠ 0x02 →
      ∃ u, exec (.writeTransaction p true (k :: x) closes) s = .next u ∧ Touches [.links] s u ∧
        u.port p = { q with shifted := [q.status], discarded := true } ∧
        (∀ r, r ≠ p → u.port r = s.port r) ∧
        (q.link ≠ .receiving → ∀ b, exec (.writeTransaction p false y b) u = .next u)) ∧
    exec (.writeTransaction p true (0x02 :: x) true) s =
      exec (.readTransaction p (x.length + 1)) s ∧
    ∃ t, exec (.writeTransaction p true (0x02 :: x) false) s = .next t ∧ Touches [.links] s t ∧
      (∀ r, r ≠ p → t.port r = s.port r) ∧
      t.port p = { q with
        shifted := (returned q).take (x.length + 1)
        replyWaiting := q.replyWaiting && decide (x.length + 1 < (returned q).length)
        reading := (t.port p).reading } ∧
      ended (t.port p) = { q with
        shifted := (returned q).take (x.length + 1), replyWaiting := false } ∧
      (∃ v, exec (.writeTransaction p false y false) t = .next v ∧
        exec (.writeTransaction p true (0x02 :: (x ++ y)) false) s = .next v) ∧
      exec (.writeTransaction p false y true) t =
        exec (.readTransaction p (x.length + 1 + y.length)) s) ∧
  ∀ (s : State) (p : Port) (n : Nat),
    let q := ended (s.port p)
    ∃ u, exec (.readTransaction p n) s = .next u ∧ Touches [.links] s u ∧
      u.port p = { q with shifted := (returned q).take n, replyWaiting := false } ∧
      (∀ r, r ≠ p → u.port r = s.port r) ∧
      (q.status.getLsbD 0 = true ↔ q.link = .ready) ∧
      q.status.getLsbD 1 = q.replyWaiting ∧ q.status.getLsbD 2 = q.attention ∧
      q.status.getLsbD 3 = q.discarded ∧ q.status.toNat < 16

/-- The reads of the blocks change nothing and answer with all the block's values in the order their
rules name them, or RANGE, OK_CLAMPED, NOT_FOUND or STATE in the cases their rules give; IDENT gives
0x7240, revision 1 and the port. Numbers stand most significant byte first (R194). The widths of the
fields are read from the rules (log 14), a mark as 0 for set and on (log 12). That the fault reason of
a Book entry, the stored verdict with its sequence number, the derived values of a slot, the font
header's values (its size in MiB) and the font operation in progress are one optional block each, that
a slot's write offset, GLYPH-QUERY's advance and fetch class, the pending list's front line, the
title's source slot, the measurement run's class and each of CLOCK-READ's last three values are
optional, as are a slot's lowest and highest note, its stated duration having 4 bytes, that the title
content's order is NONE, STAGE, NEXT_UP, and that an unvoiced last voice frame gives the pitch 0xFFFF
are the model's choices (log 46); so is what the open note's index counts (log 53); the LEAVING line's
row byte is a free value (log 5). -/
def Obligations.ReadsChangeNothing : Prop :=
  let mark := fun b : Bool => be8 (if b = true then 0 else 1)
  let opt := fun (width : Nat) (x : Option (List Byte)) => match x with
    | none => List.replicate (width + 1) 0
    | some d => 1 :: d
  let flags := fun xs : List Bool => be8 (xs.foldr (fun b n => (if b = true then 1 else 0) + 2 * n) 0)
  let pitch := fun p : Option Int => match p with
    | none => be16 0xFFFF
    | some x => beInt16 x
  let firstMiss := fun x : FirstMiss => be32 x.time ++ beInt16 x.reference ++ pitch x.pitch
  let turnFlags := fun f : TurnFlags => flags
    [f.rewound, f.skippedAhead, f.keyChanged, f.tempoChanged, f.partChanged, f.clockSlip]
  let channelFlags := fun f : ChannelFlags => flags [f.partial_, f.lateJoin, f.saturated, f.partChanged]
  (∀ (s : State) (p : Port),
    let four : List (Fin 4) := [0, 1, 2, 3]
    (s.canTake (.bookPolicyRead p) = true → ∃ u, Runs (.bookPolicyRead p) [] .ok
      (be8 s.book.mode.place ++ mark s.book.rotateOnTake ++ be16 s.book.masked.toNat ++
        (List.range 10).flatMap (fun o => be8 (s.book.caps[o]?.getD 0)) ++ be8 s.book.quota ++
        be16 s.book.quotaWindow ++ mark s.book.noDuplicates) s u) ∧
    (∀ a n : Byte, s.canTake (.bookRead p a n) = true →
      if a = 0 ∨ n = 0 then ∃ u, Runs (.bookRead p a n) [] .range [] s u
      else ∃ d u, Runs (.bookRead p a n) [] (if n.toNat ≤ 8 then .ok else .okClamped) d s u ∧
        let given := (s.book.entries.drop (a.toNat - 1)).take (min 8 n.toNat)
        (s.ticketsDistinct → d = be8 s.book.entries.length ++ mark s.book.held ++
          be8 s.book.mode.place ++ mark s.book.rotateOnTake ++ be8 s.book.lowest ++
          be16 s.book.nextTicket ++ be8 given.length ++
          (given.zipIdx a.toNat).flatMap fun x =>
            let e := x.1
            let slot := four.find? fun i => s.slots[i].ticket = some e.ticket
            be8 x.2 ++ be16 e.ticket ++ be24 e.songId ++ be8 e.origin ++ be8 e.tier.place ++
              be8 e.round ++ opt 1 (e.tag.map be8) ++ be32 e.acceptedAt.toNat ++ mark e.moved ++
              be8 e.state.place ++
              be8 (match slot with
                | none => 0
                | some i => match s.slots[i].state with
                  | .reserved => 1
                  | .loading => 2
                  | .checking => 3
                  | .ready => 4
                  | .fault => 5
                  | _ => 0) ++
              opt 1 (slot.bind fun i => if s.slots[i].state = .fault then
                s.slots[i].fault.map fun f => be8 f.1.place else none))) ∧
    (s.canTake (.panelRead p) = true → ∃ u, Runs (.panelRead p) [] .ok
      (be8 s.loop.phase.place ++ be8 s.loop.absentPointer.val ++ be16 s.loop.replyWindow ++
        be16 s.loop.cycleGap ++ s.loop.panels.toList.flatMap fun x =>
          mark x.enabled ++ be8 x.presence.place ++ be8 x.missRun ++ be8 x.errors ++
            opt 6 (x.stored.map fun v => be8 v.1.toNat ++ match v.2 with
              | .accepted t k => 1 :: (be16 t ++ be8 k ++ [0])
              | .refused r => [2, 0, 0, 0, BitVec.ofNat 8 r.number]
              | .cancelled => [3, 0, 0, 0, 0]
              | .notYours => [4, 0, 0, 0, 0]
              | .onStage => [5, 0, 0, 0, 0]
              | .unknown => [6, 0, 0, 0, 0])) s u) ∧
    (s.canTake (.stageRead p) = true → ∃ u, Runs (.stageRead p) [] .ok
      (be8 (if s.turn.isSome = true then 1 else 0) ++ mark s.autoEnd ++
        opt 15 (s.turn.map fun t => be16 t.ticket ++ be24 t.songId ++ be8 t.slot.val ++ be8 t.origin ++
          be8 t.tier.place ++ opt 1 (t.tag.map be8) ++ be32 t.startedAt.toNat ++ turnFlags t.flags))
      s u) ∧
    (s.canTake (.slotRead p) = true → ∃ u, Runs (.slotRead p) [] .ok
      (be8 s.depth ++ opt 1 ((four.find? fun i => s.slots[i].state = .loading).map fun i => be8 i.val) ++
        four.flatMap fun i =>
          let x := s.slots[i]
          let fault := if x.state = .fault then x.fault else none
          be8 x.state.place ++ opt 2 (x.ticket.map be16) ++ be16 x.bytes.length ++
            opt 2 (if x.state = .loading then some (be16 x.bytes.length) else none) ++
            opt 1 (fault.map fun f => be8 f.1.place) ++
            opt 2 (fault.bind fun f => f.2.map be16) ++
            opt 20 (if x.state = .ready ∨ x.state = .onStage then x.track.map fun t =>
              let numbers := t.notes.map fun n => n.number
              let count := fun part : PartTag => (t.notes.filter fun n =>
                n.tag = .both ∨ n.tag = if t.partCount = 1 then .a else part).length
              be8 t.partCount ++ be8 t.originalKey ++ be32 t.duration ++ opt 1 (numbers.min?.map be8) ++
                opt 1 (numbers.max?.map be8) ++ be16 (count .a) ++ be16 (count .b) ++
                be16 t.lineCount ++ be32 t.endTime
            else none)) s u) ∧
    (∀ n : Byte, s.canTake (.slotDetail p n) = true →
      if h : n.toNat < 4 then
        let x := s.slots[n.toNat]
        match x.track with
        | some t =>
          if x.state = .ready ∨ x.state = .onStage then ∃ u, Runs (.slotDetail p n) [] .ok
            (be8 t.title.length ++ t.title.flatMap (fun k => be16 k.toNat) ++ be8 t.artist.length ++
              t.artist.flatMap (fun k => be16 k.toNat) ++ be8 t.spans.length ++
              t.spans.flatMap fun y => be32 y.1 ++ be32 y.2) s u
          else ∃ u, Runs (.slotDetail p n) [] .state [] s u
        | none => ∃ u, Runs (.slotDetail p n) [] .state [] s u
      else ∃ u, Runs (.slotDetail p n) [] .range [] s u) ∧
    (s.canTake (.clockRead p) = true →
      let there : Bool := s.clock.state ≠ .stopped
      let ends := if there = true then s.clock.endTime else none
      ∃ u, Runs (.clockRead p) [] .ok
        (be8 s.clock.state.place ++ be32 s.clock.position ++ be16 s.clock.accumulator ++
          be16 s.clock.tempo ++ beInt8 s.clock.key ++ be8 s.clock.interlude.place ++
          be16 s.clock.slipWindow ++ opt 4 (s.clock.lastSync.map beInt32) ++ opt 4 (ends.map be32) ++
          opt 2 (if there = true then s.turn.map fun t => be16 t.ticket else none) ++
          opt 1 (ends.map fun e => mark (decide (e ≤ s.clock.position)))) s u) ∧
    (s.canTake (.lineWindowRead p) = true → ∃ u, Runs (.lineWindowRead p) [] .ok
      (let l := s.lines
       be8 l.canvas.place ++ be8 l.style.place ++ be8 l.titleRowsSetting ++ be8 l.lyricRows ++
        be16 l.guideSetting ++ be8 l.layout.titleRows ++ be8 l.layout.rows ++ be16 l.layout.guide ++
        be16 l.lead ++ be16 l.hold ++ be16 l.linger ++ be8 l.scrollTime ++
        opt 2 (l.scroll.map fun x => be8 x.done ++ be8 x.total) ++ mark l.rebuild ++
        be16 l.pending.length ++ opt 2 (l.pending.head?.map fun x => be16 x.index) ++
        be8 (match l.title with
          | .none => 0
          | .stage _ => 1
          | .nextUp _ => 2) ++
        opt 1 (match l.title with
          | .none => none
          | .stage i => some (be8 i.val)
          | .nextUp i => some (be8 i.val)) ++
        opt 4 (l.scoreShow.map fun x => be16 x.headline ++ be16 x.left) ++
        be8 l.window.length ++ l.window.flatMap fun x => be16 x.index ++
          (if x.state = .leaving then [Config.leavingRow] else be8 x.row) ++ be8 x.state.place ++
          mark x.clipped ++ mark x.linger) s u) ∧
    (s.canTake (.cacheStatus p) = true →
      let count := fun f : CacheEntry → Bool => be16 (s.cache.entries.filter f).length
      ∃ u, Runs (.cacheStatus p) [] .ok
        (count (fun e => e.state = .free) ++ count (fun e => e.isFetching) ++
          count (fun e => e.state = .resident) ++ count (fun e => e.state = .stale) ++
          count (fun e => e.state = .fetching .demand) ++
          count (fun e => e.state = .fetching .prefetch) ++ count (fun e => 0 < e.pins) ++
          count (fun e => e.substitute) ++
          opt 2 (s.cache.inProgress.bind fun i => (s.cache.entries[i]?).bind fun e =>
            e.code.map fun k => be16 k.toNat)) s u) ∧
    (∀ k : Code, s.canTake (.glyphQuery p k) = true →
      ((∀ e ∈ s.cache.entries, e.code ≠ some k) →
        ∃ u, Runs (.glyphQuery p k) [] .notFound [] s u) ∧
      ∀ (i : Nat) (e : CacheEntry), s.cache.entries[i]? = some e → e.code = some k →
        (∀ j e', j < i → s.cache.entries[j]? = some e' → e'.code ≠ some k) →
        ∃ d u, Runs (.glyphQuery p k) [] .ok d s u ∧
          ∀ n, s.cache.recency[n]? = some i → s.cache.recency.Nodup →
            d = be8 e.state.place ++ be16 e.pins ++ opt 1 (e.bitmap.map fun b => be8 b.advance) ++
              mark e.substitute ++
              opt 1 (match e.state with
                | .fetching c => some (be8 c.place)
                | _ => none) ++ be16 n) ∧
    (s.canTake (.fontStatus p) = true → ∃ u, Runs (.fontStatus p) [] .ok
      (be8 s.font.store.place ++
        opt 7 (s.font.header.map fun h => be16 h.glyphCount ++ be32 h.tableBase ++ be8 h.sizeMiB) ++
        be8 s.font.protection.place ++ mark s.font.latch ++ mark s.font.fault ++
        opt 3 (match s.font.store with
          | .busy (.program _ _) n => some (0 :: be16 n)
          | .busy (.erase _) n => some (1 :: be16 n)
          | _ => none)) s u) ∧
    (s.canTake (.displayStatus p) = true → ∃ u, Runs (.displayStatus p) [] .ok
      (let v := s.video
       be8 v.path.place ++ opt 1 (v.runClass.map fun c => be8 c.place) ++ be8 v.runCount ++
        opt 1 (v.locked.map fun f => be8 f.place) ++ be8 v.freeRun.place ++
        be8 s.lines.canvas.place ++ be8 s.lines.layout.titleRows ++ be8 s.lines.layout.rows ++
        be16 s.lines.layout.guide ++ be8 v.power.place ++ mark v.switch ++ be8 v.content.place ++
        mark v.invert ++ be8 v.scope.place ++ be8 v.planeOpacity ++ be24 v.shade.toNat ++
        be8 v.shadeOpacity ++ be24 v.fill.toNat ++ mark v.fmark ++ be8 v.glyphLate ++
        be8 v.postLate ++ be8 v.lineClipped ++
        opt 1 (v.lastKeyed.map fun b => flags [b.title, b.lyric, b.guide])) s u) ∧
    (s.canTake (.voiceRead p) = true →
      let g := s.voice.scoring
      ∃ u, Runs (.voiceRead p) [] .ok
        (be8 s.voice.audio.place ++ be16 g.gate ++ be8 g.tolerance ++ be16 g.grace ++ be16 g.latency ++
          mark g.folding ++ be8 g.pitchWeight ++ be8 g.noteWeight ++ be8 g.strayCost ++
          opt 4 (s.voice.tone.map fun t => be8 t.mic.val ++ be8 t.note ++ be8 t.done ++ be8 t.voiced) ++
          opt 7 (s.voice.lastTone.map fun r => be8 r.mic.val ++ be8 r.note ++ be8 r.voiced ++
            opt 2 (r.average.map be16) ++ be8 r.outcome.place) ++
          four.flatMap fun m =>
            let c := s.voice.channels[m]
            mark c.enabled ++ be8 c.part.place ++
              (if s.stageTrack.any (fun t => t.partCount = 1) then [0] else be8 c.part.place) ++
              be24 c.colour.toNat ++ mark c.takingPart ++ be16 c.judged ++ be16 c.hits ++
              be16 c.notes ++ be16 c.kept ++ be16 c.strays ++
              opt 6 (c.openNote.map fun o => be16 o.index ++ be16 o.a ++ be16 o.h) ++
              be8 c.lock.place ++ be8 c.hitRun ++ be8 c.missRun ++ be8 c.lockCount ++
              channelFlags c.flags ++ mark c.frozen ++ opt 8 (c.firstMiss.map firstMiss) ++
              opt 6 (c.lastFrame.map fun f => pitch f.pitch ++ be32 f.at_.toNat)) s u) ∧
    (s.canTake (.bestRead p) = true → ∃ u, Runs (.bestRead p) [] .ok
      (be8 s.best.length ++ s.best.flatMap fun x => be16 x.ticket ++ be24 x.songId ++ be8 x.origin ++
        opt 1 (x.tag.map be8) ++ be16 x.headline ++ be32 x.endedAt.toNat) s u) ∧
    (s.canTake (.ident p) = true → ∃ u, Runs (.ident p) [] .ok
      [0x72, 0x40, 0x01, match p with
        | .playback => 0
        | .console => 1
        | .venue => 2] s u) ∧
    ∀ (x : Byte) (v : BitVec 16), s.canTake (.resultRead p x v) = true →
      (2 ≤ x.toNat ∨ (x = 1 ∧ 15 < v.toNat) → ∃ u, Runs (.resultRead p x v) [] .range [] s u) ∧
      (x = 0 → (v = 0 ∨ ∀ r ∈ s.ring, r.ticket ≠ v.toNat) →
        ∃ u, Runs (.resultRead p x v) [] .notFound [] s u) ∧
      (x = 1 → v.toNat ≤ 15 → s.ring.length ≤ v.toNat →
        ∃ u, Runs (.resultRead p x v) [] .notFound [] s u) ∧
      ∀ (k : Nat) (r : ResultRecord), s.ring.reverse[k]? = some r →
        (x = 1 ∧ v.toNat = k ∧ k ≤ 15) ∨ (x = 0 ∧ v ≠ 0 ∧ v.toNat = r.ticket ∧
          ∀ j r', j < k → s.ring.reverse[j]? = some r' → r'.ticket ≠ r.ticket) →
        ∃ u, Runs (.resultRead p x v) [] .ok
          (be8 s.ring.length ++ be8 k ++ be16 r.ticket ++ be24 r.songId ++ be8 r.origin ++
            opt 1 (r.tag.map be8) ++ be8 r.reason.place ++ turnFlags r.flags ++ beInt8 r.key ++
            be32 r.startedAt.toNat ++ be32 r.endedAt.toNat ++ be32 (r.endedAt - r.startedAt).toNat ++
            opt 2 (r.headline.map be16) ++ mark r.collected ++ be8 r.channels.length ++
            r.channels.flatMap fun c => be8 c.mic.val ++ be8 c.part.place ++ be8 c.assessed.place ++
              mark c.final.isSome ++ be16 c.judged ++ be16 c.hits ++ be16 c.strays ++ be16 c.notes ++
              be16 c.kept ++ be16 (c.final.getD 0) ++ be8 c.lockCount ++ channelFlags c.flags ++
              opt 8 (c.firstMiss.map firstMiss)) s u) ∧
  -- the places of the enumerated values
  ([Tier.normal, .priority].map Tier.place = [0, 1] ∧
    [EntryState.waiting, .called].map EntryState.place = [0, 1] ∧
    [OrderMode.arrival, .rotate].map OrderMode.place = [0, 1] ∧
    [RefusalReason.masked, .badSong, .duplicate, .quota, .cap, .limit, .full].map
      RefusalReason.number = [1, 2, 3, 4, 5, 6, 7] ∧
    [Presence.present, .absent].map Presence.place = [0, 1] ∧
    [LoopPhase.sweep, .cycle, .gap].map LoopPhase.place = [0, 1, 2] ∧
    [EndReason.complete, .skipped, .failed, .aborted].map EndReason.place = [0, 1, 2, 3] ∧
    [SlotState.free, .reserved, .loading, .checking, .ready, .onStage, .scrub, .fault].map
      SlotState.place = [0, 1, 2, 3, 4, 5, 6, 7] ∧
    [FaultReason.overflow, .stalled, .length, .sum, .signature, .version, .songMismatch, .truncated,
      .order, .overlap, .range, .limit, .marks].map FaultReason.place =
      [0, 1, 2, 3, 4, 5, 6, 7, 8, 9, 10, 11, 12] ∧
    [ClockState.stopped, .cued, .running, .paused].map ClockState.place = [0, 1, 2, 3] ∧
    [Interlude.inside, .outside].map Interlude.place = [0, 1] ∧
    [Canvas.hd720, .hd1080].map Canvas.place = [0, 1] ∧
    [Style.scroll, .alternate].map Style.place = [0, 1] ∧
    [LineState.posted, .singing, .done, .leaving].map LineState.place = [0, 1, 2, 3] ∧
    [FetchClass.demand, .prefetch].map FetchClass.place = [0, 1] ∧
    [CacheState.free, .fetching .demand, .fetching .prefetch, .resident, .stale].map
      CacheState.place = [0, 1, 1, 2, 3] ∧
    [StoreState.scanning, .ready, .absent, .maintenance, .busy (.erase 0) 0].map
      StoreState.place = [0, 1, 2, 3, 4] ∧
    (∀ op n, (StoreState.busy op n).place = 4) ∧
    [Protection.none, .upperQuarter, .upperHalf, .all].map Protection.place = [0, 1, 2, 3] ∧
    [Format.f720p50, .f720p60, .f1080p50, .f1080p60].map Format.place = [0, 1, 2, 3] ∧
    [FrameClass.supported .f720p50, .supported .f720p60, .supported .f1080p50, .supported .f1080p60,
      .unsupported].map FrameClass.place = [0, 1, 2, 3, 4] ∧
    [PathState.noInput, .locked, .changeover, .unsupported].map PathState.place = [0, 1, 2, 3] ∧
    [Power.standby, .waking, .active].map Power.place = [0, 1, 2] ∧
    [Content.normal, .blank, .fill].map Content.place = [0, 1, 2] ∧
    [Scope.full, .lyricOnly].map Scope.place = [0, 1] ∧
    [Part.a, .b].map Part.place = [0, 1] ∧ [Lock.unlocked, .locked].map Lock.place = [0, 1] ∧
    [AudioState.present, .lost].map AudioState.place = [0, 1] ∧
    [ToneOutcome.pass, .fail, .aborted].map ToneOutcome.place = [0, 1, 2])
end

