-- ==== Sys2Proof/Laws/State.lean ====
section
/-! SUPPORT. The fields of the state after each plain update: one lemma per field per update. -/

namespace Sys2Proof.Machine.State

variable (s : State)

@[simp] theorem setPort_sessionTime (p : Port) (x : PortState) :
    (s.setPort p x).sessionTime = s.sessionTime := rfl
@[simp] theorem setPort_book (p : Port) (x : PortState) : (s.setPort p x).book = s.book := rfl
@[simp] theorem setPort_loop (p : Port) (x : PortState) : (s.setPort p x).loop = s.loop := rfl
@[simp] theorem setPort_turn (p : Port) (x : PortState) : (s.setPort p x).turn = s.turn := rfl
@[simp] theorem setPort_autoEnd (p : Port) (x : PortState) :
    (s.setPort p x).autoEnd = s.autoEnd := rfl
@[simp] theorem setPort_slots (p : Port) (x : PortState) : (s.setPort p x).slots = s.slots := rfl
@[simp] theorem setPort_depth (p : Port) (x : PortState) : (s.setPort p x).depth = s.depth := rfl
@[simp] theorem setPort_clock (p : Port) (x : PortState) : (s.setPort p x).clock = s.clock := rfl
@[simp] theorem setPort_lines (p : Port) (x : PortState) : (s.setPort p x).lines = s.lines := rfl
@[simp] theorem setPort_cache (p : Port) (x : PortState) : (s.setPort p x).cache = s.cache := rfl
@[simp] theorem setPort_font (p : Port) (x : PortState) : (s.setPort p x).font = s.font := rfl
@[simp] theorem setPort_flash (p : Port) (x : PortState) : (s.setPort p x).flash = s.flash := rfl
@[simp] theorem setPort_video (p : Port) (x : PortState) : (s.setPort p x).video = s.video := rfl
@[simp] theorem setPort_voice (p : Port) (x : PortState) : (s.setPort p x).voice = s.voice := rfl
@[simp] theorem setPort_ring (p : Port) (x : PortState) : (s.setPort p x).ring = s.ring := rfl
@[simp] theorem setPort_best (p : Port) (x : PortState) : (s.setPort p x).best = s.best := rfl
@[simp] theorem setPort_ports (p : Port) (x : PortState) :
    (s.setPort p x).ports = s.ports.set p x := rfl
@[simp] theorem setPort_freeCount (p : Port) (x : PortState) :
    (s.setPort p x).freeCount = s.freeCount := rfl
@[simp] theorem setPort_pending (p : Port) (x : PortState) :
    (s.setPort p x).pending = s.pending := rfl

@[simp] theorem setSlot_sessionTime (i : Fin 4) (x : Slot) :
    (s.setSlot i x).sessionTime = s.sessionTime := rfl
@[simp] theorem setSlot_book (i : Fin 4) (x : Slot) : (s.setSlot i x).book = s.book := rfl
@[simp] theorem setSlot_loop (i : Fin 4) (x : Slot) : (s.setSlot i x).loop = s.loop := rfl
@[simp] theorem setSlot_turn (i : Fin 4) (x : Slot) : (s.setSlot i x).turn = s.turn := rfl
@[simp] theorem setSlot_autoEnd (i : Fin 4) (x : Slot) : (s.setSlot i x).autoEnd = s.autoEnd := rfl
@[simp] theorem setSlot_slots (i : Fin 4) (x : Slot) :
    (s.setSlot i x).slots = s.slots.set i.val x i.isLt := rfl
@[simp] theorem setSlot_depth (i : Fin 4) (x : Slot) : (s.setSlot i x).depth = s.depth := rfl
@[simp] theorem setSlot_clock (i : Fin 4) (x : Slot) : (s.setSlot i x).clock = s.clock := rfl
@[simp] theorem setSlot_lines (i : Fin 4) (x : Slot) : (s.setSlot i x).lines = s.lines := rfl
@[simp] theorem setSlot_cache (i : Fin 4) (x : Slot) : (s.setSlot i x).cache = s.cache := rfl
@[simp] theorem setSlot_font (i : Fin 4) (x : Slot) : (s.setSlot i x).font = s.font := rfl
@[simp] theorem setSlot_flash (i : Fin 4) (x : Slot) : (s.setSlot i x).flash = s.flash := rfl
@[simp] theorem setSlot_video (i : Fin 4) (x : Slot) : (s.setSlot i x).video = s.video := rfl
@[simp] theorem setSlot_voice (i : Fin 4) (x : Slot) : (s.setSlot i x).voice = s.voice := rfl
@[simp] theorem setSlot_ring (i : Fin 4) (x : Slot) : (s.setSlot i x).ring = s.ring := rfl
@[simp] theorem setSlot_best (i : Fin 4) (x : Slot) : (s.setSlot i x).best = s.best := rfl
@[simp] theorem setSlot_ports (i : Fin 4) (x : Slot) : (s.setSlot i x).ports = s.ports := rfl
@[simp] theorem setSlot_freeCount (i : Fin 4) (x : Slot) :
    (s.setSlot i x).freeCount = s.freeCount := rfl
@[simp] theorem setSlot_pending (i : Fin 4) (x : Slot) : (s.setSlot i x).pending = s.pending := rfl

@[simp] theorem setChannel_sessionTime (m : Fin 4) (c : Channel) :
    (s.setChannel m c).sessionTime = s.sessionTime := rfl
@[simp] theorem setChannel_book (m : Fin 4) (c : Channel) : (s.setChannel m c).book = s.book := rfl
@[simp] theorem setChannel_loop (m : Fin 4) (c : Channel) : (s.setChannel m c).loop = s.loop := rfl
@[simp] theorem setChannel_turn (m : Fin 4) (c : Channel) : (s.setChannel m c).turn = s.turn := rfl
@[simp] theorem setChannel_autoEnd (m : Fin 4) (c : Channel) :
    (s.setChannel m c).autoEnd = s.autoEnd := rfl
@[simp] theorem setChannel_slots (m : Fin 4) (c : Channel) :
    (s.setChannel m c).slots = s.slots := rfl
@[simp] theorem setChannel_depth (m : Fin 4) (c : Channel) :
    (s.setChannel m c).depth = s.depth := rfl
@[simp] theorem setChannel_clock (m : Fin 4) (c : Channel) :
    (s.setChannel m c).clock = s.clock := rfl
@[simp] theorem setChannel_lines (m : Fin 4) (c : Channel) :
    (s.setChannel m c).lines = s.lines := rfl
@[simp] theorem setChannel_cache (m : Fin 4) (c : Channel) :
    (s.setChannel m c).cache = s.cache := rfl
@[simp] theorem setChannel_font (m : Fin 4) (c : Channel) : (s.setChannel m c).font = s.font := rfl
@[simp] theorem setChannel_flash (m : Fin 4) (c : Channel) :
    (s.setChannel m c).flash = s.flash := rfl
@[simp] theorem setChannel_video (m : Fin 4) (c : Channel) :
    (s.setChannel m c).video = s.video := rfl
@[simp] theorem setChannel_voice (m : Fin 4) (c : Channel) :
    (s.setChannel m c).voice = { s.voice with channels := s.voice.channels.set m.val c m.isLt } := rfl
@[simp] theorem setChannel_ring (m : Fin 4) (c : Channel) : (s.setChannel m c).ring = s.ring := rfl
@[simp] theorem setChannel_best (m : Fin 4) (c : Channel) : (s.setChannel m c).best = s.best := rfl
@[simp] theorem setChannel_ports (m : Fin 4) (c : Channel) :
    (s.setChannel m c).ports = s.ports := rfl
@[simp] theorem setChannel_freeCount (m : Fin 4) (c : Channel) :
    (s.setChannel m c).freeCount = s.freeCount := rfl
@[simp] theorem setChannel_pending (m : Fin 4) (c : Channel) :
    (s.setChannel m c).pending = s.pending := rfl

@[simp] theorem mapBook_sessionTime (f : Book → Book) :
    (s.mapBook f).sessionTime = s.sessionTime := rfl
@[simp] theorem mapBook_book (f : Book → Book) : (s.mapBook f).book = f s.book := rfl
@[simp] theorem mapBook_loop (f : Book → Book) : (s.mapBook f).loop = s.loop := rfl
@[simp] theorem mapBook_turn (f : Book → Book) : (s.mapBook f).turn = s.turn := rfl
@[simp] theorem mapBook_autoEnd (f : Book → Book) : (s.mapBook f).autoEnd = s.autoEnd := rfl
@[simp] theorem mapBook_slots (f : Book → Book) : (s.mapBook f).slots = s.slots := rfl
@[simp] theorem mapBook_depth (f : Book → Book) : (s.mapBook f).depth = s.depth := rfl
@[simp] theorem mapBook_clock (f : Book → Book) : (s.mapBook f).clock = s.clock := rfl
@[simp] theorem mapBook_lines (f : Book → Book) : (s.mapBook f).lines = s.lines := rfl
@[simp] theorem mapBook_cache (f : Book → Book) : (s.mapBook f).cache = s.cache := rfl
@[simp] theorem mapBook_font (f : Book → Book) : (s.mapBook f).font = s.font := rfl
@[simp] theorem mapBook_flash (f : Book → Book) : (s.mapBook f).flash = s.flash := rfl
@[simp] theorem mapBook_video (f : Book → Book) : (s.mapBook f).video = s.video := rfl
@[simp] theorem mapBook_voice (f : Book → Book) : (s.mapBook f).voice = s.voice := rfl
@[simp] theorem mapBook_ring (f : Book → Book) : (s.mapBook f).ring = s.ring := rfl
@[simp] theorem mapBook_best (f : Book → Book) : (s.mapBook f).best = s.best := rfl
@[simp] theorem mapBook_ports (f : Book → Book) : (s.mapBook f).ports = s.ports := rfl
@[simp] theorem mapBook_freeCount (f : Book → Book) : (s.mapBook f).freeCount = s.freeCount := rfl
@[simp] theorem mapBook_pending (f : Book → Book) : (s.mapBook f).pending = s.pending := rfl

@[simp] theorem mapLoop_sessionTime (f : Loop → Loop) :
    (s.mapLoop f).sessionTime = s.sessionTime := rfl
@[simp] theorem mapLoop_book (f : Loop → Loop) : (s.mapLoop f).book = s.book := rfl
@[simp] theorem mapLoop_loop (f : Loop → Loop) : (s.mapLoop f).loop = f s.loop := rfl
@[simp] theorem mapLoop_turn (f : Loop → Loop) : (s.mapLoop f).turn = s.turn := rfl
@[simp] theorem mapLoop_autoEnd (f : Loop → Loop) : (s.mapLoop f).autoEnd = s.autoEnd := rfl
@[simp] theorem mapLoop_slots (f : Loop → Loop) : (s.mapLoop f).slots = s.slots := rfl
@[simp] theorem mapLoop_depth (f : Loop → Loop) : (s.mapLoop f).depth = s.depth := rfl
@[simp] theorem mapLoop_clock (f : Loop → Loop) : (s.mapLoop f).clock = s.clock := rfl
@[simp] theorem mapLoop_lines (f : Loop → Loop) : (s.mapLoop f).lines = s.lines := rfl
@[simp] theorem mapLoop_cache (f : Loop → Loop) : (s.mapLoop f).cache = s.cache := rfl
@[simp] theorem mapLoop_font (f : Loop → Loop) : (s.mapLoop f).font = s.font := rfl
@[simp] theorem mapLoop_flash (f : Loop → Loop) : (s.mapLoop f).flash = s.flash := rfl
@[simp] theorem mapLoop_video (f : Loop → Loop) : (s.mapLoop f).video = s.video := rfl
@[simp] theorem mapLoop_voice (f : Loop → Loop) : (s.mapLoop f).voice = s.voice := rfl
@[simp] theorem mapLoop_ring (f : Loop → Loop) : (s.mapLoop f).ring = s.ring := rfl
@[simp] theorem mapLoop_best (f : Loop → Loop) : (s.mapLoop f).best = s.best := rfl
@[simp] theorem mapLoop_ports (f : Loop → Loop) : (s.mapLoop f).ports = s.ports := rfl
@[simp] theorem mapLoop_freeCount (f : Loop → Loop) : (s.mapLoop f).freeCount = s.freeCount := rfl
@[simp] theorem mapLoop_pending (f : Loop → Loop) : (s.mapLoop f).pending = s.pending := rfl

@[simp] theorem mapClock_sessionTime (f : Clock → Clock) :
    (s.mapClock f).sessionTime = s.sessionTime := rfl
@[simp] theorem mapClock_book (f : Clock → Clock) : (s.mapClock f).book = s.book := rfl
@[simp] theorem mapClock_loop (f : Clock → Clock) : (s.mapClock f).loop = s.loop := rfl
@[simp] theorem mapClock_turn (f : Clock → Clock) : (s.mapClock f).turn = s.turn := rfl
@[simp] theorem mapClock_autoEnd (f : Clock → Clock) : (s.mapClock f).autoEnd = s.autoEnd := rfl
@[simp] theorem mapClock_slots (f : Clock → Clock) : (s.mapClock f).slots = s.slots := rfl
@[simp] theorem mapClock_depth (f : Clock → Clock) : (s.mapClock f).depth = s.depth := rfl
@[simp] theorem mapClock_clock (f : Clock → Clock) : (s.mapClock f).clock = f s.clock := rfl
@[simp] theorem mapClock_lines (f : Clock → Clock) : (s.mapClock f).lines = s.lines := rfl
@[simp] theorem mapClock_cache (f : Clock → Clock) : (s.mapClock f).cache = s.cache := rfl
@[simp] theorem mapClock_font (f : Clock → Clock) : (s.mapClock f).font = s.font := rfl
@[simp] theorem mapClock_flash (f : Clock → Clock) : (s.mapClock f).flash = s.flash := rfl
@[simp] theorem mapClock_video (f : Clock → Clock) : (s.mapClock f).video = s.video := rfl
@[simp] theorem mapClock_voice (f : Clock → Clock) : (s.mapClock f).voice = s.voice := rfl
@[simp] theorem mapClock_ring (f : Clock → Clock) : (s.mapClock f).ring = s.ring := rfl
@[simp] theorem mapClock_best (f : Clock → Clock) : (s.mapClock f).best = s.best := rfl
@[simp] theorem mapClock_ports (f : Clock → Clock) : (s.mapClock f).ports = s.ports := rfl
@[simp] theorem mapClock_freeCount (f : Clock → Clock) :
    (s.mapClock f).freeCount = s.freeCount := rfl
@[simp] theorem mapClock_pending (f : Clock → Clock) : (s.mapClock f).pending = s.pending := rfl

@[simp] theorem mapLines_sessionTime (f : LineScheduler → LineScheduler) :
    (s.mapLines f).sessionTime = s.sessionTime := rfl
@[simp] theorem mapLines_book (f : LineScheduler → LineScheduler) :
    (s.mapLines f).book = s.book := rfl
@[simp] theorem mapLines_loop (f : LineScheduler → LineScheduler) :
    (s.mapLines f).loop = s.loop := rfl
@[simp] theorem mapLines_turn (f : LineScheduler → LineScheduler) :
    (s.mapLines f).turn = s.turn := rfl
@[simp] theorem mapLines_autoEnd (f : LineScheduler → LineScheduler) :
    (s.mapLines f).autoEnd = s.autoEnd := rfl
@[simp] theorem mapLines_slots (f : LineScheduler → LineScheduler) :
    (s.mapLines f).slots = s.slots := rfl
@[simp] theorem mapLines_depth (f : LineScheduler → LineScheduler) :
    (s.mapLines f).depth = s.depth := rfl
@[simp] theorem mapLines_clock (f : LineScheduler → LineScheduler) :
    (s.mapLines f).clock = s.clock := rfl
@[simp] theorem mapLines_lines (f : LineScheduler → LineScheduler) :
    (s.mapLines f).lines = f s.lines := rfl
@[simp] theorem mapLines_cache (f : LineScheduler → LineScheduler) :
    (s.mapLines f).cache = s.cache := rfl
@[simp] theorem mapLines_font (f : LineScheduler → LineScheduler) :
    (s.mapLines f).font = s.font := rfl
@[simp] theorem mapLines_flash (f : LineScheduler → LineScheduler) :
    (s.mapLines f).flash = s.flash := rfl
@[simp] theorem mapLines_video (f : LineScheduler → LineScheduler) :
    (s.mapLines f).video = s.video := rfl
@[simp] theorem mapLines_voice (f : LineScheduler → LineScheduler) :
    (s.mapLines f).voice = s.voice := rfl
@[simp] theorem mapLines_ring (f : LineScheduler → LineScheduler) :
    (s.mapLines f).ring = s.ring := rfl
@[simp] theorem mapLines_best (f : LineScheduler → LineScheduler) :
    (s.mapLines f).best = s.best := rfl
@[simp] theorem mapLines_ports (f : LineScheduler → LineScheduler) :
    (s.mapLines f).ports = s.ports := rfl
@[simp] theorem mapLines_freeCount (f : LineScheduler → LineScheduler) :
    (s.mapLines f).freeCount = s.freeCount := rfl
@[simp] theorem mapLines_pending (f : LineScheduler → LineScheduler) :
    (s.mapLines f).pending = s.pending := rfl

@[simp] theorem mapFont_sessionTime (f : FontPort → FontPort) :
    (s.mapFont f).sessionTime = s.sessionTime := rfl
@[simp] theorem mapFont_book (f : FontPort → FontPort) : (s.mapFont f).book = s.book := rfl
@[simp] theorem mapFont_loop (f : FontPort → FontPort) : (s.mapFont f).loop = s.loop := rfl
@[simp] theorem mapFont_turn (f : FontPort → FontPort) : (s.mapFont f).turn = s.turn := rfl
@[simp] theorem mapFont_autoEnd (f : FontPort → FontPort) : (s.mapFont f).autoEnd = s.autoEnd := rfl
@[simp] theorem mapFont_slots (f : FontPort → FontPort) : (s.mapFont f).slots = s.slots := rfl
@[simp] theorem mapFont_depth (f : FontPort → FontPort) : (s.mapFont f).depth = s.depth := rfl
@[simp] theorem mapFont_clock (f : FontPort → FontPort) : (s.mapFont f).clock = s.clock := rfl
@[simp] theorem mapFont_lines (f : FontPort → FontPort) : (s.mapFont f).lines = s.lines := rfl
@[simp] theorem mapFont_cache (f : FontPort → FontPort) : (s.mapFont f).cache = s.cache := rfl
@[simp] theorem mapFont_font (f : FontPort → FontPort) : (s.mapFont f).font = f s.font := rfl
@[simp] theorem mapFont_flash (f : FontPort → FontPort) : (s.mapFont f).flash = s.flash := rfl
@[simp] theorem mapFont_video (f : FontPort → FontPort) : (s.mapFont f).video = s.video := rfl
@[simp] theorem mapFont_voice (f : FontPort → FontPort) : (s.mapFont f).voice = s.voice := rfl
@[simp] theorem mapFont_ring (f : FontPort → FontPort) : (s.mapFont f).ring = s.ring := rfl
@[simp] theorem mapFont_best (f : FontPort → FontPort) : (s.mapFont f).best = s.best := rfl
@[simp] theorem mapFont_ports (f : FontPort → FontPort) : (s.mapFont f).ports = s.ports := rfl
@[simp] theorem mapFont_freeCount (f : FontPort → FontPort) :
    (s.mapFont f).freeCount = s.freeCount := rfl
@[simp] theorem mapFont_pending (f : FontPort → FontPort) : (s.mapFont f).pending = s.pending := rfl

@[simp] theorem mapVideo_sessionTime (f : Compositor → Compositor) :
    (s.mapVideo f).sessionTime = s.sessionTime := rfl
@[simp] theorem mapVideo_book (f : Compositor → Compositor) : (s.mapVideo f).book = s.book := rfl
@[simp] theorem mapVideo_loop (f : Compositor → Compositor) : (s.mapVideo f).loop = s.loop := rfl
@[simp] theorem mapVideo_turn (f : Compositor → Compositor) : (s.mapVideo f).turn = s.turn := rfl
@[simp] theorem mapVideo_autoEnd (f : Compositor → Compositor) :
    (s.mapVideo f).autoEnd = s.autoEnd := rfl
@[simp] theorem mapVideo_slots (f : Compositor → Compositor) : (s.mapVideo f).slots = s.slots := rfl
@[simp] theorem mapVideo_depth (f : Compositor → Compositor) : (s.mapVideo f).depth = s.depth := rfl
@[simp] theorem mapVideo_clock (f : Compositor → Compositor) : (s.mapVideo f).clock = s.clock := rfl
@[simp] theorem mapVideo_lines (f : Compositor → Compositor) : (s.mapVideo f).lines = s.lines := rfl
@[simp] theorem mapVideo_cache (f : Compositor → Compositor) : (s.mapVideo f).cache = s.cache := rfl
@[simp] theorem mapVideo_font (f : Compositor → Compositor) : (s.mapVideo f).font = s.font := rfl
@[simp] theorem mapVideo_flash (f : Compositor → Compositor) : (s.mapVideo f).flash = s.flash := rfl
@[simp] theorem mapVideo_video (f : Compositor → Compositor) :
    (s.mapVideo f).video = f s.video := rfl
@[simp] theorem mapVideo_voice (f : Compositor → Compositor) : (s.mapVideo f).voice = s.voice := rfl
@[simp] theorem mapVideo_ring (f : Compositor → Compositor) : (s.mapVideo f).ring = s.ring := rfl
@[simp] theorem mapVideo_best (f : Compositor → Compositor) : (s.mapVideo f).best = s.best := rfl
@[simp] theorem mapVideo_ports (f : Compositor → Compositor) : (s.mapVideo f).ports = s.ports := rfl
@[simp] theorem mapVideo_freeCount (f : Compositor → Compositor) :
    (s.mapVideo f).freeCount = s.freeCount := rfl
@[simp] theorem mapVideo_pending (f : Compositor → Compositor) :
    (s.mapVideo f).pending = s.pending := rfl

end Sys2Proof.Machine.State
end

