-- ==== Sys2Proof/Laws/Footprints.lean ====
section
/-! SUPPORT. Footprints: for each shared operation, the pieces of the state it may touch. -/

namespace Sys2Proof.Machine

namespace Touches

theorem refl (ks : List Piece) (s : State) : Touches ks s s := by
  intro k _; cases k <;> first | rfl | exact fun _ => rfl

theorem trans {ks : List Piece} {s t u : State} (h : Touches ks s t) (g : Touches ks t u) :
    Touches ks s u := by
  intro k hk
  have a := h k hk
  have b := g k hk
  cases k with
  | links =>
    intro q
    have hb := congrArg (fun x : PortState => { x with notices := (s.port q).notices }) (b q)
    exact hb.trans (a q)
  | notices => exact fun q => (b q).trans (a q)
  | _ => exact Eq.trans b a

theorem mono {ks ls : List Piece} {s t : State} (h : Touches ks s t)
    (sub : (ks.all fun k => ls.contains k) = true) : Touches ls s t := by
  intro k hk
  refine h k fun hin => hk ?_
  simpa using List.all_eq_true.mp sub k hin

theorem foldl {α : Type} {ks : List Piece} {f : State → α → State}
    (h : ∀ s x, Touches ks s (f s x)) (xs : List α) (s : State) :
    Touches ks s (xs.foldl f s) := by
  induction xs generalizing s with
  | nil => exact refl ks s
  | cons x xs ih => exact (h s x).trans (ih _)

theorem ite {ks : List Piece} {s t u : State} {c : Prop} [Decidable c] (h : Touches ks s t)
    (g : Touches ks s u) : Touches ks s (if c then t else u) := by
  split
  · exact h
  · exact g

end Touches

/-! ## Ports and slots -/

theorem port_setPort_same (s : State) (p : Port) (x : PortState) : (s.setPort p x).port p = x := by
  cases p <;> rfl

theorem port_setPort_other (s : State) {p q : Port} (x : PortState) (h : q ≠ p) :
    (s.setPort p x).port q = s.port q := by
  cases p <;> cases q <;> first | rfl | exact absurd rfl h

theorem setPort_touches (s : State) (p : Port) (x : PortState) :
    Touches [.links, .notices] s (s.setPort p x) := by
  intro k hk; cases k <;> first | rfl | exact absurd (by decide) hk

/-- A port keeps its notices: only links are touched. -/
theorem setPort_links (s : State) (p : Port) (x : PortState)
    (h : x.notices = (s.port p).notices) : Touches [.links] s (s.setPort p x) := by
  intro k hk
  cases k with
  | links => exact absurd (by decide) hk
  | notices =>
    intro q
    by_cases hq : q = p
    · rw [hq, port_setPort_same, h]
    · rw [port_setPort_other s x hq]
  | _ => rfl

/-- A port keeps all but its notices. -/
theorem setPort_notices (s : State) (p : Port) (x : PortState)
    (h : { x with notices := (s.port p).notices } = s.port p) :
    Touches [.notices] s (s.setPort p x) := by
  intro k hk
  cases k with
  | notices => exact absurd (by decide) hk
  | links =>
    intro q
    by_cases hq : q = p
    · subst hq; rw [port_setPort_same, h]
    · rw [port_setPort_other s x hq]
  | _ => rfl

theorem raise_touches (s : State) (ps : List Port) (n : Notice) :
    Touches [.notices] s (s.raise ps n) :=
  Touches.foldl (fun t p => setPort_notices t p ((t.port p).raise n) rfl) _ _

theorem accept_touches (s : State) (p : Port) (f : Frame) : Touches [.links] s (s.accept p f) := by
  refine setPort_links _ _ _ ?_
  unfold PortState.accept
  split <;> rfl

theorem reply_touches (s : State) (p : Port) (c : Byte) (r : ResultCode) (d : List Byte) :
    Touches [.links] s (s.reply p c r d) := setPort_links _ _ _ rfl

theorem setSlot_touches (s : State) (i : Fin 4) (x : Slot) :
    Touches [.slots] s (s.setSlot i x) := by
  intro k hk; cases k <;> first | rfl | exact fun _ => rfl | exact absurd (by decide) hk

theorem scrubSlot_touches (s : State) (i : Fin 4) : Touches [.slots] s (s.scrubSlot i) :=
  setSlot_touches _ _ _

theorem faultSlot_touches (s : State) (i : Fin 4) (r : FaultReason) (x : Option Nat) :
    Touches [.slots, .notices] s (s.faultSlot i r x) :=
  ((setSlot_touches _ _ _).mono rfl).trans ((raise_touches _ _ _).mono rfl)

/-! ## Glyph Cache -/

theorem cache_touches (s : State) (c : Cache) : Touches [.cache] s { s with cache := c } := by
  intro k hk; cases k <;> first | rfl | exact fun _ => rfl | exact absurd (by decide) hk

theorem pin_touches (s : State) (ks : List Code) : Touches [.cache] s (s.pin ks) :=
  cache_touches _ _

theorem unpin_touches (s : State) (ks : List Code) : Touches [.cache] s (s.unpin ks) :=
  cache_touches _ _

theorem prefetch_touches (s : State) (ks : List Code) : Touches [.cache] s (s.prefetch ks) :=
  cache_touches _ _

/-! ## Line Scheduler -/

theorem mapLines_touches (s : State) (f : LineScheduler → LineScheduler) :
    Touches [.lines] s (s.mapLines f) := by
  intro k hk; cases k <;> first | rfl | exact fun _ => rfl | exact absurd (by decide) hk

theorem mapLines_touches' (s : State) (f : LineScheduler → LineScheduler) :
    Touches [.lines, .cache] s (s.mapLines f) := (mapLines_touches s f).mono rfl

theorem enterLine_touches (s : State) (x : PendingLine) (row : Nat) :
    Touches [.lines, .cache] s (s.enterLine x row) :=
  (mapLines_touches' _ _).trans ((pin_touches _ _).mono rfl)

theorem dropLines_touches (s : State) (p : WindowLine → Bool) :
    Touches [.lines, .cache] s (s.dropLines p) :=
  (mapLines_touches' _ _).trans ((unpin_touches _ _).mono rfl)

theorem startScroll_touches (s : State) (x : Option PendingLine) :
    Touches [.lines, .cache] s (s.startScroll x) := by
  unfold State.startScroll
  cases x with
  | none => exact mapLines_touches' _ _
  | some x => exact (mapLines_touches' _ _).trans (enterLine_touches _ _ _)

theorem placeStep_touches {s t : State} (h : s.placeStep = some t) :
    Touches [.lines, .cache] s t := by
  unfold State.placeStep at h
  split at h
  · cases h
  · split at h
    · cases h
    · simp only at h
      split at h
      · split at h
        · cases h; exact (mapLines_touches' _ _).trans (enterLine_touches _ _ _)
        · split at h
          · split at h
            · cases h; exact (mapLines_touches' _ _).trans (startScroll_touches _ _)
            · cases h
          · cases h
      · split at h
        · cases h; exact (mapLines_touches' _ _).trans (enterLine_touches _ _ _)
        · split at h
          · cases h
            exact ((mapLines_touches' _ _).trans (dropLines_touches _ _)).trans
              (enterLine_touches _ _ _)
          · cases h

theorem lingerStep_touches {s t : State} (h : s.lingerStep = some t) :
    Touches [.lines, .cache] s t := by
  unfold State.lingerStep at h
  split at h
  · split at h
    · split at h
      · cases h; exact startScroll_touches _ _
      · cases h
    · cases h
  · cases h

theorem completeStep_touches {s t : State} (h : s.completeStep = some t) :
    Touches [.lines, .cache] s t := by
  unfold State.completeStep at h
  split at h
  · cases h
  · split at h
    · cases h; exact (dropLines_touches _ _).trans (mapLines_touches' _ _)
    · cases h

theorem settleLines_touches (n : Nat) (s : State) :
    Touches [.lines, .cache] s (settleLines n s) := by
  induction n generalizing s with
  | zero => exact Touches.refl _ _
  | succ n ih =>
    unfold settleLines
    split
    · next t h => exact (completeStep_touches h).trans (ih t)
    · split
      · next t h => exact (placeStep_touches h).trans (ih t)
      · split
        · next t h => exact (lingerStep_touches h).trans (ih t)
        · exact Touches.refl _ _

theorem settle_touches (s : State) : Touches [.lines, .cache] s s.settle :=
  settleLines_touches _ _

theorem emptyWindow_touches (s : State) : Touches [.lines, .cache] s s.emptyWindow :=
  (dropLines_touches _ _).trans (mapLines_touches' _ _)

theorem lineEvent_touches (s : State) (x : Line) (n : Nat) (e : LineEvent) :
    Touches [.lines, .cache] s (s.lineEvent x n e) := by
  unfold State.lineEvent
  cases e with
  | done => exact mapLines_touches' _ _
  | start => exact mapLines_touches' _ _
  | leave =>
    simp only
    split
    · exact (mapLines_touches' _ _).trans (mapLines_touches' _ _)
    · exact (mapLines_touches' _ _).trans (dropLines_touches _ _)
  | post =>
    simp only
    split
    · exact Touches.refl _ _
    · exact mapLines_touches' _ _
  | prefetch => exact (prefetch_touches _ _).mono rfl

theorem video_touches (s : State) (v : Compositor) : Touches [.video] s { s with video := v } := by
  intro k hk; cases k <;> first | rfl | exact fun _ => rfl | exact absurd (by decide) hk

theorem countPostLate_touches (s : State) (n : Nat) : Touches [.video] s (s.countPostLate n) := by
  unfold State.countPostLate
  exact Touches.ite (video_touches _ _) (Touches.refl _ _)

theorem takeLineEvent_touches (s : State) (e : LineEvent) (x : Line × Nat) :
    Touches [.lines, .cache, .video] s (s.takeLineEvent e x) := by
  have h : Touches [.lines, .cache, .video] s (s.lineEvent x.1 x.2 e).settle :=
    ((lineEvent_touches _ _ _ _).trans (settle_touches _)).mono rfl
  unfold State.takeLineEvent
  exact Touches.ite (h.trans ((countPostLate_touches _ _).mono rfl)) h

theorem lineEventsAt_touches (s : State) (n : Nat) :
    Touches [.lines, .cache, .video] s (s.lineEventsAt n) := by
  unfold State.lineEventsAt
  exact Touches.ite (Touches.refl _ _)
    (Touches.foldl (fun _ _ => Touches.foldl (fun _ _ => takeLineEvent_touches _ _ _) _ _) _ _)

theorem requestRebuild_touches (s : State) : Touches [.lines, .cache] s s.requestRebuild :=
  (dropLines_touches _ _).trans (mapLines_touches' _ _)

theorem rebuildFrom_touches (s : State) (ls : List (Line × Nat)) :
    Touches [.lines, .cache] s (s.rebuildFrom ls) :=
  ((((unpin_touches _ _).mono rfl).trans (mapLines_touches' _ _)).trans
    ((pin_touches _ _).mono rfl)).trans
    (Touches.foldl (fun _ _ => (prefetch_touches _ _).mono rfl) _ _)

theorem makeRebuild_touches (s : State) : Touches [.lines, .cache] s s.makeRebuild := by
  unfold State.makeRebuild
  split
  · split
    · exact mapLines_touches' _ _
    · exact rebuildFrom_touches _ _
  · exact Touches.refl _ _

theorem countScroll_touches (s : State) : Touches [.lines, .cache] s s.countScroll := by
  unfold State.countScroll
  split
  · exact Touches.refl _ _
  · exact (mapLines_touches' _ _).trans (settle_touches _)

theorem hintTitle_touches (s : State) : Touches [.lines, .cache] s s.hintTitle := by
  unfold State.hintTitle
  refine Touches.ite (Touches.refl _ _) ?_
  split
  · exact mapLines_touches' _ _
  · exact (mapLines_touches' _ _).trans ((prefetch_touches _ _).mono rfl)

theorem retitle_touches (s : State) : Touches [.lines, .cache] s s.retitle := by
  unfold State.retitle
  simp only
  refine Touches.trans (Touches.ite (Touches.refl _ _) ?_) (hintTitle_touches _)
  exact ((mapLines_touches' _ _).trans ((pin_touches _ _).mono rfl)).trans
    ((unpin_touches _ _).mono rfl)

theorem startScoreShow_touches (s : State) (h : Option Nat) :
    Touches [.lines, .cache] s (s.startScoreShow h) := by
  unfold State.startScoreShow
  split
  · exact Touches.refl _ _
  · split
    · exact Touches.refl _ _
    · exact (mapLines_touches' _ _).trans ((pin_touches _ _).mono rfl)

theorem endScoreShow_touches (s : State) : Touches [.lines, .cache] s s.endScoreShow := by
  unfold State.endScoreShow
  split
  · exact Touches.refl _ _
  · exact (mapLines_touches' _ _).trans ((unpin_touches _ _).mono rfl)

theorem relayout_touches (s : State) (f : LineScheduler → LineScheduler) :
    Touches [.lines, .cache] s (s.relayout f) := by
  unfold State.relayout
  simp only
  exact ((mapLines_touches' _ _).trans
    (Touches.ite (Touches.refl _ _) (requestRebuild_touches _))).trans (retitle_touches _)

theorem countLate_touches (s : State) (k : Code) :
    Touches [.lines, .cache, .video] s (s.countLate k) := by
  unfold State.countLate
  split
  · exact Touches.refl _ _
  · simp only
    split
    · intro k hk; cases k <;> first | rfl | exact fun _ => rfl | exact absurd (by decide) hk
    · exact Touches.refl _ _

theorem countClipped_touches (s : State) (x : WindowLine) :
    Touches [.lines, .cache, .video] s (s.countClipped x) := by
  unfold State.countClipped
  split
  · exact ((mapLines_touches _ _).mono rfl).trans ((video_touches _ _).mono rfl)
  · exact Touches.refl _ _

theorem countDrawn_touches (s : State) (f : OutputFrame) :
    Touches [.lines, .cache, .video] s (s.countDrawn f) := by
  have h := Touches.foldl (fun s (g : GlyphBox) => countLate_touches s g.code) (s.drawnGlyphs f) s
  exact Touches.ite (h.trans (Touches.foldl countClipped_touches _ _)) h

theorem latchOverlay_touches (s : State) :
    Touches [.lines, .cache, .video] s s.latchOverlay :=
  (countDrawn_touches s s.capture).trans ((video_touches _ _).mono rfl)

theorem frameLatch_touches (s : State) : Touches [.lines, .cache, .video] s s.frameLatch := by
  unfold State.frameLatch
  simp only
  have h : Touches [.lines, .cache, .video] s s.makeRebuild := (makeRebuild_touches s).mono rfl
  exact ((h.trans (Touches.ite (Touches.refl _ _) ((countScroll_touches _).mono rfl))).trans
    ((mapLines_touches _ _).mono rfl)).trans (latchOverlay_touches _)

/-! ## Request Book and reservation -/

theorem book_touches (s : State) (b : Book) : Touches [.book] s { s with book := b } := by
  intro k hk; cases k <;> first | rfl | exact fun _ => rfl | exact absurd (by decide) hk

theorem passEntry_touches (acc : State × Nat) (e : Entry) :
    Touches [.slots, .notices] acc.1 (State.passEntry acc e).1 := by
  obtain ⟨s, n⟩ := acc
  unfold State.passEntry
  simp only
  split
  · exact Touches.refl _ _
  · split
    · exact ((setSlot_touches _ _ _).mono rfl).trans ((raise_touches _ _ _).mono rfl)
    · split
      · exact Touches.refl _ _
      · split
        · exact (scrubSlot_touches _ _).mono rfl
        · exact Touches.refl _ _

theorem pass_touches (s : State) : Touches [.slots, .notices] s s.pass := by
  unfold State.pass
  generalize s.scrubCount = n
  suffices H : ∀ (es : List Entry) (acc : State × Nat),
      Touches [.slots, .notices] acc.1 (es.foldl State.passEntry acc).1 from H _ (s, n)
  intro es
  induction es with
  | nil => intro acc; exact Touches.refl _ _
  | cons e es ih => intro acc; exact (passEntry_touches acc e).trans (ih _)

theorem callHead_touches {s t : State} (h : s.callHead = some t) :
    Touches [.book, .notices] s t := by
  unfold State.callHead at h
  split at h
  · cases h
  · split at h
    · split at h
      · cases h
        exact ((book_touches _ _).mono rfl).trans ((raise_touches _ _ _).mono rfl)
      · cases h
    · cases h

theorem changed_touches (s : State) : Touches [.slots, .notices] s s.changed :=
  ((raise_touches _ _ _).mono rfl).trans (pass_touches _)

theorem testCall_touches (s : State) :
    Touches [.book, .slots, .notices, .lines, .cache] s s.testCall := by
  unfold State.testCall
  split
  · next t h =>
    exact (((callHead_touches h).mono rfl).trans ((changed_touches _).mono rfl)).trans
      ((retitle_touches _).mono rfl)
  · exact (retitle_touches _).mono rfl

theorem bookChanged_touches (s : State) :
    Touches [.book, .slots, .notices, .lines, .cache] s s.bookChanged :=
  ((changed_touches _).mono rfl).trans (testCall_touches _)

theorem uncall_touches (s : State) : Touches [.book, .notices] s s.uncall := by
  unfold State.uncall
  split
  · exact ((book_touches _ _).mono rfl).trans ((raise_touches _ _ _).mono rfl)
  · exact Touches.refl _ _

theorem acceptRequest_touches (s : State) (who : Requester) (song : Nat) (tier : Tier)
    (tag : Option Nat) :
    Touches [.book, .slots, .notices, .lines, .cache] s (s.acceptRequest who song tier tag).1 :=
  ((book_touches _ _).mono rfl).trans (bookChanged_touches _)

theorem withdrawCall_touches (s : State) (e : Entry) : Touches [.notices] s (s.withdrawCall e) := by
  unfold State.withdrawCall
  exact Touches.ite (raise_touches _ _ _) (Touches.refl _ _)

theorem scrubBound_touches (s : State) (n : Nat) : Touches [.slots] s (s.scrubBound n) := by
  unfold State.scrubBound
  split
  · exact scrubSlot_touches _ _
  · exact Touches.refl _ _

theorem cancelEntry_touches (s : State) (e : Entry) :
    Touches [.book, .slots, .notices, .lines, .cache] s (s.cancelEntry e) :=
  ((((withdrawCall_touches _ _).mono rfl).trans ((scrubBound_touches _ _).mono rfl)).trans
    ((book_touches _ _).mono rfl)).trans (bookChanged_touches _)

/-! ## Voice Assessment Unit -/

theorem voice_touches (s : State) (v : Voice) : Touches [.voice] s { s with voice := v } := by
  intro k hk; cases k <;> first | rfl | exact fun _ => rfl | exact absurd (by decide) hk

theorem setChannel_touches (s : State) (m : Fin 4) (c : Channel) :
    Touches [.voice] s (s.setChannel m c) := voice_touches _ _

theorem flagTurn_touches (s : State) (f : TurnFlags → TurnFlags) :
    Touches [.turn] s (s.flagTurn f) := by
  unfold State.flagTurn
  split
  · exact Touches.refl _ _
  · intro k hk; cases k <;> first | rfl | exact fun _ => rfl | exact absurd (by decide) hk

theorem setMark_touches (s : State) (m : Fin 4) (n : Nat) (x : TallyMark) :
    Touches [.slots, .voice] s (s.setMark m n x) := by
  unfold State.setMark
  split
  · exact Touches.refl _ _
  · exact (setSlot_touches _ _ _).mono rfl

theorem tally_touches (s : State) (m : Fin 4) (n : Nat) :
    Touches [.slots, .voice] s (s.tally m n) := by
  unfold State.tally
  simp only
  exact Touches.ite ((setChannel_touches _ _ _).mono rfl)
    ((setMark_touches _ _ _ _).trans ((setChannel_touches _ _ _).mono rfl))

theorem tallyOpen_touches (s : State) (m : Fin 4) :
    Touches [.slots, .voice] s (s.tallyOpen m) := by
  unfold State.tallyOpen
  split
  · exact Touches.refl _ _
  · exact tally_touches _ _ _

theorem tallyAllOpen_touches (s : State) : Touches [.slots, .voice] s s.tallyAllOpen :=
  Touches.foldl (fun _ _ => Touches.ite (tallyOpen_touches _ _) (Touches.refl _ _)) _ _

theorem tallyPassed_touches (s : State) (n : Nat) :
    Touches [.slots, .voice] s (s.tallyPassed n) :=
  Touches.foldl (fun _ _ => Touches.ite
    (Touches.foldl (fun _ _ => Touches.ite (Touches.refl _ _) (tally_touches _ _ _)) _ _)
    (Touches.refl _ _)) _ _

theorem tallyAtLatency_touches (s : State) : Touches [.slots, .voice] s s.tallyAtLatency :=
  Touches.foldl (fun _ _ => Touches.ite (tallyOpen_touches _ _) (Touches.refl _ _)) _ _

theorem saturate_touches (s : State) (m : Fin 4) : Touches [.slots, .voice] s (s.saturate m) :=
  (tallyOpen_touches _ _).trans ((setChannel_touches _ _ _).mono rfl)

theorem openNote_touches (s : State) (m : Fin 4) (n : Nat) :
    Touches [.slots, .voice] s (s.openNote m n) := by
  unfold State.openNote
  exact Touches.ite (Touches.refl _ _)
    ((tallyOpen_touches _ _).trans ((setChannel_touches _ _ _).mono rfl))

theorem judge_touches (s : State) (m : Fin 4) (p : Option Int) :
    Touches [.slots, .voice] s (s.judge m p) := by
  unfold State.judge
  simp only
  split
  · exact Touches.refl _ _
  · split
    · split
      · exact Touches.refl _ _
      · have h : ∀ n c, Touches [.slots, .voice] s ((s.openNote m n).setChannel m c) :=
          fun n c => (openNote_touches _ _ _).trans ((setChannel_touches _ _ _).mono rfl)
        exact Touches.ite ((h _ _).trans (saturate_touches _ _)) (h _ _)
    · exact Touches.ite ((setChannel_touches _ _ _).mono rfl) (Touches.refl _ _)

theorem endTone_touches (s : State) (t : ToneCheck) (o : ToneOutcome) :
    Touches [.voice, .notices] s (s.endTone t o) :=
  ((voice_touches _ _).mono rfl).trans ((raise_touches _ _ _).mono rfl)

theorem abortTone_touches (s : State) : Touches [.voice, .notices] s s.abortTone := by
  unfold State.abortTone
  split
  · exact Touches.refl _ _
  · exact endTone_touches _ _ _

theorem countToneFrame_touches (s : State) (p : Vector (Option Int) 4) :
    Touches [.voice, .notices] s (s.countToneFrame p) := by
  unfold State.countToneFrame
  split
  · exact Touches.refl _ _
  · exact Touches.ite (Touches.refl _ _)
      (Touches.ite (endTone_touches _ _ _) ((voice_touches _ _).mono rfl))

theorem completeFrame_touches (s : State) :
    Touches [.slots, .voice, .notices] s s.completeFrame := by
  unfold State.completeFrame
  simp only
  refine Touches.trans (Touches.trans ((voice_touches _ _).mono rfl)
    (Touches.foldl (fun _ _ => ?_) _ _)) ((countToneFrame_touches _ _).mono rfl)
  exact ((setChannel_touches _ _ _).mono rfl).trans ((judge_touches _ _ _).mono rfl)

theorem settleFrame_touches (s : State) : Touches [.slots, .voice, .notices] s s.settleFrame := by
  unfold State.settleFrame
  exact Touches.ite (completeFrame_touches _) (Touches.refl _ _)

theorem beginTone_touches (s : State) : Touches [.voice] s s.beginTone := by
  unfold State.beginTone
  split
  · exact Touches.refl _ _
  · exact Touches.ite (voice_touches _ _) (Touches.refl _ _)

theorem enterSamples_touches (s : State) (x : Samples) : Touches [.voice] s (s.enterSamples x) := by
  unfold State.enterSamples
  split
  · exact voice_touches _ _
  · split <;> exact voice_touches _ _

theorem takeSamples_touches (s : State) (x : Samples) :
    Touches [.slots, .voice, .notices] s (s.takeSamples x) := by
  unfold State.takeSamples
  simp only
  exact (((settleFrame_touches _).trans ((voice_touches _ _).mono rfl)).trans
    ((beginTone_touches _).mono rfl)).trans ((enterSamples_touches _ _).mono rfl)

theorem setAudio_touches (s : State) (a : AudioState) : Touches [.voice, .notices] s (s.setAudio a) :=
  ((voice_touches _ _).mono rfl).trans ((raise_touches _ _ _).mono rfl)

theorem restoreAudio_touches (s : State) (x : Samples) :
    Touches [.slots, .voice, .notices] s (s.restoreAudio x) :=
  (((voice_touches _ _).mono rfl).trans ((setAudio_touches _ _).mono rfl)).trans
    (takeSamples_touches _ _)

theorem loseAudio_touches (s : State) : Touches [.slots, .voice, .notices] s s.loseAudio :=
  (((settleFrame_touches _).trans ((voice_touches _ _).mono rfl)).trans
    ((setAudio_touches _ _).mono rfl)).trans ((abortTone_touches _).mono rfl)

/-! ## Turns, results and the clock -/

theorem ring_touches (s : State) (r : List ResultRecord) :
    Touches [.ring] s { s with ring := r } := by
  intro k hk; cases k <;> first | rfl | exact fun _ => rfl | exact absurd (by decide) hk

theorem loseRecord_touches (s : State) (r : ResultRecord) :
    Touches [.notices] s (s.loseRecord r) := by
  unfold State.loseRecord
  exact Touches.ite (Touches.refl _ _) (raise_touches _ _ _)

theorem makeRoom_touches (s : State) (n : Nat) : Touches [.ring, .notices] s (s.makeRoom n) := by
  unfold State.makeRoom
  split
  · exact ((ring_touches _ _).mono rfl).trans ((loseRecord_touches _ _).mono rfl)
  · split
    · exact Touches.ite (((ring_touches _ _).mono rfl).trans ((loseRecord_touches _ _).mono rfl))
        (Touches.refl _ _)
    · exact Touches.refl _ _

theorem file_touches (s : State) (r : ResultRecord) :
    Touches [.ring, .best, .notices] s (s.file r) := by
  unfold State.file
  simp only
  have h : Touches [.ring, .best, .notices] s (s.makeRoom r.ticket) :=
    (makeRoom_touches _ _).mono rfl
  refine Touches.trans (h.trans ?_) ((raise_touches _ _ _).mono rfl)
  intro k hk; cases k <;> first | rfl | exact fun _ => rfl | exact absurd (by decide) hk

theorem clock_touches (s : State) (c : Clock) : Touches [.clock] s { s with clock := c } := by
  intro k hk; cases k <;> first | rfl | exact fun _ => rfl | exact absurd (by decide) hk

theorem turn_touches (s : State) (t : Option Turn) : Touches [.turn] s { s with turn := t } := by
  intro k hk; cases k <;> first | rfl | exact fun _ => rfl | exact absurd (by decide) hk

/-- The pieces that a turn's start or end, or the clock's motion, may touch. -/
def turnPieces : List Piece :=
  [.book, .turn, .slots, .clock, .lines, .cache, .video, .voice, .ring, .best, .notices]

theorem take_touches (s : State) (e : Entry) (i : Fin 4) : Touches turnPieces s (s.take e i) := by
  unfold State.take
  simp only
  refine Touches.trans ?_ ((bookChanged_touches _).mono rfl)
  refine Touches.trans ?_ ((raise_touches _ _ _).mono rfl)
  refine Touches.trans ?_ ((requestRebuild_touches _).mono rfl)
  refine Touches.trans ?_ ((emptyWindow_touches _).mono rfl)
  refine Touches.trans ?_ ((endScoreShow_touches _).mono rfl)
  refine Touches.trans ?_ ((abortTone_touches _).mono rfl)
  refine Touches.trans ?_ ((setSlot_touches _ _ _).mono rfl)
  intro k hk; cases k <;> first | rfl | exact fun _ => rfl | exact absurd (by decide) hk

theorem endTurn_touches (s : State) (t : Turn) (r : EndReason) (b : Bool) :
    Touches turnPieces s (s.endTurn t r b) := by
  unfold State.endTurn
  simp only
  refine Touches.trans ?_ ((testCall_touches _).mono rfl)
  refine Touches.trans ?_ ((raise_touches _ _ _).mono rfl)
  refine Touches.trans ?_ ((turn_touches _ _).mono rfl)
  refine Touches.trans ?_ ((startScoreShow_touches _ _).mono rfl)
  refine Touches.trans ?_ ((emptyWindow_touches _).mono rfl)
  refine Touches.trans ?_ ((clock_touches _ _).mono rfl)
  refine Touches.trans ?_ ((scrubSlot_touches _ _).mono rfl)
  refine Touches.trans ?_ ((file_touches _ _).mono rfl)
  exact (tallyAllOpen_touches _).mono rfl

theorem passEnd_touches (s : State) (a b : Nat) : Touches turnPieces s (s.passEnd a b) := by
  unfold State.passEnd
  split
  · exact Touches.ite (endTurn_touches _ _ _ _) (Touches.refl _ _)
  · exact Touches.refl _ _

theorem advance_touches (s : State) : Touches turnPieces s s.advance := by
  unfold State.advance
  simp only
  exact ((((clock_touches _ _).mono rfl).trans ((lineEventsAt_touches _ _).mono rfl)).trans
    ((tallyPassed_touches _ _).mono rfl)).trans (passEnd_touches _ _ _)

theorem advanceWhile_touches (n : Nat) (s : State) :
    Touches turnPieces s (State.advanceWhile n s) := by
  induction n generalizing s with
  | zero => exact Touches.refl _ _
  | succ n ih =>
    unfold State.advanceWhile
    exact Touches.ite ((advance_touches _).trans (ih _)) (Touches.refl _ _)

theorem tickClock_touches (s : State) : Touches turnPieces s s.tickClock := by
  unfold State.tickClock
  exact Touches.ite (((clock_touches _ _).mono rfl).trans (advanceWhile_touches _ _))
    (Touches.refl _ _)

theorem jump_touches (s : State) (n : Nat) : Touches turnPieces s (s.jump n) := by
  unfold State.jump
  simp only
  exact (((((flagTurn_touches _ _).mono rfl).trans ((clock_touches _ _).mono rfl)).trans
    ((requestRebuild_touches _).mono rfl)).trans ((tallyAllOpen_touches _).mono rfl)).trans
    (passEnd_touches _ _ _)

/-! ## Font Port, Compositor, panel loop -/

theorem font_touches (s : State) (f : FontPort) : Touches [.font] s { s with font := f } := by
  intro k hk; cases k <;> first | rfl | exact fun _ => rfl | exact absurd (by decide) hk

theorem testWaking_touches (s : State) : Touches [.video] s s.testWaking := by
  unfold State.testWaking
  exact Touches.ite (video_touches _ _) (Touches.refl _ _)

theorem fontDone_touches (s : State) : Touches [.font, .notices] s s.fontDone := by
  unfold State.fontDone
  exact Touches.ite (((font_touches _ _).mono rfl).trans ((raise_touches _ _ _).mono rfl))
    (Touches.refl _ _)

theorem completeScan_touches (s : State) :
    Touches [.font, .cache, .video, .notices] s s.completeScan := by
  unfold State.completeScan
  simp only
  refine Touches.trans (Touches.trans ?_ ((fontDone_touches _).mono rfl))
    ((testWaking_touches _).mono rfl)
  split
  · intro k hk; cases k <;> first | rfl | exact fun _ => rfl | exact absurd (by decide) hk
  · intro k hk; cases k <;> first | rfl | exact fun _ => rfl | exact absurd (by decide) hk

theorem completeFetch_touches (s : State) (i : Nat) : Touches [.cache] s (s.completeFetch i) :=
  cache_touches _ _

theorem startFetch_touches (s : State) (i : Nat) : Touches [.cache] s (s.startFetch i) := by
  unfold State.startFetch
  simp only
  split
  · exact (cache_touches s _).trans (completeFetch_touches _ i)
  · exact cache_touches s _

theorem enterMaintenance_touches (s : State) :
    Touches [.font, .cache] s s.enterMaintenance := by
  intro k hk; cases k <;> first | rfl | exact fun _ => rfl | exact absurd (by decide) hk

theorem setPath_touches (s : State) (p : PathState) (f : Option Format) :
    Touches [.video, .notices] s (s.setPath p f) :=
  (((video_touches _ _).mono rfl).trans ((raise_touches _ _ _).mono rfl)).trans
    ((testWaking_touches _).mono rfl)

theorem followNext_touches (s : State) : Touches [.video] s s.followNext := by
  unfold State.followNext
  exact Touches.ite (video_touches _ _) (Touches.refl _ _)

theorem lockAt_touches (s : State) (f : Format) :
    Touches [.video, .notices, .lines, .cache] s (s.lockAt f) :=
  ((((video_touches _ _).mono rfl).trans ((relayout_touches _ _).mono rfl)).trans
    ((setPath_touches _ _ _).mono rfl)).trans ((followNext_touches _).mono rfl)

theorem actOnRun_touches (s : State) (c : FrameClass) :
    Touches [.video, .notices, .lines, .cache] s (s.actOnRun c) := by
  have h : ∀ c : FrameClass, Touches [.video, .notices, .lines, .cache] s
      (if s.video.runCount < 2 then s
      else match (c : FrameClass) with
        | .supported f => s.lockAt f
        | .unsupported =>
          if s.video.path = PathState.unsupported then s
          else (s.setPath .unsupported none).followNext) := by
    intro c
    refine Touches.ite (Touches.refl _ _) ?_
    cases c with
    | supported f => exact lockAt_touches _ _
    | unsupported =>
      exact Touches.ite (Touches.refl _ _)
        (((setPath_touches _ _ _).mono rfl).trans ((followNext_touches _).mono rfl))
  unfold State.actOnRun
  split
  · split
    · exact Touches.ite (Touches.refl _ _) ((setPath_touches _ _ _).mono rfl)
    · exact Touches.refl _ _
  · exact h c
  · exact h c
  · exact h c

theorem measureFrame_touches (s : State) (m : FrameMeasure) :
    Touches [.video, .notices, .lines, .cache] s (s.measureFrame m) :=
  ((video_touches _ _).mono rfl).trans (actOnRun_touches _ _)

theorem inputFrame_touches (s : State) (m : FrameMeasure) :
    Touches [.video, .notices, .lines, .cache] s (s.inputFrame m) := by
  unfold State.inputFrame
  simp only
  have h : ∀ v, Touches [.video, .notices, .lines, .cache] s { s with video := v } :=
    fun v => (video_touches s v).mono rfl
  exact Touches.ite ((h _).trans (measureFrame_touches _ _)) (h _)

theorem loseInput_touches (s : State) : Touches [.video, .notices] s s.loseInput :=
  ((video_touches _ _).mono rfl).trans (setPath_touches _ _ _)

theorem mapLoop_touches (s : State) (f : Loop → Loop) : Touches [.loop] s (s.mapLoop f) := by
  intro k hk; cases k <;> first | rfl | exact fun _ => rfl | exact absurd (by decide) hk

theorem endExchange_touches (s : State) : Touches [.loop] s s.endExchange := mapLoop_touches _ _

theorem setPresence_touches (s : State) (p : Fin 8) (x : Presence) :
    Touches [.loop, .notices] s (s.setPresence p x) :=
  ((mapLoop_touches _ _).mono rfl).trans ((raise_touches _ _ _).mono rfl)

theorem miss_touches (s : State) (p : Fin 8) : Touches [.loop, .notices] s (s.miss p) := by
  unfold State.miss
  simp only
  have h : ∀ f, Touches [.loop, .notices] s (s.mapLoop f) := fun f => (mapLoop_touches s f).mono rfl
  exact Touches.ite ((h _).trans (setPresence_touches _ _ _)) (h _)

theorem spoil_touches (s : State) (p : Fin 8) : Touches [.loop] s (s.spoil p) :=
  mapLoop_touches _ _

theorem goodReply_touches (s : State) (p : Fin 8) : Touches [.loop, .notices] s (s.goodReply p) := by
  unfold State.goodReply
  simp only
  have h : ∀ f, Touches [.loop, .notices] s (s.mapLoop f) := fun f => (mapLoop_touches s f).mono rfl
  exact Touches.ite ((h _).trans (setPresence_touches _ _ _)) (h _)

theorem panelRequest_touches (s : State) (p : Fin 8) (song : Nat) (tag : Option Nat) :
    Touches [.book, .slots, .notices, .lines, .cache] s (s.panelRequest p song tag).1 := by
  unfold State.panelRequest
  split
  · exact Touches.refl _ _
  · exact acceptRequest_touches _ _ _ _ _

theorem cancelForPanel_touches (s : State) (p : Fin 8) (n : Nat) :
    Touches [.book, .slots, .notices, .lines, .cache] s (s.cancelForPanel p n).1 := by
  unfold State.cancelForPanel
  split
  · exact Touches.refl _ _
  · exact Touches.refl _ _
  · split
    · exact cancelEntry_touches _ _
    · exact Touches.refl _ _

/-- A panel's request or cancel touches what its Book action touches, and the loop. -/
theorem adjudicate_touches {ks : List Piece} (s : State) (p : Fin 8) (seq : BitVec 4)
    (book : State → State × Verdict) (h : ∀ t, Touches ks t (book t).1)
    (hl : Piece.loop ∈ ks) : Touches ks s (s.adjudicate p seq book) := by
  have hm : ∀ t f, Touches ks t (State.mapLoop t f) := fun t f =>
    (mapLoop_touches t f).mono (by simpa using hl)
  unfold State.adjudicate
  split
  · exact hm _ _
  · exact ((h s).trans (hm _ _)).trans (hm _ _)

/-! ## Intervals -/

theorem endWindow_touches (s : State) : Touches [.loop, .notices] s s.endWindow := by
  unfold State.endWindow
  split
  · exact (miss_touches _ _).trans ((endExchange_touches _).mono rfl)
  · exact Touches.refl _ _

theorem cutReply_touches (s : State) : Touches [.loop] s s.cutReply := by
  unfold State.cutReply
  split
  · exact Touches.ite (spoil_touches _ _) (Touches.refl _ _)
  · exact Touches.refl _ _

theorem endBadReply_touches (s : State) : Touches [.loop, .notices] s s.endBadReply := by
  unfold State.endBadReply
  split
  · exact Touches.ite ((miss_touches _ _).trans ((endExchange_touches _).mono rfl))
      (Touches.refl _ _)
  · exact Touches.refl _ _

theorem endGap_touches (s : State) : Touches [.loop] s s.endGap := by
  unfold State.endGap
  exact Touches.ite (mapLoop_touches _ _) (Touches.refl _ _)

theorem endStall_touches (s : State) (i : Fin 4) :
    Touches [.slots, .notices, .lines, .cache] s (s.endStall i) := by
  unfold State.endStall
  exact Touches.ite ((faultSlot_touches _ _ _ _).mono rfl) (Touches.refl _ _)

theorem completeCheck_touches (s : State) (i : Fin 4) :
    Touches [.book, .slots, .notices, .lines, .cache] s (s.completeCheck i) := by
  unfold State.completeCheck
  split
  · exact ((setSlot_touches _ _ _).mono rfl).trans ((testCall_touches _).mono rfl)
  · exact (faultSlot_touches _ _ _ _).mono rfl

theorem endCheck_touches (s : State) (i : Fin 4) :
    Touches [.book, .slots, .notices, .lines, .cache] s (s.endCheck i) := by
  unfold State.endCheck
  exact Touches.ite (completeCheck_touches _ _) (Touches.refl _ _)

theorem endScrub_touches (s : State) (i : Fin 4) :
    Touches [.slots, .notices] s (s.endScrub i) := by
  unfold State.endScrub
  exact Touches.ite (((setSlot_touches _ _ _).mono rfl).trans (pass_touches _)) (Touches.refl _ _)

theorem passScoreShow_touches (s : State) : Touches [.lines, .cache] s s.passScoreShow := by
  unfold State.passScoreShow
  split
  · exact Touches.ite (endScoreShow_touches _) (Touches.refl _ _)
  · exact Touches.refl _ _

theorem abandonFlash_touches (s : State) (op : FlashOp) :
    Touches [.font, .flash, .freeCount] s (s.abandonFlash op) := by
  intro k hk; cases k <;> first | rfl | exact fun _ => rfl | exact absurd (by decide) hk

theorem timeOutFlash_touches (s : State) :
    Touches [.font, .flash, .freeCount] s s.timeOutFlash := by
  unfold State.timeOutFlash
  split
  · exact Touches.ite (abandonFlash_touches _ _) (Touches.refl _ _)
  all_goals exact Touches.refl _ _

theorem missInput_touches (s : State) : Touches [.video, .notices] s s.missInput := by
  unfold State.missInput
  exact Touches.ite (loseInput_touches _) (Touches.refl _ _)

theorem missAudio_touches (s : State) : Touches [.slots, .voice, .notices] s s.missAudio := by
  unfold State.missAudio
  exact Touches.ite (loseAudio_touches _) (Touches.refl _ _)

theorem makeOverdue_touches (s : State) :
    Touches [.loop, .book, .slots, .lines, .cache, .font, .flash, .video, .voice, .freeCount,
      .notices] s s.makeOverdue := by
  unfold State.makeOverdue
  simp only
  refine Touches.trans ?_ ((missAudio_touches _).mono rfl)
  refine Touches.trans ?_ ((missInput_touches _).mono rfl)
  refine Touches.trans ?_ ((timeOutFlash_touches _).mono rfl)
  refine Touches.trans ?_ ((passScoreShow_touches _).mono rfl)
  refine Touches.trans ?_ (Touches.foldl (fun s i => (endScrub_touches s i).mono rfl) _ _)
  refine Touches.trans ?_ (Touches.foldl (fun s i => (endCheck_touches s i).mono rfl) _ _)
  refine Touches.trans ?_ (Touches.foldl (fun s i => (endStall_touches s i).mono rfl) _ _)
  refine Touches.trans ?_ ((endGap_touches _).mono rfl)
  refine Touches.trans ?_ ((endBadReply_touches _).mono rfl)
  refine Touches.trans ?_ ((cutReply_touches _).mono rfl)
  exact (endWindow_touches _).mono rfl

/-- Where no interval has run out, nothing ends. -/
theorem makeOverdue_of_upToDate {s : State} (h : s.upToDate) : s.makeOverdue = s := by
  obtain ⟨window, quiet, gap, slots, show_, flash, input, audio⟩ := h
  have loop : s.endWindow = s ∧ s.cutReply = s ∧ s.endBadReply = s ∧ s.endGap = s := by
    unfold State.endWindow State.cutReply State.endBadReply State.endGap
    refine ⟨?_, ?_, ?_, ?_⟩
    · split
      · rename_i p hp; exact absurd hp (window p)
      · rfl
    · split
      · rename_i p b hp; rw [if_neg (Nat.not_le.2 (quiet p b (.inl hp)))]
      · rfl
    · split
      · rename_i p hp; rw [if_neg (Nat.not_le.2 (quiet p [] (.inr hp)))]
      · rfl
    · rw [if_neg]; simpa using gap
  have due : ∀ x i, x = .loading ∨ x = .checking ∨ x = .scrub → s.slotDue x i = false := by
    intro x i hx
    have := slots i
    simp only [State.slotDue, Bool.and_eq_false_iff, decide_eq_false_iff_not]
    by_cases hs : s.slots[i].state = x
    · exact .inr (this (hs ▸ hx))
    · exact .inl hs
  have stays : ∀ f : State → Fin 4 → State, (∀ i, f s i = s) → slotNumbers.foldl f s = s := by
    intro f hf; simp [slotNumbers, hf]
  have ends : s.passScoreShow = s ∧ s.timeOutFlash = s ∧ s.missInput = s ∧ s.missAudio = s := by
    unfold State.passScoreShow State.timeOutFlash State.missInput State.missAudio
    refine ⟨?_, ?_, ?_, ?_⟩
    · split
      · rename_i x hx; rw [if_neg (show_ x hx)]
      · rfl
    · split
      · rename_i op n hn; rw [if_neg (Nat.not_le.2 (flash op n hn))]
      all_goals rfl
    · rw [if_neg]; simpa using input
    · rw [if_neg]; simpa using audio
  unfold State.makeOverdue
  simp only [loop, ends, stays _ fun i => show s.endStall i = s by simp [State.endStall, due],
    stays _ fun i => show s.endCheck i = s by simp [State.endCheck, due],
    stays _ fun i => show s.endScrub i = s by simp [State.endScrub, due]]

end Sys2Proof.Machine
end

