-- ==== Sys2Proof/Laws/Ports.lean ====
section
/-! SUPPORT. The port's part in a command: what a client command answers, in each case, what a
read does, and the notices a raise leaves pending. -/

namespace Sys2Proof.Machine

/-! ## Raises -/

@[simp] theorem raise_console (s : State) (n : Notice) :
    s.raise [.console] n = s.setPort .console ((s.port .console).raise n) := rfl

@[simp] theorem raise_venue (s : State) (n : Notice) :
    s.raise [.venue] n = s.setPort .venue ((s.port .venue).raise n) := rfl

@[simp] theorem raise_playback (s : State) (n : Notice) :
    s.raise [.playback] n = s.setPort .playback ((s.port .playback).raise n) := rfl

/-- A port that a raise names shows its notice. -/
theorem raise_shows (s : State) (ps : List Port) (n : Notice) (p : Port) (h : p ∈ ps) :
    (s.raise ps n).shows p n := by
  have raised : ∀ q : PortState, (q.raise n).notices[n.cls] = some n := fun q => by
    simp [PortState.raise]
  have once : ∀ (t : State) (q : Port), (t.setPort q ((t.port q).raise n)).shows q n := by
    intro t q
    unfold State.shows
    rw [port_setPort_same]
    exact raised _
  have keeps : ∀ (ps : List Port) (t : State), t.shows p n → (t.raise ps n).shows p n := by
    intro ps
    induction ps with
    | nil => exact fun _ h => h
    | cons q ps ih =>
      intro t ht
      refine ih _ ?_
      by_cases hq : p = q
      · subst hq; exact once t p
      · unfold State.shows at ht ⊢
        rw [port_setPort_other _ _ hq]
        exact ht
  induction ps generalizing s with
  | nil => cases h
  | cons q ps ih =>
    by_cases hq : p = q
    · subst hq; exact keeps ps _ (once s p)
    · exact ih _ ((List.mem_cons.mp h).resolve_left hq)

/-- A raise leaves another class as it was. -/
theorem raise_other (s : State) (ps : List Port) (n : Notice) (p : Port) (c : Fin 16)
    (h : c ≠ n.cls) : ((s.raise ps n).port p).notices[c] = (s.port p).notices[c] := by
  induction ps generalizing s with
  | nil => rfl
  | cons q ps ih =>
    refine (ih _).trans ?_
    by_cases hq : p = q
    · subst hq
      rw [port_setPort_same]
      have : n.cls.val ≠ c.val := fun e => h (Fin.ext e.symm)
      simp [PortState.raise, this]
    · rw [port_setPort_other _ _ hq]

/-! ## Client commands -/

theorem clientCommand_eq {i : Instr} {p : Port} {f : Frame} (h : frameOf i = some (p, f))
    (s : State) (block : State → Taken) :
    clientCommand i s block = .next (s.command p f block) := by
  unfold clientCommand
  rw [h]

/-- A command that the port takes and permits is its block's, and its answer is the port's reply. -/
theorem command_taken {s : State} {p : Port} {f : Frame} (block : State → Taken)
    (ha : (s.port p).admits f = true) (hp : permitted f.code p = true) :
    s.command p f block =
      (block (s.accept p f)).state.reply p f.code (block (s.accept p f)).result
        (block (s.accept p f)).data := by
  simp [State.command, ha, hp]

/-- A command not permitted on the port reaches no block (R188). -/
theorem command_forbidden {s : State} {p : Port} {f : Frame} (block : State → Taken)
    (ha : (s.port p).admits f = true) (hp : permitted f.code p = false) :
    s.command p f block = (s.accept p f).reply p f.code .notPermitted [] := by
  simp [State.command, ha, hp]

/-- A command whose frame the port cannot take changes nothing (logs 8, 9). -/
theorem command_notDue {s : State} {p : Port} {f : Frame} (block : State → Taken)
    (ha : (s.port p).admits f = false) : s.command p f block = s := by
  simp [State.command, ha]

@[simp] theorem accept_mask (q : PortState) (f : Frame) : (q.accept f).mask = q.mask := by
  unfold PortState.accept; split <;> rfl

@[simp] theorem accept_shifted (q : PortState) (f : Frame) : (q.accept f).shifted = q.shifted := by
  unfold PortState.accept; split <;> rfl

@[simp] theorem accept_reading (q : PortState) (f : Frame) : (q.accept f).reading = q.reading := by
  unfold PortState.accept; split <;> rfl

@[simp] theorem accept_notices (q : PortState) (f : Frame) : (q.accept f).notices = q.notices := by
  unfold PortState.accept; split <;> rfl

@[simp] theorem endRead_reading (q : PortState) : q.endRead.reading = none := rfl

@[simp] theorem endRead_idle (q : PortState) (h : q.reading = none) : q.endRead = q := by
  obtain ⟨_, _, _, _, _, _, _, _, _, _⟩ := q
  subst h
  simp [PortState.endRead]

/-- All a whole read does: it ends a read under way, returns the bytes and clears REPLY_WAITING. -/
theorem read_eq (q : PortState) (n : Nat) : q.read n = { q with
    shifted := q.endRead.readBytes.take n, replyWaiting := false, reading := none } := by
  simp [PortState.read, PortState.openRead, PortState.returnBytes, PortState.endRead]

/-- Within a read REPLY_WAITING stands until the reply has been returned whole (R187). -/
theorem openRead_replyWaiting (q : PortState) (n : Nat) :
    (q.openRead n false).replyWaiting = (q.replyWaiting && decide (n < q.readBytes.length)) := by
  by_cases h : n < q.readBytes.length <;> cases hw : q.replyWaiting <;>
    simp [PortState.openRead, PortState.returnBytes, h, hw]
  omega

/-- A read in two pieces comes to what a whole read of both counts comes to (R195). -/
theorem openRead_then (q : PortState) (n m : Nat) (r : ReadUnderWay) (h : q.reading = none)
    (hr : (q.openRead n false).reading = some r) :
    (q.openRead n false).returnBytes r m true = q.read (n + m) := by
  rw [read_eq, endRead_idle q h]
  simp [PortState.openRead, PortState.returnBytes] at hr ⊢
  subst hr
  cases q.replyWaiting <;> simp [List.take_add]

/-- The reply of a block whose effect left the links alone is the port's answer. -/
theorem answers_of {s u : State} {p : Port} {f : Frame} (r : ResultCode) (d : List Byte)
    (h : Piece.same (s.accept p f) u .links) : Answers p f.code r d s (u.reply p f.code r d) := by
  constructor
  · have hp := h p
    have hm : (u.port p).mask = (s.port p).mask := by
      have := congrArg PortState.mask hp
      simpa [State.accept, port_setPort_same] using this
    have hs : (u.port p).shifted = (s.port p).shifted := by
      have := congrArg PortState.shifted hp
      simpa [State.accept, port_setPort_same] using this
    have hr : (u.port p).reading = (s.port p).reading := by
      have := congrArg PortState.reading hp
      simpa [State.accept, port_setPort_same] using this
    unfold State.reply
    rw [port_setPort_same]
    exact ⟨rfl, rfl, rfl, rfl, hm, hs, hr⟩
  · intro q hq
    have hq' := h q
    unfold State.reply
    rw [port_setPort_other _ _ hq]
    rw [State.accept, port_setPort_other _ _ hq] at hq'
    rw [← hq']

/-- A client command that can be taken runs to its block's state with the reply, touching what the
block touches. -/
theorem runs_of {i : Instr} {p : Port} {f : Frame} {s : State} {ks : List Piece}
    (block : State → Taken) (hf : frameOf i = some (p, f))
    (he : exec i s = clientCommand i s block) (hc : s.canTake i = true)
    (ht : Touches ks (s.accept p f) (block (s.accept p f)).state) (hl : Piece.links ∉ ks) :
    Runs i ks (block (s.accept p f)).result (block (s.accept p f)).data s
      ((block (s.accept p f)).state.reply p f.code (block (s.accept p f)).result
        (block (s.accept p f)).data) := by
  simp only [State.canTake, hf, Bool.and_eq_true] at hc
  refine ⟨?_, ?_, p, f, hf, answers_of _ _ (ht .links hl)⟩
  · rw [he, clientCommand_eq hf, command_taken block hc.1 hc.2]
  · have sub : (ks.all fun k => (Piece.links :: ks).contains k) = true :=
      List.all_eq_true.mpr fun k hk => by simpa using Or.inr hk
    have hin : ([Piece.links].all fun k => (Piece.links :: ks).contains k) = true := by simp
    exact (((accept_touches s p f).mono hin).trans (ht.mono sub)).trans
      ((reply_touches _ _ _ _ _).mono hin)

end Sys2Proof.Machine
end

