-- ==== Sys2Proof/Laws/Book.lean ====
section
/-! SUPPORT. The Book's shared operations: what calling does, what a change of the Book leaves of
the running order, and the notices each leaves pending. -/

namespace Sys2Proof.Machine

/-! ## The Book itself under the operations that follow a change -/

theorem raise_book (s : State) (ps n) : (s.raise ps n).book = s.book :=
  (raise_touches s ps n) .book (by decide)
theorem pass_book (s : State) : s.pass.book = s.book := pass_touches s .book (by decide)
theorem changed_book (s : State) : s.changed.book = s.book := changed_touches s .book (by decide)
theorem retitle_book (s : State) : s.retitle.book = s.book := retitle_touches s .book (by decide)

/-- A call is made only while the stage is EMPTY, the Book is not held, and the WAITING head's slot is
READY; it makes the head CALLED and raises CALL (R20). -/
theorem callHead_cases {s t : State} (h : s.callHead = some t) :
    ∃ e rest i, s.turn = none ∧ s.book.held = false ∧ s.book.entries = e :: rest ∧
      s.boundSlot e.ticket = some i ∧ s.slots[i].state = .ready ∧ e.state = .waiting ∧
      t = ({ s with book := { s.book with entries := { e with state := .called } :: rest } }.raise
        [.playback] (.call e.ticket i)) := by
  unfold State.callHead at h
  split at h
  · cases h
  · rename_i hc
    simp only [Bool.or_eq_true, not_or, Bool.not_eq_true] at hc
    split at h
    · rename_i e rest e' i he hr
      split at h
      · rename_i hw
        unfold State.readyHead at hr
        rw [he] at hr
        simp only at hr
        split at hr
        · rename_i j hj
          split at hr
          · rename_i hready
            cases hr
            refine ⟨e, rest, _, ?_, hc.2, he, hj, hready, hw, ?_⟩
            · simpa using hc.1
            · simpa using h.symm
          · cases hr
        · cases hr
      · cases h
    · cases h

/-- Calling leaves the running order and everything else of the Book. -/
theorem testCall_book (s : State) : s.testCall.book.order = s.book.order ∧
    s.testCall.book = { s.book with entries := s.testCall.book.entries } := by
  unfold State.testCall
  split
  · rename_i t h
    obtain ⟨e, rest, i, -, -, he, -, -, hw, rfl⟩ := callHead_cases h
    rw [retitle_book, changed_book, raise_book]
    constructor
    · simp [Book.order, he]
    · rfl
  · rw [retitle_book]; exact ⟨rfl, rfl⟩

/-- A change of the Book with its call leaves the running order and everything else of the Book. -/
theorem bookChanged_book (s : State) : s.bookChanged.book.order = s.book.order ∧
    s.bookChanged.book = { s.book with entries := s.bookChanged.book.entries } := by
  unfold State.bookChanged
  have := testCall_book s.changed
  rwa [changed_book] at this

theorem order_length (b : Book) : b.order.length = b.entries.length := by simp [Book.order]

theorem bookChanged_length (s : State) : s.bookChanged.book.entries.length = s.book.entries.length := by
  rw [← order_length, (bookChanged_book s).1, order_length]

/-! ## Notices a change leaves pending -/

/-- Every port's notice of a class is as it was. -/
def Keeps (c : Fin 16) (s t : State) : Prop := ∀ p, (t.port p).notices[c] = (s.port p).notices[c]

theorem Keeps.refl {c} (s : State) : Keeps c s s := fun _ => rfl
theorem Keeps.trans {c} {s t u : State} (h : Keeps c s t) (g : Keeps c t u) : Keeps c s u :=
  fun p => (g p).trans (h p)
theorem keeps_raise {c} (s : State) (ps n) (h : c ≠ n.cls) : Keeps c s (s.raise ps n) :=
  fun p => raise_other s ps n p c h
theorem keeps_touches {c ks} {s t : State} (h : Touches ks s t) (hk : Piece.notices ∉ ks) : Keeps c s t :=
  fun p => by rw [h .notices hk p]
theorem Keeps.shows {c} {s t : State} (h : Keeps c s t) {p n} (hn : n.cls = c) (hs : s.shows p n) : t.shows p n := by
  unfold State.shows at *; subst hn; rw [h p]; exact hs

theorem keeps_passEntry {c : Fin 16} (hc : c ≠ 4) (acc : State × Nat) (e) : Keeps c acc.1 (State.passEntry acc e).1 := by
  obtain ⟨s, n⟩ := acc
  unfold State.passEntry
  simp only
  split
  · exact Keeps.refl _
  · split
    · unfold State.bindSlot
      exact (keeps_touches (setSlot_touches _ _ _) (by decide)).trans (keeps_raise _ _ _ hc)
    · split
      · exact Keeps.refl _
      · split
        · exact keeps_touches (scrubSlot_touches _ _) (by decide)
        · exact Keeps.refl _

theorem keeps_pass {c : Fin 16} (hc : c ≠ 4) (s : State) : Keeps c s s.pass := by
  unfold State.pass
  have : ∀ (l : List Entry) (acc : State × Nat), Keeps c acc.1 (l.foldl State.passEntry acc).1 := by
    intro l
    induction l with
    | nil => exact fun _ => Keeps.refl _
    | cons e l ih => exact fun acc => (keeps_passEntry hc acc e).trans (ih _)
  exact this _ _

/-- A change leaves QUEUE_CHANGED pending on console and venue (R23). -/
theorem changed_shows (s : State) (p) (hp : p ∈ consoleVenue) :
    s.changed.shows p (.queueChanged s.book.entries.length) := by
  unfold State.changed
  exact (keeps_pass (c := 9) (by decide) _).shows rfl (raise_shows _ _ _ _ hp)

theorem keeps_changed {c : Fin 16} (hc : c ≠ 4) (hc' : c ≠ 9) (s : State) : Keeps c s s.changed :=
  (keeps_raise _ _ _ hc').trans (keeps_pass hc _)

theorem testCall_shows_queue (s : State) (p) (hp : p ∈ consoleVenue)
    (h : s.shows p (.queueChanged s.book.entries.length)) :
    s.testCall.shows p (.queueChanged s.testCall.book.entries.length) := by
  unfold State.testCall
  split
  · rename_i t ht
    refine (keeps_touches (c := 9) (retitle_touches _) (by decide)).shows rfl ?_
    have := changed_shows t p hp
    rwa [retitle_book, changed_book]
  · rw [retitle_book]
    exact (keeps_touches (c := 9) (retitle_touches _) (by decide)).shows rfl h

theorem bookChanged_shows_queue (s : State) (p) (hp : p ∈ consoleVenue) :
    s.bookChanged.shows p (.queueChanged s.bookChanged.book.entries.length) := by
  unfold State.bookChanged
  refine testCall_shows_queue _ p hp ?_
  rw [changed_book]; exact changed_shows s p hp

theorem keeps_testCall {c : Fin 16} (hc : c ≠ 4) (hc' : c ≠ 9) (h1 : c ≠ 1) (s : State) : Keeps c s s.testCall := by
  unfold State.testCall
  split
  · rename_i t ht
    obtain ⟨e, rest, i, -, -, he, -, -, hw, rfl⟩ := callHead_cases ht
    refine Keeps.trans ?_ (keeps_touches (retitle_touches _) (by decide))
    refine Keeps.trans ?_ (keeps_changed hc hc' _)
    exact Keeps.trans (keeps_touches (book_touches _ _) (by decide)) (keeps_raise _ _ _ h1)
  · exact keeps_touches (retitle_touches _) (by decide)

theorem keeps_bookChanged {c : Fin 16} (hc : c ≠ 4) (hc' : c ≠ 9) (h1 : c ≠ 1) (s : State) :
    Keeps c s s.bookChanged := (keeps_changed hc hc' s).trans (keeps_testCall hc hc' h1 _)

end Sys2Proof.Machine
end

