-- ==== Sys2Proof/Laws/Cache.lean ====
section
/-! SUPPORT. The Glyph Cache: what each plain operation leaves of entries, recency and fetch order, and
that the free numbers of the substitute give a hollow rectangle within its cell. -/

namespace Sys2Proof.Machine.Cache

variable (c : Cache) (i j : Nat) (e : CacheEntry)

@[simp] theorem setEntry_recency : (c.setEntry i e).recency = c.recency := rfl
@[simp] theorem setEntry_fetchOrder : (c.setEntry i e).fetchOrder = c.fetchOrder := rfl
@[simp] theorem setEntry_inProgress : (c.setEntry i e).inProgress = c.inProgress := rfl
@[simp] theorem setEntry_length : (c.setEntry i e).entries.length = c.entries.length :=
  List.length_set
@[simp] theorem touch_entries : (c.touch i).entries = c.entries := rfl
@[simp] theorem touch_fetchOrder : (c.touch i).fetchOrder = c.fetchOrder := rfl
@[simp] theorem touch_inProgress : (c.touch i).inProgress = c.inProgress := rfl
@[simp] theorem touch_entry : (c.touch i).entry j = c.entry j := rfl
@[simp] theorem enqueue_entries : (c.enqueue i).entries = c.entries := rfl
@[simp] theorem enqueue_recency : (c.enqueue i).recency = c.recency := rfl
@[simp] theorem enqueue_inProgress : (c.enqueue i).inProgress = c.inProgress := rfl
@[simp] theorem enqueue_entry : (c.enqueue i).entry j = c.entry j := rfl
@[simp] theorem dequeue_entries : (c.dequeue i).entries = c.entries := rfl
@[simp] theorem dequeue_recency : (c.dequeue i).recency = c.recency := rfl
@[simp] theorem dequeue_inProgress : (c.dequeue i).inProgress = c.inProgress := rfl
@[simp] theorem dequeue_entry : (c.dequeue i).entry j = c.entry j := rfl

/-- The entry set is the one that stands there after. -/
theorem entry_setEntry_self (h : i < c.entries.length) : (c.setEntry i e).entry i = e := by
  simp [Cache.setEntry, Cache.entry, List.getD_eq_getElem?_getD, h]

/-- Every other entry stands as before. -/
theorem entry_setEntry_of_ne (h : j ≠ i) : (c.setEntry i e).entry j = c.entry j := by
  simp [Cache.setEntry, Cache.entry, List.getD_eq_getElem?_getD, List.getElem?_set_ne h.symm]

/-- The entry that a code finds holds it. -/
theorem find_code {k : Code} (h : c.find k = some i) :
    i < c.entries.length ∧ (c.entry i).code = some k := by
  obtain ⟨hlt, he, -⟩ := List.findIdx?_eq_some_iff_getElem.mp h
  exact ⟨hlt, by simpa [Cache.entry, List.getD_eq_getElem?_getD, hlt] using he⟩

end Sys2Proof.Machine.Cache

namespace Sys2Proof.Config

/-- A free number brought into a range lies in it. -/
theorem inRange_mem {low high : Nat} (free : Nat) (h : low < high) :
    low ≤ inRange low high free ∧ inRange low high free < high := by
  have := Nat.mod_lt free (Nat.sub_pos_of_lt h)
  unfold inRange
  omega

/-- Along an axis of 3 pixels or more the rectangle and its hollow lie in order within the cell. -/
theorem substituteSpan_in_order (n first : Nat) (h : 3 ≤ n) :
    let (start, hollow, hollowEnd, stop) := substituteSpan n first
    start < hollow ∧ hollow < hollowEnd ∧ hollowEnd < stop ∧ stop ≤ n := by
  unfold substituteSpan
  simp only
  have a := inRange_mem (low := 0) (high := n - 2) (substituteSides first) (by omega)
  generalize inRange 0 (n - 2) (substituteSides first) = x at a ⊢
  have b := inRange_mem (low := x + 1) (high := n - 1) (substituteSides (first + 1)) (by omega)
  generalize inRange (x + 1) (n - 1) (substituteSides (first + 1)) = y at b ⊢
  have c := inRange_mem (low := y + 1) (high := n) (substituteSides (first + 2)) (by omega)
  generalize inRange (y + 1) n (substituteSides (first + 2)) = z at c ⊢
  have d := inRange_mem (low := z + 1) (high := n + 1) (substituteSides (first + 3)) (by omega)
  omega

end Sys2Proof.Config
end

