-- ==== Sys2Proof/Laws/Memory.lean ====
section
/-! SUPPORT. The font flash: read after write, and that every operation on it keeps the canonical
form. -/

namespace Sys2Proof.Machine.Memory

/-- An address below every listed one reads as erased. -/
theorem read_of_wfAbove {x a : Nat} (rest : List Host.Cell) (h : wfAbove (some x) rest = true)
    (ha : a ≤ x) : read rest a = erased := by
  induction rest generalizing x with
  | nil => rfl
  | cons d rest ih =>
    obtain ⟨y, w⟩ := d
    simp only [wfAbove, Bool.and_eq_true, decide_eq_true_eq] at h
    have hy : y ≠ a := by omega
    simp only [read, hy, if_false]
    exact ih h.2 (by omega)

theorem read_write_same (m : List Host.Cell) (a : Nat) (b : Byte) (h : wf m = true) :
    read (write m a b) a = b := by
  suffices H : ∀ (m : List Host.Cell) (lo : Option Nat), wfAbove lo m = true →
      read (write m a b) a = b from H m none h
  intro m
  induction m with
  | nil => intro lo _; by_cases hb : b = erased <;> simp [write, read, hb]
  | cons c rest ih =>
    obtain ⟨x, v⟩ := c
    intro lo hw
    simp only [wfAbove, Bool.and_eq_true] at hw
    unfold write
    split
    · next hlt => simp [read, Nat.ne_of_lt hlt, ih _ hw.2]
    · split
      · next heq =>
        split
        · next hb => rw [hb, read_of_wfAbove rest hw.2 (by omega)]
        · simp [read]
      · split
        · next hne hb =>
          simp only [read, hne, if_false]
          rw [hb, read_of_wfAbove rest hw.2 (by omega)]
        · simp [read]

theorem read_write_other (m : List Host.Cell) (a x : Nat) (b : Byte) (h : x ≠ a) :
    read (write m a b) x = read m x := by
  induction m with
  | nil => by_cases hb : b = erased <;> simp [write, read, hb, Ne.symm h]
  | cons c rest ih =>
    obtain ⟨y, v⟩ := c
    unfold write
    split
    · simp [read, ih]
    · split
      · next heq => split <;> simp [read, heq, Ne.symm h]
      · split <;> simp [read, Ne.symm h]

theorem wfAbove_mono {lo hi : Nat} {m : List Host.Cell} (h : lo ≤ hi)
    (hw : wfAbove (some hi) m = true) : wfAbove (some lo) m = true := by
  cases m with
  | nil => rfl
  | cons c rest =>
    obtain ⟨x, v⟩ := c
    simp only [wfAbove, Bool.and_eq_true, decide_eq_true_eq] at hw ⊢
    exact ⟨⟨by omega, hw.1.2⟩, hw.2⟩

theorem wfAbove_of_some {lo : Nat} {m : List Host.Cell} (hw : wfAbove (some lo) m = true) :
    wf m = true := by
  cases m with
  | nil => rfl
  | cons c rest =>
    obtain ⟨x, v⟩ := c
    simp only [wf, wfAbove, Bool.and_eq_true, decide_eq_true_eq] at hw ⊢
    exact ⟨⟨trivial, hw.1.2⟩, hw.2⟩

theorem wfAbove_write {lo : Option Nat} {m : List Host.Cell} {a : Nat} {b : Byte}
    (ha : ∀ l, lo = some l → l < a) (hw : wfAbove lo m = true) :
    wfAbove lo (write m a b) = true := by
  induction m generalizing lo with
  | nil =>
    by_cases hb : b = erased
    · simp [write, hb, wfAbove]
    · cases lo with
      | none => simp [write, hb, wfAbove]
      | some l => simp [write, hb, wfAbove, ha l rfl]
  | cons c rest ih =>
    obtain ⟨x, v⟩ := c
    have hw' := hw
    simp only [wfAbove, Bool.and_eq_true] at hw
    unfold write
    split
    · next hlt =>
      simp only [wfAbove, Bool.and_eq_true]
      exact ⟨hw.1, ih (by intro l hl; cases hl; exact hlt) hw.2⟩
    · split
      · next heq =>
        subst heq
        split
        · cases lo with
          | none => exact wfAbove_of_some hw.2
          | some l =>
            have := hw.1.1
            simp only [decide_eq_true_eq] at this
            exact wfAbove_mono (Nat.le_of_lt this) hw.2
        · next hb =>
          simp only [wfAbove, Bool.and_eq_true]
          exact ⟨⟨hw.1.1, by simpa using hb⟩, hw.2⟩
      · next h1 h2 =>
        split
        · exact hw'
        · next hb =>
          have hlt : a < x := by omega
          simp only [wfAbove, Bool.and_eq_true]
          refine ⟨⟨?_, by simpa using hb⟩, ⟨by simpa using hlt, hw.1.2⟩, hw.2⟩
          cases lo with
          | none => trivial
          | some l => simpa using ha l rfl

/-- A write keeps the canonical form. -/
theorem write_wf {m : List Host.Cell} (a : Nat) (b : Byte) (h : wf m = true) :
    wf (write m a b) = true := wfAbove_write (by intro l hl; cases hl) h

/-- Writing a range keeps the canonical form. -/
theorem fill_wf (f : Nat → Byte) (n : Nat) : ∀ (a : Nat) (m : List Host.Cell), wf m = true →
    wf (fill f a n m) = true := by
  induction n with
  | zero => intro a m h; exact h
  | succ n ih => intro a m h; exact ih _ _ (write_wf _ _ h)

theorem wfAbove_filter (p : Host.Cell → Bool) {lo : Option Nat} {m : List Host.Cell}
    (h : wfAbove lo m = true) : wfAbove lo (m.filter p) = true := by
  induction m generalizing lo with
  | nil => rfl
  | cons c rest ih =>
    obtain ⟨x, v⟩ := c
    simp only [wfAbove, Bool.and_eq_true] at h
    by_cases hp : p (x, v) = true
    · rw [List.filter_cons_of_pos hp]
      simp only [wfAbove, Bool.and_eq_true]
      exact ⟨h.1, ih h.2⟩
    · rw [List.filter_cons_of_neg hp]
      cases lo with
      | none => exact wfAbove_of_some (ih h.2)
      | some l =>
        have := h.1.1
        simp only [decide_eq_true_eq] at this
        exact wfAbove_mono (Nat.le_of_lt this) (ih h.2)

/-- Taking cells away keeps the canonical form. -/
theorem filter_wf (p : Host.Cell → Bool) {m : List Host.Cell} (h : wf m = true) :
    wf (m.filter p) = true := wfAbove_filter p h

/-- A byte outside the range written keeps its value. -/
theorem read_fill_outside (f : Nat → Byte) (n : Nat) : ∀ (a : Nat) (m : List Host.Cell) (x : Nat),
    (x < a ∨ a + n ≤ x) → read (fill f a n m) x = read m x := by
  induction n with
  | zero => intro a m x _; rfl
  | succ n ih =>
    intro a m x h
    rw [fill, ih _ _ _ (by omega), read_write_other _ _ _ _ (by omega)]

/-- A byte of the range written has the value chosen for its address. -/
theorem read_fill_inside (f : Nat → Byte) (n : Nat) : ∀ (a : Nat) (m : List Host.Cell) (x : Nat),
    wf m = true → a ≤ x → x < a + n → read (fill f a n m) x = f x := by
  induction n with
  | zero => intro a m x _ h1 h2; omega
  | succ n ih =>
    intro a m x h h1 h2
    rw [fill]
    by_cases hx : x = a
    · subst hx
      rw [read_fill_outside _ _ _ _ _ (by omega), read_write_same _ _ _ h]
    · exact ih _ _ _ (write_wf _ _ h) (by omega) (by omega)

/-- A byte whose cell is kept, or that is not listed, reads as before; another reads as erased. -/
theorem read_filter (keep : Nat → Bool) (m : List Host.Cell) (x : Nat) :
    read (m.filter fun c => keep c.1) x = if keep x then read m x else erased := by
  induction m with
  | nil => simp [read]
  | cons c rest ih =>
    obtain ⟨y, v⟩ := c
    by_cases hy : keep y = true
    · rw [List.filter_cons_of_pos (by simpa using hy)]
      by_cases hx : y = x
      · subst hx; simp [read, hy]
      · simp [read, hx, ih]
    · rw [List.filter_cons_of_neg (by simpa using hy)]
      by_cases hx : y = x
      · subst hx; rw [ih]; simp [hy]
      · rw [ih]; simp [read, hx]

/-- The flash at reset is in its canonical form. -/
theorem reset_wf : wf State.reset.flash = true := rfl

end Sys2Proof.Machine.Memory
end

