-- ==== Sys2Proof/Tests/Slice0.lean ====
section
/-! SUPPORT. Tests on fixed values: ill-formed commands, the spec's worked examples, one step each,
and for the statements of Certificates a state and operands that meet their hypotheses. -/

namespace Sys2Proof.Tests

open Sys2Proof Sys2Proof.Machine

-- One theorem at a time: each of these proofs is the kernel's work, and run side by side they take
-- a thread each.
set_option Elab.async false

/-- The state a command answers. -/
def after (i : Instr) (s : State) : State :=
  match exec i s with
  | .next t => t
  | .fault _ => s
  | .refused _ => s

/-! ## Well-formed commands: each check refuses an ill-formed command -/

theorem test_loadData_too_long :
    Instr.wellFormed (.loadData .playback 0 0 (List.replicate 247 0)) = false := by decide +kernel
theorem test_fontProgram_too_long :
    Instr.wellFormed (.fontProgram .venue 0 (List.replicate 246 0)) = false := by decide +kernel
theorem test_spi_write_without_kind :
    Instr.wellFormed (.writeTransaction .console true [] true) = false := by decide
theorem test_read_of_nothing : Instr.wellFormed (.readTransaction .venue 0) = false := by decide
theorem test_longest_loadData_is_wellFormed :
    Instr.wellFormed (.loadData .playback 0 0 (List.replicate 246 0)) = true := by decide +kernel

/-! ## Decoding -/

/-- The table gives no row bits. -/
theorem test_no_word_spells_a_command : decodeTableWord 16 0x1234 = none := rfl
/-- SEEK, code 0x22, of 30,000 = 0x7530 (R194). -/
theorem test_seek_frame :
    commandOf .playback ⟨0x22, [0x00, 0x00, 0x75, 0x30]⟩ = some (.seek .playback 30000) := by decide
/-- ENQUEUE, code 0x01: song id 3, tier 1 byte, tag 2 bytes (R15, R194). -/
theorem test_enqueue_frame :
    commandOf .venue ⟨0x01, [0x01, 0x02, 0x03, 0x01, 0x01, 0x0F]⟩ =
      some (.enqueue .venue 0x010203 1 ⟨1, 15⟩) := by decide
/-- A parameter byte too many spells nothing (R188). -/
theorem test_bad_length : commandOf .venue ⟨0x4C, [0x00]⟩ = none := by decide

/-! ## States of the tests -/

/-- A track of one part with two lines and three notes, END at 5000, an interlude 4000 to 4500. -/
def track : Track :=
  { partCount := 1, originalKey := 57, duration := 6000, lineCount := 2
    title := [0x41], artist := [0x42]
    lines := [⟨.a, [⟨2000, 500, [0x51, 0x52]⟩]⟩, ⟨.both, [⟨3000, 400, [0x53]⟩]⟩]
    notes := [⟨2000, 500, 57, .a⟩, ⟨2600, 300, 59, .both⟩, ⟨3000, 400, 60, .a⟩]
    endTime := 5000, spans := [(4000, 4500)] }

def entry (ticket song origin : Nat) (tier : Tier) (state : EntryState) : Entry :=
  { ticket := ticket, songId := song, origin := origin, tier := tier, round := 1, tag := none
    acceptedAt := 0, moved := false, state := state }

def readySlot (ticket : Nat) (state : SlotState) : Slot :=
  { Slot.empty with
    state := state, ticket := some ticket, bytes := [0x55], track := some track
    tallied := Vector.replicate 4 [none, none, none] }

/-- The stage EMPTY; A (ticket 1, panel 3) CALLED with slot 0 READY, K (2, PRIORITY) with slot 1 in
FAULT, F (3, console) with slot 2 in LOADING. -/
def booked : State :=
  { State.reset with
    book := { Book.reset with
      entries := [entry 1 11 3 .normal .called, entry 2 12 9 .priority .waiting,
        entry 3 13 8 .normal .waiting]
      nextTicket := 4 }
    slots := #v[readySlot 1 .ready, { Slot.empty with
      state := .fault, ticket := some 2, fault := some (.sum, none) },
      { Slot.empty with state := .loading, ticket := some 3, bytes := [1, 2], timer := 5 },
      Slot.empty] }

/-- Ticket 9 on stage in slot 3, the clock RUNNING at 2100, channel 0 in note 0. -/
def staged : State :=
  { booked with
    book := { booked.book with
      entries := [entry 1 11 3 .normal .waiting, entry 2 12 9 .priority .waiting] }
    slots := booked.slots.set 3 (readySlot 9 .onStage)
    turn := some { ticket := 9, songId := 19, slot := 3, origin := 5, tier := .normal, tag := none
                   startedAt := 0, flags := TurnFlags.clear }
    clock := { Clock.reset with
      state := .running, position := 2100, endTime := some 5000, spans := [(4000, 4500)] }
    voice := { Voice.reset with
      audio := .present
      channels := Voice.reset.channels.set 0 { Channel.reset .a 0xFFD000 with
        takingPart := true, judged := 2, hits := 1, openNote := some ⟨0, 2, 1⟩ } } }

def atPosition (n : Nat) (s : State) : State := { s with clock := { s.clock with position := n } }

def withExchange (x : Exchange) (s : State) : State :=
  { s with loop := { s.loop with exchange := x, quiet := 3 } }

def withStore (x : StoreState) (s : State) : State := { s with font := { s.font with store := x } }

/-- The Book of the worked example of 1.1: entries by letter, ROTATE mode, lowest 9. -/
def arrivals (xs : List Entry) : Book := { Book.reset with entries := xs }

/-! ## Worked examples of the spec -/

def letterA : Entry := { entry 1 1 3 .normal .waiting with round := 1 }
def letterB : Entry := { entry 2 1 3 .normal .waiting with round := 2 }
def letterC : Entry := { entry 3 1 1 .normal .waiting with round := 1 }
def letterD : Entry := { entry 4 1 5 .normal .waiting with round := 1 }
def letterE : Entry := { entry 5 1 1 .normal .waiting with round := 2 }
def letterF : Entry := { entry 6 1 8 .normal .waiting with round := 1 }

/-- 1.1: C, of round 1 and rank 1, goes before A of rank 3. -/
theorem test_arrival_C :
    (arrivals [letterA, letterB]).inserted letterC = [letterC, letterA, letterB] := by decide
/-- 1.1: F goes before E: C A D F E B. -/
theorem test_arrival_F :
    (arrivals [letterC, letterA, letterD, letterE, letterB]).inserted letterF =
      [letterC, letterA, letterD, letterF, letterE, letterB] := by decide
/-- 12.3: the POLL to panel 2 with nothing stored. -/
theorem test_poll_frame :
    pollFrame 2 Panel.reset = [0xA5, 0x82, 0x01, 0x00, 0x01, 0xFF, 0xD8] := by decide
/-- 5.2: at tempo 1250 the tick with accumulator 750 moves the position by 2. -/
theorem test_two_advances :
    let s := atPosition 13 { staged with clock := { staged.clock with tempo := 1250 } }
    let t := after .timebaseTick { s with clock := { s.clock with accumulator := 750 } }
    t.clock.position = 15 ∧ t.clock.accumulator = 0 := by decide +kernel
/-- 5.3: a SYNC whose difference equals the slip window is ignored. -/
theorem test_sync_at_the_window :
    let t := after (.sync .playback 80980) (atPosition 81000 staged)
    t.clock.position = 81000 ∧ t.clock.lastSync = some (-20) := by decide +kernel
/-- 5.3, END: a seek over the END time ends the turn, with SKIPPED_AHEAD in the record. -/
theorem test_seek_over_the_end :
    let t := after (.seek .playback 5000) staged
    t.turn = none ∧ t.ring.map (fun r => (r.ticket, r.flags.skippedAhead)) = [(9, true)] := by
  decide +kernel
/-- 8.4: red 200 under shade 6, then coverage 2 of red 40: 125, then 67. -/
theorem test_blend : blend 6 0 200 = 125 ∧ blend 11 40 125 = 67 := by decide
/-- 9.2: five crossings 873 samples apart give T16 = 3492. -/
theorem test_period : period16 873 5 = 3492 := by decide
/-- 9.2: T16 = 3492 is pitch 456; the ends of the range are 679 and 297. -/
theorem test_pitch : pitchOf 3492 = 456 ∧ pitchOf 699 = 679 ∧ pitchOf 10971 = 297 := by
  decide +kernel
/-- 9.2: a difference of −96 folds to 0, one of +48 to −48. -/
theorem test_fold : fold (-96) = 0 ∧ fold 48 = -48 := by decide
/-- 9.3: a voiced frame on the note is a HIT of the open note. -/
theorem test_hit :
    ((staged.judge 0 (some 456)).voice.channels[(0 : Fin 4)]).openNote = some ⟨0, 3, 2⟩ := by
  decide +kernel
/-- 9.4: a jump tallies the open note; 2 × 1 ≥ 2 makes it KEPT. -/
theorem test_jump_tallies :
    (after (.seek .playback 1000) staged).noteMark 0 0 = some .kept := by decide +kernel
/-- 10.1: the duet's scores, 7921 and 6505 before penalties, and the headline 7166. -/
theorem test_duet_scores :
    baseScore 3 1 1500 1180 120 97 = 7921 ∧ baseScore 3 1 1380 900 110 71 = 6505 ∧
      headlineOf [7851, 6481] = some 7166 := by decide
/-- 10.4: 40 with 8800 stands behind 27 with 8800. -/
theorem test_best_tie :
    (offerBest [⟨31, 1, 0, none, 9120, 0⟩, ⟨27, 1, 0, none, 8800, 0⟩, ⟨35, 1, 0, none, 8050, 0⟩,
      ⟨22, 1, 0, none, 7166, 0⟩] ⟨40, 1, 0, none, 8800, 0⟩).map (·.ticket) =
      [31, 27, 40, 35, 22] := by decide
/-- 11.3: with CALL and TURN_ENDED pending the take gives CALL, class 2 of the table. -/
theorem test_call_before_turn_ended :
    let s := (booked.raise [.playback] (.turnEnded 1 .aborted)).raise [.playback] (.call 11 0)
    (((after (.noticeTake .playback) s).port .playback).reply.map (·.data.take 4)) =
      some [1, 0, 11, 0] := by decide +kernel
/-- 12.4, 4.5: a byte that is not the signature's fails SIGNATURE at record index 0. -/
theorem test_signature :
    checkTrack 1 (0x56 :: List.replicate 40 0) = .error (.signature, some 0) := by decide +kernel
/-- 4.2: the scrub of 20,480 bytes takes 6 ms. -/
theorem test_scrub_time :
    (Slot.toScrub { Slot.empty with bytes := List.replicate 20480 0 }).timer = 6 := by
  decide +kernel
/-- 6.1: on the 720-line canvas 2 title rows, 4 rows and guide 512 come to guide 320. -/
theorem test_effective_guide :
    ({ LineScheduler.reset with
      canvas := .hd720, titleRowsSetting := 2, lyricRows := 4, guideSetting := 512 }).layout.guide =
      320 := by decide +kernel
/-- R143: 16.40 ms at 1920 by 1080 is the 60 Hz format; 16.39 ms is not supported. -/
theorem test_classify :
    FrameMeasure.classify ⟨true, 1920, 1080, true, 1640⟩ = .supported .f1080p60 ∧
      FrameMeasure.classify ⟨true, 1920, 1080, true, 1639⟩ = .unsupported := by decide
/-- R161: tone note 69 at 48 kHz: sample 54 is in the first half, sample 55 in the second. -/
theorem test_square_wave : toneSample 69 54 = 8000 ∧ toneSample 69 55 = BitVec.ofInt 16 (-8000) := by
  decide +kernel
/-- The step runs the front command: a tick moves session time. -/
theorem test_step :
    step { State.reset with pending := [.timebaseTick] } = exec .timebaseTick State.reset := rfl

/-! ## The hypotheses of the statements are met

One theorem for each statement with hypotheses, with the boundary values of its clauses. -/

/-- Each client command is taken at reset on a port it is permitted on. -/
theorem test_meets_canTake :
    ([.sessionReset .venue, .enqueue .venue 1 0 ⟨0, 0⟩, .cancel .console 1, .move .console 1 1,
      .bookHold .venue, .bookRelease .venue, .promote .venue 1, .setOrderMode .venue 0 0,
      .setRotation .venue 9, .setOriginMask .venue 1023, .setCap .venue 9 8,
      .setQuota .venue 1 10, .setDuplicatePolicy .venue 1, .bookRead .playback 1 8,
      .bookPolicyRead .playback, .panelEnable .venue 7 1, .panelCountersClear .venue 0xFF,
      .setLoopTiming .venue 5 10, .panelRead .console, .takeTurn .playback,
      .endTurn .playback 9 2, .abortTurn .venue 9, .setAutoEnd .console 1, .stageRead .venue,
      .loadBegin .playback 3 1, .loadData .playback 3 0 [0], .loadEnd .playback 3 1 0,
      .setLookahead .console 3, .retryStage .console 2, .slotRead .venue, .slotDetail .venue 3,
      .play .playback, .pause .playback, .resume .playback, .seek .playback 3599999,
      .sync .playback 3599999, .setTempo .playback 750, .setSlipWindow .playback 200,
      .setKey .console 0xF9, .clockRead .console, .setBands .venue 2 512, .setStyle .venue 1 4,
      .setLineTiming .console 500 0 0 30, .setLyricColours .venue 0 0 0 0,
      .setScoreHold .venue 10000, .lineWindowRead .playback, .fontMaintBegin .venue,
      .fontWriteEnable .venue, .fontProgram .venue 0 [0], .fontErase .venue 0,
      .fontRead .venue 0 1, .fontProtect .venue 3, .fontMaintEnd .venue, .cacheStatus .console,
      .glyphQuery .console 0, .fontStatus .venue, .wake .console, .goStandby .console,
      .setOverlay .console 1 2 1 1, .setPlane .venue 16 0 16 0, .setFmark .venue 1,
      .displayCountersClear .venue, .displayStatus .playback, .setMicEnable .console 3 1,
      .setMicColour .console 3 0, .toneCheck .console 3 96, .setPart .console 3 1,
      .setScoring .venue 8191 24 200 250 1 15 15 20, .voiceRead .playback,
      .resultRead .console 1 15, .resultTake .venue 1, .bestClear .venue, .bestRead .playback,
      .noticeTake .playback, .noticeMask .playback 0xFFFF, .ident .venue] : List Instr).all
      State.reset.canTake = true := by decide +kernel

/-- So is each of the test states' own commands. -/
theorem test_meets_canTake_inTestStates :
    ([.takeTurn .playback, .cancel .console 1, .move .venue 3 2, .promote .venue 3,
      .bookHold .console, .retryStage .console 2] : List Instr).all booked.canTake = true ∧
    ([.endTurn .playback 9 2, .abortTurn .console 9, .seek .playback 5000, .sync .playback 5000,
      .setKey .console 7, .setMicEnable .console 0 1, .setPart .console 0 1,
      .setScoring .venue 0 0 0 0 0 0 1 0] : List Instr).all staged.canTake = true := by
  decide +kernel

/-- The test states' ports are those of reset, so each takes every command of the first list. -/
theorem test_states_have_reset_ports :
    booked.ports = State.reset.ports ∧ staged.ports = State.reset.ports ∧
      (withStore .maintenance State.reset).ports = State.reset.ports := ⟨rfl, rfl, rfl⟩

theorem test_meets_StepRunsTheFrontCommand :
    ({ State.reset with pending := [.poll, .verdict] } : State).pending = .poll :: [.verdict] ∧
      State.reset.pending = [] := ⟨rfl, rfl⟩

theorem test_meets_EveryCommandIsAnswered :
    let busy := after (.writeTransaction .venue true [0x4C] false) State.reset
    let f : Frame := ⟨0x4C, []⟩
    frameOf (.sessionReset .venue) = some (.venue, f) ∧ (busy.port .venue).admits f = false ∧
      (State.reset.port .venue).admits f = true ∧
      (State.reset.port .console).admits f = true ∧ permitted f.code .console = false := by
  decide +kernel

theorem test_meets_FramesSpellTheirCommands :
    let i : Instr := .loadData .playback 3 65535 (List.replicate 246 0xFF)
    i.wellFormed = true ∧ (frameOf i).isSome = true ∧
      commandOf .console ⟨0x1D, []⟩ = some (.slotRead .console) := by decide +kernel

/-- An erase names its sector's bytes alone; the session reset meets a turn, bound slots and a show. -/
theorem test_meets_ResetsGiveTheirValues :
    let op := FlashOp.erase 1
    4095 < op.range.1 ∧ op.range.1 + op.range.2 ≤ 8192 ∧
      (withStore (.busy op 0) State.reset).font.store = .busy op 0 ∧
      staged.canTake (.sessionReset .venue) = true := by decide +kernel

/-- What holds of an optional value's content holds whenever it has one. -/
theorem of_all {α : Type} {o : Option α} {P : α → Prop} [DecidablePred P]
    (h : o.all (fun x => decide (P x)) = true) : ∀ x, o = some x → P x := by
  rintro x rfl; simpa using h

/-- What holds of every entry of a list and its place holds at each place. -/
theorem of_all_places {α : Type} {l : List α} {P : Nat → α → Prop} [∀ k x, Decidable (P k x)]
    (h : l.zipIdx.all (fun z => decide (P z.2 z.1)) = true) : ∀ k x, l[k]? = some x → P k x := by
  intro k x hx
  simpa using List.all_eq_true.1 h (x, k) (List.mk_mem_zipIdx_iff_getElem?.2 hx)

/-- `booked` with the title band it calls for, and with a turn of slot 3 on stage. -/
def called : State :=
  { booked with lines := { booked.lines with title := .nextUp 0, titleRows := [[0x41]] } }

def singing : State :=
  { staged with
    book := { staged.book with
      entries := [entry 1 11 3 .normal .waiting, entry 2 12 9 .priority .waiting,
        entry 3 13 8 .normal .waiting] }
    lines := { staged.lines with title := .stage 3, titleRows := [[0x41]] } }

theorem test_meets_invariants :
    (staged.flashCanonical ∧ staged.ticketsDistinct ∧ staged.clockAgrees ∧
      staged.resultsBounded) ∧ (∃ t, step staged = .next t) := by
  refine ⟨⟨?_, ?_, ?_, ?_⟩, staged, rfl⟩
  · unfold State.flashCanonical; decide +kernel
  · unfold State.ticketsDistinct; decide +kernel
  · unfold State.clockAgrees; decide +kernel
  · unfold State.resultsBounded; decide +kernel

/-- The invariant of the room in a form that `decide` runs. -/
theorem room_of_checks {s : State} (tickets : s.ticketsDistinct)
    (h : 1 ≤ s.depth ∧ s.depth ≤ 3 ∧
      (∀ i : Fin 4, s.slots[i].ticket = none ↔
        s.slots[i].state = .free ∨ s.slots[i].state = .scrub) ∧
      (∀ i j : Fin 4, s.slots[i].ticket.isSome = true → s.slots[i].ticket = s.slots[j].ticket →
        i = j) ∧
      (∀ i : Fin 4, s.slots[i].ticket.all (fun n =>
        decide ((∃ e ∈ s.book.entries, e.ticket = n) ∨ s.onStage n = true)) = true) ∧
      (∀ i : Fin 4, s.slots[i].state = .onStage → s.turn.any (fun t => t.slot = i) = true) ∧
      s.turn.all (fun t => decide (s.slots[t.slot].state = .onStage ∧
        s.slots[t.slot].ticket = some t.ticket)) = true ∧
      (∀ i j : Fin 4, s.slots[i].state = .loading → s.slots[j].state = .loading → i = j) ∧
      s.book.entries.zipIdx.all (fun z => decide (z.1.state = .called → z.2 = 0 ∧
        s.turn = none ∧ s.book.held = false ∧
        ∃ i : Fin 4, s.slots[i].ticket = some z.1.ticket ∧ s.slots[i].state = .ready)) = true) :
    s.roomAgrees := by
  obtain ⟨d1, d3, bound, once, held, onStage, turn, loading, head⟩ := h
  refine ⟨tickets, d1, d3, bound, fun i j n hi hj => once i j (Option.isSome_of_eq_some hi) (hi.trans hj.symm),
    fun i => of_all (held i), fun i hi => ?_, of_all turn, loading, of_all_places head⟩
  simpa [Option.any_eq_true] using onStage i hi

/-- A called head waiting, and a song being sung. -/
theorem test_meets_RoomStaysInOrder :
    (called.roomAgrees ∧ called.titleAgrees) ∧ (singing.roomAgrees ∧ singing.titleAgrees) ∧
      (∃ t, step called = .next t) ∧ ∃ t, step singing = .next t := by
  refine ⟨⟨room_of_checks ?_ (by decide +kernel), ?_⟩,
    ⟨room_of_checks ?_ (by decide +kernel), ?_⟩, ⟨_, rfl⟩, _, rfl⟩
  · unfold State.ticketsDistinct; decide +kernel
  · refine ⟨of_all (by decide +kernel), fun _ => of_all (by decide +kernel),
      fun _ h => absurd (h _ rfl 0 rfl) (by decide +kernel), nofun, ?_⟩
    rintro i (h | h) <;> cases h; decide +kernel
  · unfold State.ticketsDistinct; decide +kernel
  · refine ⟨of_all (by decide +kernel), nofun, nofun, nofun, ?_⟩
    rintro i (h | h) <;> cases h; decide +kernel

/-- MASKED before BAD_SONG; CAP; a refused panel request at its window's last ms; PRIORITY on the
console; a tier and tags just outside their sets; accepted requests. -/
theorem test_meets_RequestsAreCheckedAndAccepted :
    let masked := { State.reset with book := { Book.reset with masked := 0x3FF } }
    let awaiting := withExchange (.window 7 0) masked
    let receiving := withExchange (.receiving 0 [0xA5, 0x00, 0x11]) booked
    (masked.refusal (.port 9) 0 .normal = some .masked ∧
      State.reset.refusal (.port 9) 1 .priority = none ∧
      State.reset.refusal (.port 8) 0 .normal = some .badSong ∧ portOrigin .venue = some 9 ∧
      tierOf 1 = some .priority ∧ tagOf ⟨1, 15⟩ = some (some 15) ∧ tagOf ⟨1, 16⟩ = none ∧
      awaiting.replyDue 7 (replyFrame 7 0x11 15 (be24 1 ++ [0xFF])) = true ∧
      awaiting.repeated 7 (seqOf 15) = none ∧
      awaiting.refusal (.panel 7) 1 .normal = some .masked ∧
      booked.canTake (.enqueue .console 1 1 ⟨0, 0⟩) = true ∧
      booked.canTake (.enqueue .venue 1 2 ⟨1, 16⟩) = true ∧
      booked.canTake (.enqueue .console 1 0 ⟨2, 0⟩) = true ∧
      receiving.replyDue 0 (replyFrame 0 0x11 0 (be24 0xFFFFFF ++ [15])) = true ∧
      receiving.repeated 0 (seqOf 0) = none ∧
      receiving.refusal (.panel 0) 0xFFFFFF .normal = none ∧
      booked.refusal (.port 9) 1 .priority = none) ∧
    booked.ticketsDistinct ∧ receiving.ticketsDistinct := by
  unfold State.ticketsDistinct; decide +kernel

theorem test_meets_TicketsAreIssuedInOrder :
    ({ booked with book := { booked.book with nextTicket := 65535 } } : State).ticketsDistinct := by
  unfold State.ticketsDistinct; decide +kernel

theorem test_meets_ArrivalInsertionAppends :
    let arrival := { booked with book := { booked.book with mode := .arrival } }
    let awaiting := withExchange (.window 3 20) arrival
    arrival.refusal (.port 8) 1 .normal = none ∧ (letterA).tier = .normal ∧
      awaiting.replyDue 3 (replyFrame 3 0x11 1 (be24 1 ++ [0])) = true ∧
      awaiting.repeated 3 (seqOf 1) = none ∧ awaiting.refusal (.panel 3) 1 .normal = none ∧
      awaiting.book.mode = .arrival := by decide +kernel

theorem test_meets_PriorityInsertionPlace :
    (entry 9 1 9 .priority .waiting).tier = .priority ∧
      booked.book.inserted (entry 9 1 9 .priority .waiting) =
        booked.book.entries.take 2 ++ entry 9 1 9 .priority .waiting ::
          booked.book.entries.drop 2 := by decide +kernel

theorem test_meets_FairInsertionPlace :
    (arrivals [letterA]).mode = .rotate ∧ letterC.tier = .normal ∧
      (arrivals [letterA]).lowest < 10 := by decide

/-- The CALLED head, and the ticket of the turn, of another panel and of nobody. -/
theorem test_meets_CancelRemovesTheEntry :
    let mine := withExchange (.window 3 1) booked
    let other := withExchange (.window 4 1) booked
    let nobody := withExchange (.window 4 1) staged
    booked.holder 1 = .entry (entry 1 11 3 .normal .called) ∧ booked.boundSlot 1 = some 0 ∧
      booked.holder 65535 = .nobody ∧ booked.holder 0 = .nobody ∧ staged.holder 9 = .stage ∧
      mine.replyDue 3 (replyFrame 3 0x12 0 (be16 1)) = true ∧
      mine.repeated 3 (seqOf 0) = none ∧ mine.loop.panels[(3 : Fin 8)].presence = .absent ∧
      other.replyDue 4 (replyFrame 4 0x12 0 (be16 1)) = true ∧
      nobody.replyDue 4 (replyFrame 4 0x12 0 (be16 9)) = true := by decide +kernel

/-- The cancel of ticket 1 leaves a head whose slot is READY, or one whose slot is in FAULT. -/
theorem test_meets_CancelRemovesTheEntry_next :
    let heads := [entry 1 11 3 .normal .called, entry 3 13 8 .normal .waiting]
    let next := ({ booked with book := { booked.book with entries := heads } }).setSlot 2
      (readySlot 3 .ready)
    next.ticketsDistinct ∧ booked.ticketsDistinct ∧ next.holder 1 = .entry heads[0] ∧
      (heads.filter fun x => x.ticket ≠ 1) = [heads[1]] ∧ next.turn = none ∧
      next.book.held = false ∧ next.boundSlot 3 = some 2 ∧
      next.slots[(2 : Fin 4)].state = .ready ∧
      (booked.book.entries.filter fun x => x.ticket ≠ 1).head? =
        some (entry 2 12 9 .priority .waiting) ∧
      ∀ i : Fin 4, booked.slots[i].ticket = some 2 → booked.slots[i].state ≠ .ready := by
  unfold State.ticketsDistinct
  decide +kernel

/-- A WAITING NORMAL entry at position 3; a CALLED head, which MOVE and PROMOTE refuse. -/
theorem test_meets_MoveAndPromotePlaceTheEntry :
    booked.holder 3 = .entry (entry 3 13 8 .normal .waiting) ∧
      booked.holder 1 = .entry (entry 1 11 3 .normal .called) ∧
      booked.holder 2 = .entry (entry 2 12 9 .priority .waiting) := by decide +kernel

/-- A CALLED head and none; a head that can be called; nothing to call: a turn on stage, no entries, a
CALLED head, a head whose slot is not READY. Values at and beyond the ends of the policies' sets. -/
theorem test_meets_HoldReleaseAndPolicies :
    let waiting := { booked with book := { booked.book with
      held := true, entries := [entry 1 11 3 .normal .waiting] } }
    let faulted := { booked with book := { booked.book with
      held := true, entries := [entry 2 12 9 .priority .waiting] } }
    booked.book.calledHead.isSome = true ∧ State.reset.book.calledHead = none ∧
      waiting.book.entries = [entry 1 11 3 .normal .waiting] ∧
      waiting.boundSlot 1 = some 0 ∧ waiting.slots[(0 : Fin 4)].state = .ready ∧
      waiting.turn = none ∧ staged.turn.isSome = true ∧ State.reset.book.entries = [] ∧
      booked.book.entries.head?.map (·.state) = some .called ∧
      faulted.boundSlot 2 = some 1 ∧ faulted.slots[(1 : Fin 4)].state = .fault ∧
      ([.setOrderMode .venue 1 1, .setOrderMode .venue 2 0, .setOrderMode .venue 0 2,
        .setRotation .venue 10, .setOriginMask .venue 1024, .setCap .venue 9 9, .setCap .venue 0 0,
        .setCap .venue 10 1, .setQuota .venue 0 9, .setQuota .venue 8 900, .setQuota .venue 9 901,
        .setDuplicatePolicy .venue 2, .bookRelease .venue] : List Instr).all booked.canTake =
        true := by decide +kernel

theorem test_meets_LoopSendsItsFrames :
    (withExchange (.toPoll 7) booked).loop.exchange = .toPoll 7 ∧
      1 ≤ (withExchange (.toVerdict 7 15 .unknown) booked).loop.quiet ∧
      (withExchange (.toAnswer 0 0 (.done none)) booked).loop.exchange =
        .toAnswer 0 0 (.done none) := by decide

theorem test_meets_MissesAndVisits :
    (withExchange (.window 7 0) booked).loop.exchange = .window 7 0 ∧
      (withExchange (.ignoring 0) booked).loop.exchange = .ignoring 0 ∧
      3 ≤ (withExchange (.ignoring 0) booked).loop.quiet ∧
      ({ Loop.reset with lastVisit := true } : Loop).lastVisit = true ∧
      ({ Loop.reset with phase := .gap } : Loop).gapLeft = 0 ∧
      ({ Loop.reset with phase := .cycle, visited := [] } : Loop).chooseNext.exchange =
        .toPoll 0 := by decide

theorem test_meets_ReplyBytesMakeGoodAndBadReplies :
    let s := withExchange (.receiving 2 [0xA5]) booked
    s.loop.exchange.awaited = some (2, [0xA5]) ∧ replyStatus 2 ([0xA5] ++ [0x02]) = .more ∧
      replyStatus 2 ([0xA5] ++ [0x03]) = .bad ∧ 3 ≤ s.loop.quiet ∧
      (withExchange .none booked).loop.exchange.awaited = none ∧
      kindLength 0x13 = some 2 ∧
      replyStatus 2 ((replyFrame 2 0x10 0 []).take 5 ++ [0x49]) = .good := by decide +kernel

theorem test_meets_GoodRepliesAreActedOn :
    let panel := { Panel.reset with stored := some (15, .cancelled) }
    let s := withExchange (.window 5 0) { booked with loop := booked.loop.setPanel 5 panel }
    s.replyDue 5 (replyFrame 5 0x10 15 []) = true ∧
      s.replyDue 5 (replyFrame 5 0x13 15 (be16 65535)) = true ∧
      s.loop.panels[(5 : Fin 8)].stored = some (seqOf 15, .cancelled) ∧
      s.replyDue 5 (replyFrame 5 0x11 15 (be24 1 ++ [0])) = true ∧
      s.replyDue 5 (replyFrame 5 0x12 15 (be16 1)) = true := by decide +kernel

theorem test_meets_TakeTurnTakesTheCalledHead :
    booked.turn = none ∧ booked.book.entries.head? = some (entry 1 11 3 .normal .called) ∧
      booked.boundSlot 1 = some 0 ∧ ∀ x ∈ booked.book.entries.tail, x.ticket ≠ 1 := by
  decide +kernel

/-- Values at and beyond the ends of each setting's set, and a turn and no turn. -/
theorem test_meets_SettingsAreSetOrRefused :
    staged.turn.isSome = true ∧ State.reset.turn = none ∧
      State.reset.book.entries.head? = none ∧ staged.onStage 8 = false ∧
      staged.onStage 9 = true ∧
      ([.panelEnable .venue 7 1, .panelEnable .venue 8 0, .panelEnable .venue 0 2,
        .panelCountersClear .venue 7, .panelCountersClear .venue 8, .panelCountersClear .venue 0xFF,
        .setLoopTiming .venue 5 1000, .setLoopTiming .venue 4 10, .setLoopTiming .venue 100 9,
        .setLoopTiming .venue 101 1001, .takeTurn .playback, .endTurn .playback 0 2,
        .endTurn .playback 9 3, .endTurn .playback 8 0, .abortTurn .venue 0, .abortTurn .venue 8,
        .setAutoEnd .console 1, .setAutoEnd .console 2, .wake .console, .goStandby .console,
        .setOverlay .console 1 2 1 1, .setOverlay .console 2 0 0 0, .setOverlay .console 0 3 0 0,
        .setOverlay .console 0 0 2 0, .setOverlay .console 0 0 0 2, .setFmark .venue 1,
        .setFmark .venue 2, .displayCountersClear .venue] : List Instr).all staged.canTake = true := by
  decide +kernel

/-- A head that can be called in another slot than the turn's; the Book held; a head whose slot is in
FAULT; the reasons at the ends of their set. -/
theorem test_meets_EndingATurnFilesAndClears :
    let held := { staged with book := { staged.book with held := true } }
    let faulted := { staged with book := { staged.book with
      entries := [entry 2 12 9 .priority .waiting] } }
    staged.turn.map (·.ticket) = some 9 ∧ (9 : BitVec 16).toNat = 9 ∧
      staged.canTake (.endTurn .playback 9 0) = true ∧
      staged.canTake (.endTurn .playback 9 2) = true ∧
      staged.canTake (.abortTurn .venue 9) = true ∧
      staged.book.entries.head? = some (entry 1 11 3 .normal .waiting) ∧
      staged.book.held = false ∧ staged.boundSlot 1 = some 0 ∧
      staged.turn.map (·.slot) = some 3 ∧ staged.slots[(0 : Fin 4)].state = .ready ∧
      held.book.held = true ∧ faulted.slots[(1 : Fin 4)].state = .fault ∧
      ∀ j : Fin 4, faulted.slots[j].ticket = some 2 → faulted.slots[j].state = .ready → j = 3 := by
  decide +kernel

theorem test_meets_SlotIntervalsEndTheirStates :
    let s := booked.setSlot 0 { readySlot 1 .loading with timer := 0 }
    let t := booked.setSlot 0 (readySlot 1 .checking)
    let u := booked.setSlot 3 { Slot.empty with state := .scrub }
    s.slots[(0 : Fin 4)].state = .loading ∧ t.slots[(0 : Fin 4)].state = .checking ∧
      u.slots[(3 : Fin 4)].state = .scrub ∧ s.slots[(0 : Fin 4)].timer = 0 ∧
      t.slots[(0 : Fin 4)].timer = 0 ∧ u.slots[(3 : Fin 4)].timer = 0 := by decide +kernel

/-- A pass over two entries: one with a slot, one that takes the FREE slot, waits for the slot in
SCRUB, or takes the slot of the entry farthest behind. -/
theorem test_meets_PassesServeTheFirstEntries :
    let e := entry 7 1 3 .normal .waiting
    let scrubbing := booked.setSlot 3 { Slot.empty with state := .scrub }
    let shallow := { scrubbing with depth := 1 }
    (booked.ticketsDistinct ∧
      (∀ i : Fin 4, booked.slots[i].state = .free ∨ booked.slots[i].state = .scrub →
        booked.slots[i].ticket = none) ∧
      ∀ i j : Fin 4, booked.slots[i].ticket = booked.slots[j].ticket →
        booked.slots[i].ticket.isSome = true → i = j) ∧
    booked.slots[(0 : Fin 4)].ticket = some (entry 1 11 3 .normal .called).ticket ∧
      (∀ i : Fin 4, booked.slots[i].ticket ≠ some e.ticket) ∧
      booked.slots[(3 : Fin 4)].state = .free ∧
      (∀ j : Fin 4, j < 3 → booked.slots[j].state ≠ .free) ∧
      (∀ i : Fin 4, scrubbing.slots[i].ticket ≠ some e.ticket ∧ scrubbing.slots[i].state ≠ .free) ∧
      shallow.book.entries.drop shallow.depth =
        [entry 2 12 9 .priority .waiting] ++ entry 3 13 8 .normal .waiting :: [] ∧
      shallow.boundSlot 3 = some 2 ∧
      ({ scrubbing with depth := 3 } : State).book.entries.drop 3 = [] ∧
      booked.holder 2 = .entry (entry 2 12 9 .priority .waiting) ∧ booked.boundSlot 2 = some 1 ∧
      booked.slots[(1 : Fin 4)].state = .fault ∧ booked.holder 8 = .nobody ∧
      staged.holder 9 = .stage := by
  unfold State.ticketsDistinct; decide +kernel

/-- A track of one note and an END: a record that fails by its value, one that the bytes end before,
all the records that the header counts; and a track of an END alone that passes. -/
theorem test_meets_CheckedTracksAreSound :
    let h : Header :=
      { partCount := 1, duration := 0, originalKey := 36, lineCount := 0, noteCount := 1
        markCount := 1, title := [], artist := [] }
    let note := TrackRecord.note ⟨0, 1, 36, .a⟩
    let late := TrackRecord.mark 2 3600000
    h.fits ∧ note.fits ∧ late.fits ∧ recordsPass h [note] ∧ [note].length < h.recordCount ∧
      late.fails h [note] .range ∧ BadRecord h [note] [] .truncated ∧
      recordsPass h [note, .mark 2 1] ∧ [note, TrackRecord.mark 2 1].length = h.recordCount ∧
      (checkTrack 1 ([0x55, 0x46, 0x54, 0x4B, 1, 1] ++ be24 1 ++ be32 0 ++ [36] ++ be16 0 ++ be16 0 ++
      [1, 0, 0] ++ [3, 2] ++ be32 0)).toOption.isSome = true := by
  intro h note late
  have first : ∀ reason, ¬ note.fails h [] reason := by
    intro reason
    simp [note, h, TrackRecord.fails, notesOf]
  refine ⟨by unfold Header.fits; decide, by unfold TrackRecord.fits; decide,
    by unfold TrackRecord.fits; decide, ?_, by decide, by simp [late, TrackRecord.fails], .ended,
    ?_, by decide, by decide +kernel⟩
  · rintro (_ | ⟨a, _ | ⟨b, as⟩⟩) r behind he <;> simp at he
    obtain ⟨rfl, -⟩ := he
    exact first
  · rintro (_ | ⟨a, _ | ⟨b, _ | ⟨c, as⟩⟩⟩) r behind he <;> simp at he
    · obtain ⟨rfl, -⟩ := he
      exact first
    · obtain ⟨rfl, rfl, -⟩ := he
      simp [TrackRecord.fails, h, note, marksOf]

theorem test_meets_SeekJumps :
    let loose := { staged with autoEnd := false }
    staged.clock.state ≠ .stopped ∧ State.reset.clock.state = .stopped ∧
      staged.autoEnd = true ∧ staged.turn.isSome = true ∧ staged.clock.endTime = some 5000 ∧
      staged.clock.position < 5000 ∧ loose.autoEnd = false ∧
      (2100 : BitVec 32).toNat = staged.clock.position ∧
      3599999 < (3600000 : BitVec 32).toNat := by decide +kernel

theorem test_meets_SyncSteersTheClock :
    staged.clock.state = .running ∧ State.reset.clock.state ≠ .running ∧
      staged.clock.slipWindow = 20 ∧
      ((2120 : Int) - staged.clock.position).natAbs ≤ staged.clock.slipWindow ∧
      staged.clock.slipWindow < ((2121 : Int) - staged.clock.position).natAbs := by decide +kernel

/-- Rows that each answer a next state run one after another. -/
theorem ran_after : ∀ (is : List Instr) (s : State),
    (∀ i ∈ is, ∀ s, ∃ u, exec i s = .next u) → Ran is s (is.foldl (fun s i => after i s) s)
  | [], _, _ => rfl
  | i :: is, s, h => by
    obtain ⟨u, hu⟩ := h i (by simp) s
    refine ⟨u, hu, ?_⟩
    have hs : after i s = u := by simp [after, hu]
    simpa [hs] using ran_after is u fun j hj => h j (by simp [hj])

/-- Nothing has run out in the test state, the quiet line and slot 2's stall timer among it. -/
theorem staged_upToDate : staged.upToDate := by
  exact ⟨nofun, nofun, by decide +kernel, by decide +kernel, nofun, nofun, by decide +kernel,
    by decide +kernel⟩

/-- A reply window, a stall timer, the score show and the word clock have run out. -/
def overdue : State :=
  { withExchange (.window 7 0) (staged.setSlot 2 { staged.slots[(2 : Fin 4)] with timer := 0 }) with
    lines := { staged.lines with scoreShow := some { headline := 1, left := 0 } }
    voice := { staged.voice with quiet := 50 } }

theorem test_meets_TicksAdvanceTheClock :
    (staged.clockAgrees ∧ (atPosition 3599999 staged).clockAgrees ∧ State.reset.clockAgrees ∧
      (atPosition 4999 staged).clockAgrees ∧
      4999 + (staged.clock.accumulator + staged.clock.tempo) / 1000 = 5000) ∧
    staged.upToDate ∧ ∃ t, Ran intervalRows overdue t ∧ t.upToDate := by
  refine ⟨⟨?_, ?_, ?_, ?_, by decide +kernel⟩, staged_upToDate, _, ran_after _ _ ?_, ?_⟩
  iterate 4 · unfold State.clockAgrees; decide +kernel
  · intro i hi s
    simp only [intervalRows, slotNumbers, List.map, List.cons_append, List.nil_append,
      List.mem_cons, List.not_mem_nil, or_false] at hi
    rcases hi with rfl | rfl | rfl | rfl | rfl | rfl | rfl | rfl | rfl | rfl | rfl | rfl | rfl |
      rfl | rfl | rfl | rfl | rfl | rfl | rfl <;> exact ⟨_, rfl⟩
  · generalize h : intervalRows.foldl (fun s i => after i s) overdue = t
    have h1 : t.loop.exchange = .toPoll 1 ∧ t.loop.phase = .sweep ∧ t.lines.scoreShow = none ∧
        t.font.store = .scanning ∧ t.video.path = .noInput ∧ t.voice.audio = .lost ∧
        ∀ i : Fin 4, t.slots[i].state = .loading ∨ t.slots[i].state = .checking ∨
          t.slots[i].state = .scrub → t.slots[i].timer ≠ 0 := by
      rw [← h]; decide +kernel
    obtain ⟨hx, hp, hs, hf, hv, ha, ht⟩ := h1
    exact ⟨by simp [hx], by simp [hx], by simp [hp], ht, by simp [hs], by simp [hf], by simp [hv],
      by simp [ha]⟩

/-- An open note of channel 0, tallied by a jump; the same note's end at the advance to 2560, and no
note's end at the advance to 2101. -/
theorem test_meets_TalliesFollowTheClock :
    let s := atPosition 2559 staged
    let c := staged.voice.channels[(0 : Fin 4)]
    c.enabled = true ∧ c.frozen = false ∧ c.openNote = some ⟨0, 2, 1⟩ ∧
      staged.noteMark 0 0 = none ∧ 0 < (staged.slots[(3 : Fin 4)].tallied[(0 : Fin 4)]).length ∧
      staged.canTake (.seek .playback 3599999) = true ∧
      staged.canTake (.sync .playback 2121) = true ∧
      (2121 : BitVec 32).toNat ≠ staged.clock.position ∧
      staged.clock.slipWindow < ((2121 : Int) - staged.clock.position).natAbs ∧
      s.clock.state = .running ∧ s.clock.position < 3599999 ∧
      1000 ≤ s.clock.accumulator + s.clock.tempo ∧ s.clock.accumulator + s.clock.tempo < 2000 ∧
      s.clock.endTime ≠ some 2560 ∧
      ((s.partNotes 0).filter fun n => n.1.start + n.1.duration + s.voice.scoring.latency = 2560 ∧
        s.noteMark 0 n.2 = none) = [(⟨2000, 500, 57, .a⟩, 0)] ∧
      ∀ n ∈ staged.partNotes 0, n.1.start + n.1.duration + staged.voice.scoring.latency ≠ 2101 := by
  decide +kernel

theorem test_meets_EffectiveBandsFit :
    let l := { LineScheduler.reset with
      canvas := .hd720, titleRowsSetting := 2, lyricRows := 4, guideSetting := 512 }
    l.titleRowsSetting ≤ 2 ∧ l.guideSetting ≤ 512 ∧ l.guideSetting % 8 = 0 ∧ 2 ≤ l.lyricRows ∧
      l.lyricRows ≤ 4 := by decide

/-- The window of the placing clauses: three rows with lines 5, 6 and 7, row 0 in a state. -/
def rowsWith (st : LineState) (style : Style) : State :=
  { staged with lines := { staged.lines with
      style := style
      window := [⟨5, 0, st, false, false, [0x61]⟩, ⟨6, 1, .singing, false, false, []⟩,
        ⟨7, 2, .posted, false, false, []⟩] } }

/-- The rows of SCROLL empty, full with row 0 DONE and not; ALTERNATE's row empty, DONE and not; the
scroll time 0 and above; a scroll at its first and last latch, and the score show at its end. -/
theorem test_meets_LinesArePlacedAndScroll :
    let scrolling := fun done : Nat => ({ staged with lines := { staged.lines with
      scroll := some { total := 12, done := done }
      window := [⟨0, 0, .leaving, false, true, [0x51, 0x52]⟩,
        ⟨1, 0, .done, false, false, [0x53]⟩] } } : State)
    let shown := { staged with lines := { staged.lines with
      scoreShow := some { headline := 10000, left := 0 } } }
    let s := rowsWith .done .scroll
    (s.lines.scroll = none ∧ s.lines.pending = [] ∧ s.lines.layout.rows = 3 ∧
      (∀ w ∈ s.lines.window, w.state ≠ .leaving ∧ w.linger = false ∧ w.index ≠ 0 ∧
        w.row < s.lines.layout.rows ∧ (w.row = 0 → w.state = .done)) ∧
      (∀ r, r < s.lines.layout.rows → ∃ w ∈ s.lines.window, w.row = r) ∧
      0 < s.lines.scrollTime ∧
      (∀ w ∈ (rowsWith .posted .scroll).lines.window, w.row = 0 → w.state ≠ .done) ∧
      staged.lines.window = [] ∧ staged.lines.style = .scroll ∧ 0 < staged.lines.layout.rows ∧
      (∀ w ∈ s.lines.window, w.index = 5 ↔ w.row = 0) ∧ (∃ w ∈ s.lines.window, w.index = 5) ∧
      ∀ w ∈ s.lines.window, w.index = 6 → w.row ≠ 0) ∧
    (let a := (rowsWith .done .alternate).lines.window
     a = [] ++ ⟨5, 0, .done, false, false, [0x61]⟩ :: a.tail ∧
      (∀ y ∈ [] ++ a.tail, y.row ≠ 0 % 2 ∧ y.index ≠ 5) ∧
      (∀ w ∈ (rowsWith .done .alternate).lines.window.take 1, w.row ≠ 1 % 2)) ∧
    ((scrolling 11).lines.scroll = some { total := 12, done := 11 } ∧
      (scrolling 0).lines.holds 2 = false ∧ 0 + 1 < 12 ∧ (scrolling 11).lines.rebuild = false ∧
      (scrolling 11).lines.stepTwoMade = false ∧ (scrolling 11).lines.pending = [] ∧
      (∀ x ∈ (scrolling 11).lines.window, x.state ≠ .leaving → x.row = 0 → x.linger = false) ∧
      shown.lines.scoreShow = some { headline := 10000, left := 0 }) ∧
    staged.lines.rebuild = false ∧ staged.turn.isSome = true ∧ staged.clock.state = .running ∧
      1000 ≤ staged.clock.accumulator + staged.clock.tempo := by decide +kernel

/-- Counts at 255, the last value that the latch's clauses on them admit, and below it. -/
theorem test_meets_FrameLatchCapturesTheOverlay :
    let full := { staged.video with glyphLate := 255, lineClipped := 255 }
    full.glyphLate ≤ 255 ∧ full.lineClipped ≤ 255 ∧ staged.video.glyphLate < 255 ∧
      staged.video.lineClipped < 255 := by decide +kernel

theorem test_meets_RebuildShowsTheLinesDue :
    let s := { staged with lines := { staged.lines with rebuild := true } }
    s.lines.rebuild = true ∧ s.turn.isSome = true ∧
      s.slots[(3 : Fin 4)].track = some track := by decide +kernel

/-- A cache whose entry 639 is FREE and entry 0 holds a code, fetching and not begun. -/
def queued : Cache :=
  { Cache.reset with
    entries := { CacheEntry.empty with code := some 7, state := .fetching .demand, pins := 1 } ::
      List.replicate 639 CacheEntry.empty
    recency := [0], fetchOrder := [0] }

theorem queued_entry (i : Nat) (h : i ≠ 0) : queued.entry i = CacheEntry.empty := by
  obtain ⟨j, rfl⟩ := Nat.exists_eq_succ_of_ne_zero h
  change (List.replicate 639 CacheEntry.empty).getD j CacheEntry.empty = CacheEntry.empty
  rw [List.getD_eq_getElem?_getD, List.getElem?_replicate]
  split <;> rfl

theorem test_meets_CacheStaysInOrder :
    ({ staged with cache := queued } : State).cacheAgrees ∧
      ∃ t, step { staged with cache := queued } = .next t := by
  refine ⟨⟨by decide +kernel, ?_, by decide +kernel, by decide, ?_, by decide, ?_, nofun,
    by decide +kernel⟩, _, rfl⟩
  · intro i j k _ _ hi hj
    change (queued.entry i).code = some k at hi
    change (queued.entry j).code = some k at hj
    by_cases h : i = 0 <;> by_cases h' : j = 0
    · omega
    · rw [queued_entry j h'] at hj; cases hj
    · rw [queued_entry i h] at hi; cases hi
    · rw [queued_entry i h] at hi; cases hi
  · intro i
    change i ∈ [0] ↔ i < 640 ∧ (queued.entry i).state ≠ .free
    by_cases h : i = 0
    · subst h; decide +kernel
    · simp [queued_entry i h, h, CacheEntry.empty]
  · intro i
    change i ∈ [0] ↔ i < 640 ∧ (queued.entry i).isFetching = true
    by_cases h : i = 0
    · subst h; decide +kernel
    · simp [queued_entry i h, h, CacheEntry.empty, CacheEntry.isFetching]

theorem test_meets_ChannelCountsStayInOrder :
    staged.channelsAgree ∧ ∃ t, step staged = .next t := by
  refine ⟨fun m => ?_, _, rfl⟩
  have h : ∀ m : Fin 4, let c := staged.voice.channels[m]
      (c.hits ≤ c.judged ∧ c.judged ≤ 65535 ∧ (c.judged = 65535 → c.frozen = true) ∧
        c.kept ≤ c.notes ∧ c.strays ≤ 65535 ∧ c.hitRun ≤ 2 ∧ c.missRun ≤ 16 ∧ c.lockCount ≤ 255 ∧
        (c.lock = .locked → 0 < c.lockCount)) ∧
      c.openNote.all (fun o => decide (o.h ≤ o.a ∧ o.a ≤ c.judged)) = true := by decide +kernel
  obtain ⟨⟨h1, h2, h3, h4, h5, h6, h7, h8, h9⟩, h10⟩ := h m
  exact ⟨h1, h2, h3, h4, h5, h6, h7, h8, h9, of_all h10⟩

theorem test_meets_CacheLookupsTakeAndKeepEntries :
    queued.entries.length = 640 ∧ queued.find 7 = some 0 ∧ (queued.entry 0).pins = 1 ∧
      queued.inProgress ≠ some 0 ∧ queued.find 8 = none ∧ (queued.entry 1).state = .free ∧
      (queued.entry 0).state ≠ .free := by decide +kernel

/-- The last pin of a RESIDENT entry and of a fetch in progress. -/
theorem test_meets_CacheLookupsTakeAndKeepEntries_last_pin :
    let resident := queued.setEntry 0 { queued.entry 0 with
      state := .resident, bitmap := some substituteBitmap }
    let begun := { queued with inProgress := some 0 }
    resident.find 7 = some 0 ∧ (resident.entry 0).pins = 1 ∧
      (resident.entry 0).isFetching = false ∧ begun.find 7 = some 0 ∧
      (begun.entry 0).pins = 1 ∧ begun.inProgress = some 0 := by decide +kernel

theorem test_meets_GlyphFetchesAreServed :
    let h : FontHeader := ⟨8, 100, 4⟩
    let s := { staged with
      cache := queued, font := { FontPort.reset with store := .ready, header := some h }
      video := { Compositor.reset with power := .active } }
    let t := after .glyphFetchStart s
    s.cache.inProgress = none ∧ s.font.maintWanted = false ∧ s.cache.fetchOrder = [] ++ 0 :: [] ∧
      (s.cache.entry 0).state = .fetching .demand ∧ t.cache.inProgress = some 0 ∧
      (s.cache.entry 0).code = some 7 ∧ s.font.header = some h ∧ (7 : Code).toNat < h.glyphCount ∧
      (t.cache.entry 0).code = some 7 ∧ t.font.header = some h := by decide +kernel

/-- A fetch of code 7 by a header of 7 glyphs reads nothing and completes at once (R129). -/
theorem test_fetch_above_the_glyph_count_completes_at_once :
    let s := { staged with
      cache := queued, font := { FontPort.reset with store := .ready, header := some ⟨7, 100, 4⟩ }
      video := { Compositor.reset with power := .active } }
    let t := after .glyphFetchStart s
    t.cache.inProgress = none ∧ t.cache.fetchOrder = [] ∧ (t.cache.entry 0).state = .resident ∧
      (t.cache.entry 0).substitute = true ∧ (t.cache.entry 0).pins = 1 := by decide +kernel

/-- The bytes of a valid font header: one glyph, table at 4,193,916 = 4 MiB − 388. -/
def font : List Host.Cell :=
  [(0, 0x55), (1, 0x46), (2, 0x46), (3, 0x4E), (4, 1), (5, 4), (6, 0), (7, 1), (8, 0), (9, 0x3F),
    (10, 0xFE), (11, 0x7C)]

theorem test_meets_ScansFindTheFont :
    let s := { State.reset with flash := font }
    s.font.store = .scanning ∧ (after .fontScanComplete s).font.store = .ready ∧
      (after .fontScanComplete State.reset).font.store = .absent ∧ s.cache.recency.Nodup := by
  decide +kernel

theorem test_meets_MaintenanceIsEnteredAndLeft :
    let fetching := { withStore .ready State.reset with cache := { queued with inProgress := some 0 } }
    let waiting := after (.fontMaintBegin .venue) fetching
    fetching.canTake (.fontMaintBegin .venue) = true ∧ fetching.cache.inProgress.isSome = true ∧
      waiting.font.maintWanted = true ∧ waiting.canTake (.fontMaintBegin .venue) = true ∧
      ({ waiting with cache := { waiting.cache with inProgress := none } } : State).cache.inProgress =
        none ∧ (withStore .maintenance State.reset).canTake (.fontProtect .venue 3) = true ∧
      (withStore (.busy (.erase 0) 0) State.reset).canTake (.fontMaintEnd .venue) = true := by
  decide +kernel

/-- In MAINTENANCE with the latch clear and set, guarded and not, and the first bytes out of range. -/
theorem test_meets_FlashOperationsAreCheckedAndEnd :
    let s := withStore .maintenance State.reset
    let ready := { s with font := { s.font with latch := true } }
    let busy := withStore (.busy (.program 255 [0]) 5000) State.reset
    s.canTake (.fontProgram .venue 0 [0]) = true ∧ s.font.latch = false ∧
      ready.font.protection = .none ∧
      ({ ready with font := { ready.font with protection := .all } } : State).canTake
        (.fontErase .venue 16383) = true ∧
      s.font.addressLimit = 67108864 ∧ 16384 * 4096 = s.font.addressLimit ∧
      255 / 256 = (255 + 1 - 1) / 256 ∧ 255 / 256 ≠ (255 + 2 - 1) / 256 ∧
      busy.font.store = .busy (.program 255 [0]) 5000 ∧ busy.flashCanonical := by
  unfold State.flashCanonical; decide +kernel

theorem test_meets_VideoPathFollowsTheInput :
    let m : FrameMeasure := ⟨true, 1280, 720, true, 2040⟩
    let s := after (.inputFrameStart m) (after (.inputFrameStart m) State.reset)
    let locked := after (.inputFrameStart m) s
    State.reset.video.frameUnderWay = false ∧ s.video.frameUnderWay = true ∧
      s.video.runCount = 1 ∧ locked.video.path = .locked ∧
      locked.video.locked = some .f720p50 ∧
      FrameMeasure.classify { m with period := 2041 } = .unsupported ∧
      ({ locked.video with inputQuiet := 100 } : Compositor).path ≠ .noInput ∧
      State.reset.video.path = .noInput ∧ s.video.inputQuiet < 100 := by decide +kernel

/-- Each band keyed and not, at pixels on both sides of its edges; a glyph and a marker at a pixel; a
guide band with notes, a voiced frame and a score to show. -/
theorem test_meets_GuideBandAndPixelsAreExact :
    let f := { State.reset.capture with keyed := some ⟨true, true, true⟩ }
    let lay := f.layout
    let shown := { staged with
      lines := { staged.lines with scoreShow := some { headline := 10000, left := 1 } }
      voice := { staged.voice with channels := staged.voice.channels.set 0 {
        staged.voice.channels[(0 : Fin 4)] with lastFrame := some { pitch := some 456, at_ := 0 } } } }
    (lay.titleRows = 1 ∧ lay.lyricTop = 720 ∧ lay.rows = 3 ∧ lay.guideTop = 888 ∧ lay.guide = 160 ∧
      64 < lay.width - 64 ∧ f.fillContent = false ∧ f.planeOpacity ≤ 16 ∧ f.shadeOpacity ≤ 16 ∧
      f.lyricGlyphs = [] ∧ f.titleGlyphs = [] ∧ f.guideGlyphs = [] ∧ f.bars = []) ∧
    (shown.lines.layout.guide ≠ 0 ∧ 48 ≤ shown.lines.layout.guide ∧ shown.lines.rebuild = false ∧
      shown.lines.scroll = none ∧ shown.clock.interlude = .outside ∧
      (∃ n ∈ track.notes, n.number = 57) ∧ (∃ n ∈ track.notes, n.number = 60) ∧
      (∀ n ∈ track.notes, 57 ≤ n.number ∧ n.number ≤ 60) ∧
      shown.slots[(3 : Fin 4)].track = some track ∧ shown.capture.bars.length = 3 ∧
      shown.capture.markers.length = 1 ∧ shown.capture.guideGlyphs.length = 6) ∧
    ∀ k, shown.cache.find k = none := by
  refine ⟨by decide +kernel, by decide +kernel, fun k => ?_⟩
  refine List.findIdx?_eq_none_iff.2 fun e he => ?_
  rw [List.eq_of_mem_replicate (show e ∈ List.replicate 640 CacheEntry.empty from he)]
  rfl

theorem test_meets_AudioStateFollowsTheWordClock :
    let quiet := { staged with voice := { staged.voice with quiet := 50 } }
    quiet.voice.frame.length < 960 ∧ quiet.voice.audio = .present ∧ quiet.voice.tone = none ∧
      State.reset.voice.audio = .lost ∧ State.reset.voice.tone = none := by decide +kernel

/-- A square wave of 200 samples a period, at the gate's own level, is voiced. -/
theorem test_meets_PitchIsExact :
    (detect 400 ((List.range 960).map fun i => if i % 200 < 100 then -400 else 400)).isSome = true ∧
      detect 401 ((List.range 960).map fun i => if i % 200 < 100 then -400 else 400) = none := by
  decide +kernel

/-- 960 samples of silence complete: a MISS of note 0 at t = 2040, its grace's end, note 1 open or note
0; the boundary of the STRAY clause is a position between notes; the last judgement before saturation. -/
theorem test_meets_VoiceFramesAreJudged :
    let full := { staged with voice := { staged.voice with
      frame := List.replicate 960 #v[0, 0, 0, 0] } }
    let c := full.voice.channels[(0 : Fin 4)]
    960 ≤ full.voice.frame.length ∧ c.enabled = true ∧ c.frozen = false ∧
      full.clock.state = .running ∧ full.voice.scoring.latency = 60 ∧
      full.clock.position - 60 = 2040 ∧
      full.partNotes 0 = track.notes.zipIdx ∧ full.noteMark 0 0 = none ∧
      c.openNote = some ⟨0, 2, 1⟩ ∧ c.judged < 65534 ∧ c.hits ≤ c.judged ∧
      full.noteMark 0 1 = none ∧ 1 < (full.slots[(3 : Fin 4)].tallied[(0 : Fin 4)]).length ∧
      (∀ n ∈ (atPosition 2560 full).partNotes 0,
        ¬ (n.1.start ≤ 2500 ∧ 2500 < n.1.start + n.1.duration)) := by decide +kernel

/-- The part on stage with an open note on channel 0, its counts a and h, and a mark for another note. -/
def noteOpen (a h : Nat) : State :=
  (atPosition 2500 { staged with voice := { staged.voice with
    channels := staged.voice.channels.set 0 { staged.voice.channels[(0 : Fin 4)] with
      openNote := some { index := 0, a := a, h := h } } } }).setMark 0 1 .kept

/-- A turn with and without an open note, its end just at and just above the new judgement time, a note
with a mark already, a channel off, and the refusals' edges. -/
theorem test_meets_MicsAndScoringAreSet :
    let s := noteOpen 3 2
    let c := s.voice.channels[(0 : Fin 4)]
    let scored := fun s => after (.setScoring .venue 0 0 0 0 0 0 1 0) s
    let parted := after (.setPart .console 0 1) s
    s.turn.isSome = true ∧ c.enabled = true ∧ c.frozen = false ∧ c.part = .a ∧
      c.openNote = some { index := 0, a := 3, h := 2 } ∧
      s.noteMark 0 0 = none ∧ 0 < (s.slots[(3 : Fin 4)].tallied[0]).length ∧
      (s.stageTrack.bind fun t => t.notes[0]?).map (fun n => n.start + n.duration) = some 2500 ∧
      s.clock.position = 2500 ∧ (s.canTake (.setScoring .venue 0 0 0 0 0 0 1 0) = true) ∧
      (scored s).noteMark 0 0 = some .kept ∧ (scored s).noteMark 0 1 = some .kept ∧
      ((scored s).voice.channels[(0 : Fin 4)]).kept = c.kept + 1 ∧
      (scored (noteOpen 3 1)).noteMark 0 0 = some .counted ∧
      (scored (noteOpen 0 0)).noteMark 0 0 = some .empty ∧
      (scored (atPosition 2499 s)).noteMark 0 0 = none ∧
      s.canTake (.setPart .console 0 1) = true ∧ parted.noteMark 0 0 = some .kept ∧
      s.canTake (.setMicEnable .console 0 1) = true ∧
      (after (.setMicEnable .console 0 1) s).noteMark 0 0 = some .kept ∧
      s.canTake (.setMicColour .venue 3 0) = true := by decide +kernel

theorem test_meets_ToneChecksRunFiftyFrames :
    let quiet := { State.reset with voice := { Voice.reset with audio := .present } }
    let begun := after (.toneCheck .console 3 96) quiet
    let t : ToneCheck := ⟨3, 96, 49, 49, 0, some 48000⟩
    let last := { quiet with voice := { quiet.voice with
      tone := some t, frame := List.replicate 960 #v[0, 0, 0, 0] } }
    begun.voice.tone = some ⟨3, 96, 0, 0, 0, none⟩ ∧ begun.voice.audio = .present ∧
      begun.voice.frame.length < 960 ∧ 960 ≤ last.voice.frame.length ∧
      last.voice.tone = some t ∧ t.made ≠ none ∧ t.done = 49 ∧
      ({ t with done := 48 } : ToneCheck).done < 49 ∧ ({ t with made := none } : ToneCheck).made =
        none := by decide +kernel

theorem test_meets_ScoresAndBestListAreExact :
    let c := { Channel.reset .a 0 with judged := 1500, hits := 1500, notes := 120, kept := 0 }
    c.hits ≤ c.judged ∧ c.kept ≤ c.notes ∧
      0 < Voice.reset.scoring.pitchWeight + Voice.reset.scoring.noteWeight ∧
      (staged.resultOf ⟨9, 19, 3, 5, .normal, none, 0, TurnFlags.clear⟩ .complete).headline =
        none ∧
      headlineOf [0, 10000, 10000] = some 6667 := by decide +kernel

theorem test_meets_ResultsAreTakenAndCleared :
    let s := after (.endTurn .playback 9 0) staged
    s.canTake (.resultTake .venue 9) = true ∧ (∃ r ∈ s.ring, r.ticket = 9) ∧
      (s.ring.find? fun r => r.ticket = 9).isSome = true := by decide +kernel

theorem test_meets_NoticesAreTakenInPriority :
    let s := after (.noticeMask .playback 1)
      (after (.sessionReset .venue) (booked.raise [.playback] (.call 1 0)))
    let q := s.port .playback
    q.notices[(0 : Fin 16)] = some .sessionReset ∧ q.mask.getLsb (0 : Fin 16) = true ∧
      (State.reset.port .venue).notices[(15 : Fin 16)] = none ∧
      (booked.raise [.playback] (.call 1 0)).canTake (.noticeTake .playback) = true := by
  decide +kernel

/-- A frame in two pieces, a read in two pieces, a wrong kind byte, and codes at the ends of the table. -/
theorem test_meets_PortTransactionsAreTaken :
    let first := after (.writeTransaction .console true [0x01, 0x4B] false) State.reset
    let begun := after (.writeTransaction .console true [0x02] false) State.reset
    let wrong := after (.writeTransaction .console true [0x03, 0x4B] true) State.reset
    let held := after (.ident .venue) State.reset
    let half := after (.writeTransaction .console true [0x02, 0] false)
      (after (.ident .console) State.reset)
    (State.reset.port .console).link = .ready ∧ (first.port .console).link = .receiving ∧
      commandOf .console ⟨0x4B, []⟩ = some (.ident .console) ∧ permitted 0x4B .console = true ∧
      commandOf .venue ⟨0x4C, [0]⟩ = none ∧ permitted 0x4C .console = false ∧
      76 < (0x4D : Byte).toNat ∧ (begun.port .console).reading = some ⟨[0], false⟩ ∧
      (held.port .venue).replyWaiting = true ∧ (half.port .console).replyWaiting = true ∧
      (half.port .console).shifted = [3, 0x4B] ∧
      ((after (.writeTransaction .console false [0, 0, 0, 0, 0, 0, 0] false) half).port
        .console).replyWaiting = false ∧
      ((after (.writeTransaction .console false [0] true) half).port .console).replyWaiting =
        false ∧
      ((after (.writeTransaction .console true [0x03] true) half).port .console).replyWaiting =
        false ∧ half.canTake (.ident .console) = false ∧
      (wrong.port .console).discarded = true ∧ (wrong.port .console).link ≠ .receiving := by
  decide +kernel

/-- Each read is taken; entries beyond the Book's end; a slot with a track and without; a code held and
not; a record by ticket, by age, and beyond the ring. -/
theorem test_meets_ReadsChangeNothing :
    let s := after (.endTurn .playback 9 0) staged
    ([.bookPolicyRead .playback, .bookRead .playback 0 1, .bookRead .venue 3 8, .bookRead .venue 33 9,
      .panelRead .console, .stageRead .venue, .slotRead .venue, .slotDetail .venue 3,
      .slotDetail .venue 4, .clockRead .console, .lineWindowRead .playback, .cacheStatus .console,
      .glyphQuery .console 7, .fontStatus .venue, .displayStatus .playback, .voiceRead .playback,
      .bestRead .playback, .ident .venue, .resultRead .console 2 0, .resultRead .console 1 16,
      .resultRead .console 1 15, .resultRead .console 0 0, .resultRead .venue 0 9,
      .resultRead .venue 1 0] : List Instr).all staged.canTake = true ∧
    s.canTake (.resultRead .venue 0 9) = true ∧ s.ring.reverse[0]?.map (·.ticket) = some 9 ∧
      staged.slots[(3 : Fin 4)].track.isSome = true ∧ booked.slots[(3 : Fin 4)].track = none ∧
      queued.entries[0]?.bind (·.code) = some 7 ∧ queued.recency[0]? = some 0 ∧
      queued.recency.Nodup ∧ ∀ e ∈ queued.entries, e.code ≠ some 8 := by
  decide +kernel

end Sys2Proof.Tests
end

section
/-! Insertion in ARRIVAL mode (R6): what an acceptance leaves of the running order, and the two
commands, ENQUEUE and a panel's REQUEST, that reach it. -/

namespace Sys2Proof.Machine

/-! ## The entry of an acceptance and its place -/

/-- The entry that an acceptance makes (R14). -/
def State.requestedEntry (s : State) (who : Requester) (song : Nat) (tier : Tier)
    (tag : Option Nat) : Entry :=
  { ticket := s.issueTicket, songId := song, origin := who.origin, tier := tier
    round := s.book.newRound who.origin tier, tag := tag, acceptedAt := s.sessionTime
    moved := false, state := .waiting }

/-- The entry depends on the Book, the session time and the turn, whose ticket is held (R2). -/
theorem requestedEntry_congr {s t : State} (hb : t.book = s.book)
    (ht : t.sessionTime = s.sessionTime) (hs : t.turn = s.turn) (who : Requester) (song : Nat)
    (tier : Tier) (tag : Option Nat) :
    t.requestedEntry who song tier tag = s.requestedEntry who song tier tag := by
  simp only [State.requestedEntry, State.issueTicket, State.onStage, hb, ht, hs]

theorem inserted_normal_of_arrival {b : Book} {e : Entry} (hm : b.mode = .arrival)
    (ht : e.tier = .normal) : b.inserted e = b.entries ++ [e] := by
  simp only [Book.inserted, ht, hm]

/-- The call that may follow an acceptance leaves the running order as the insertion made it. -/
theorem acceptRequest_order (s : State) (who : Requester) (song : Nat) (tier : Tier)
    (tag : Option Nat) :
    (s.acceptRequest who song tier tag).1.book.order =
      (s.book.inserted (s.requestedEntry who song tier tag)).map
        fun e => { e with state := .waiting } :=
  (bookChanged_book _).1

theorem acceptRequest_order_of_arrival {s : State} (hm : s.book.mode = .arrival)
    (who : Requester) (song : Nat) (tag : Option Nat) :
    (s.acceptRequest who song .normal tag).1.book.order =
      s.book.order ++ [s.requestedEntry who song .normal tag] := by
  rw [acceptRequest_order, inserted_normal_of_arrival hm rfl, List.map_append]
  rfl

/-- The checks read only the Book and the session time (R10). -/
theorem refusal_congr {s t : State} (hb : t.book = s.book) (ht : t.sessionTime = s.sessionTime)
    (who : Requester) (song : Nat) (tier : Tier) :
    t.refusal who song tier = s.refusal who song tier := by
  simp only [State.refusal, hb, ht]

/-! ## ENQUEUE -/

/-- A client command that can be taken goes on to its block, behind the port's acceptance. -/
theorem clientCommand_of_canTake {i : Instr} {s : State} (hc : s.canTake i = true)
    (block : State → Taken) :
    ∃ p f, clientCommand i s block =
      .next ((block (s.accept p f)).state.reply p f.code (block (s.accept p f)).result
        (block (s.accept p f)).data) := by
  unfold State.canTake at hc
  split at hc
  next p f hf =>
    obtain ⟨ha, hp⟩ := Bool.and_eq_true_iff.mp hc
    exact ⟨p, f, by rw [clientCommand_eq hf, command_taken block ha hp]⟩
  next => cases hc

/-- ENQUEUE of tier NORMAL, on either port, is an acceptance where no check refuses it (R15). -/
theorem enqueueBlock_normal_accepted {s : State} {p : Port} {song : Nat} {tier : Byte}
    {tag : OptionalByte} {o : Fin 10} {g : Option Nat} (ho : portOrigin p = some o)
    (ht : tierOf tier = some .normal) (hg : tagOf tag = some g)
    (hr : s.refusal (.port o) song .normal = none) :
    (enqueueBlock p song tier tag s).state = (s.acceptRequest (.port o) song .normal g).1 := by
  simp [enqueueBlock, ho, ht, hg, hr]

theorem exec_enqueue (p : Port) (song : BitVec 24) (tier : Byte) (tag : OptionalByte)
    (s : State) : exec (.enqueue p song tier tag) s =
      clientCommand (.enqueue p song tier tag) s (enqueueBlock p song.toNat tier tag) := rfl

theorem enqueue_appends_of_arrival {s : State} {p : Port} {song : BitVec 24}
    {tag : OptionalByte} {o : Fin 10} {g : Option Nat}
    (hc : s.canTake (.enqueue p song 0 tag) = true) (ho : portOrigin p = some o)
    (hg : tagOf tag = some g) (hr : s.refusal (.port o) song.toNat .normal = none)
    (hm : s.book.mode = .arrival) :
    ∃ u, exec (.enqueue p song 0 tag) s = .next u ∧
      u.book.order = s.book.order ++ [s.requestedEntry (.port o) song.toNat .normal g] := by
  obtain ⟨q, f, hrun⟩ := clientCommand_of_canTake hc (enqueueBlock p song.toNat 0 tag)
  have hr' : (s.accept q f).refusal (.port o) song.toNat .normal = none := hr
  rw [enqueueBlock_normal_accepted ho rfl hg hr'] at hrun
  exact ⟨_, (exec_enqueue p song 0 tag s).trans hrun,
    acceptRequest_order_of_arrival (s := s.accept q f) hm _ _ _⟩

/-! ## A panel's REQUEST -/

theorem goodReply_book (s : State) (p : Fin 8) : (s.goodReply p).book = s.book :=
  goodReply_touches s p .book (by decide)

theorem goodReply_sessionTime (s : State) (p : Fin 8) :
    (s.goodReply p).sessionTime = s.sessionTime :=
  goodReply_touches s p .sessionTime (by decide)

theorem goodReply_turn (s : State) (p : Fin 8) : (s.goodReply p).turn = s.turn :=
  goodReply_touches s p .turn (by decide)

theorem raise_loop (s : State) (ps : List Port) (n : Notice) : (s.raise ps n).loop = s.loop :=
  raise_touches s ps n .loop (by decide)

/-- A good reply leaves the panel's stored verdict, by which a repeat is known (R35). -/
theorem goodReply_repeated (s : State) (p : Fin 8) (seq : BitVec 4) :
    (s.goodReply p).repeated p seq = s.repeated p seq := by
  have stored : (s.goodReply p).loop.panels[p].stored = s.loop.panels[p].stored := by
    unfold State.goodReply
    simp only
    split
    · simp [State.setPresence, raise_loop, Loop.setPanel]
    · simp [Loop.setPanel]
  simp only [State.repeated, stored]

/-- Storing and owing the verdict leave the Book as the Book's own decision made it (R31). -/
theorem adjudicate_book_of_new {s : State} {p : Fin 8} {seq : BitVec 4}
    (hn : s.repeated p seq = none) (decision : State → State × Verdict) :
    (s.adjudicate p seq decision).book = (decision s).1.book := by
  simp [State.adjudicate, hn, State.storeVerdict, State.owe]

theorem panelRequest_accepted {s : State} {p : Fin 8} {song : Nat}
    (hr : s.refusal (.panel p) song .normal = none) (tag : Option Nat) :
    (s.panelRequest p song tag).1 = (s.acceptRequest (.panel p) song .normal tag).1 := by
  simp [State.panelRequest, hr]

theorem exec_request_of_replyDue {s : State} {p : Fin 8} {seq : Byte} {song : BitVec 24}
    {tag : Byte}
    (hd : s.replyDue p (replyFrame p 0x11 seq (be24 song.toNat ++ [tag])) = true) :
    exec (.request p seq song tag) s =
      .next ((s.goodReply p).adjudicate p (seqOf seq) fun t =>
        t.panelRequest p song.toNat (panelTag tag)) :=
  if_pos hd

theorem request_appends_of_arrival {s : State} {p : Fin 8} {seq : Byte} {song : BitVec 24}
    {tag : Byte} (hd : s.replyDue p (replyFrame p 0x11 seq (be24 song.toNat ++ [tag])) = true)
    (hn : s.repeated p (seqOf seq) = none)
    (hr : s.refusal (.panel p) song.toNat .normal = none) (hm : s.book.mode = .arrival) :
    ∃ u, exec (.request p seq song tag) s = .next u ∧ u.book.order = s.book.order ++
      [s.requestedEntry (.panel p) song.toNat .normal (panelTag tag)] := by
  have hb := goodReply_book s p
  have ht := goodReply_sessionTime s p
  have hn' : (s.goodReply p).repeated p (seqOf seq) = none :=
    (goodReply_repeated s p _).trans hn
  have hr' : (s.goodReply p).refusal (.panel p) song.toNat .normal = none :=
    (refusal_congr hb ht _ _ _).trans hr
  refine ⟨_, exec_request_of_replyDue hd, ?_⟩
  rw [adjudicate_book_of_new hn', panelRequest_accepted hr',
    acceptRequest_order_of_arrival (by rw [hb, hm]),
    requestedEntry_congr hb ht (goodReply_turn s p), hb]

/-- Settles O15: the insertion by its case of `Book.inserted`, and both commands because they come
to `acceptRequest`, whose following call leaves the running order. -/
theorem arrivalInsertionAppends : Obligations.ArrivalInsertionAppends := by
  refine ⟨fun b e => inserted_normal_of_arrival, ?_, ?_⟩
  · intro s p song tag o g hc ho hg hr hm
    obtain ⟨u, hrun, horder⟩ := enqueue_appends_of_arrival hc ho hg hr hm
    exact ⟨u, _, hrun, horder, rfl, rfl, rfl, rfl⟩
  · intro s p seq song tag hd hn hr hm
    obtain ⟨u, hrun, horder⟩ := request_appends_of_arrival hd hn hr hm
    exact ⟨u, _, hrun, horder, rfl, rfl, rfl⟩

end Sys2Proof.Machine
end

section
/-! The slip window (R93): its setting, what it decides of a SYNC (R91, R92), and what the two
resets make of it. -/

namespace Sys2Proof.Machine

/-! ## SET-SLIP-WINDOW -/

/-- A setting whose range begins at 0 can only be too large. -/
theorem clampNat_zero_left (hi n : Nat) : clampNat 0 hi n = min n hi := Nat.zero_max _

theorem okCode_outside_zero_left (hi n : Nat) :
    okCode (outside 0 hi n) = if n ≤ hi then .ok else .okClamped := by
  by_cases h : n ≤ hi
  · simp [okCode, outside, h]
  · simp [okCode, outside, h, Nat.lt_of_not_le h]

/-- SET-SLIP-WINDOW at the Song Clock (R93). -/
def setSlipWindowBlock (window : Nat) (s : State) : Taken :=
  { state := s.mapClock fun c => { c with slipWindow := clampNat 0 200 window }
    result := okCode (outside 0 200 window), data := [] }

theorem exec_setSlipWindow (p : Port) (x : BitVec 16) (s : State) :
    exec (.setSlipWindow p x) s =
      clientCommand (.setSlipWindow p x) s (setSlipWindowBlock x.toNat) := rfl

theorem setSlipWindow_runs {s : State} {p : Port} {x : BitVec 16}
    (hc : s.canTake (.setSlipWindow p x) = true) :
    ∃ u, Runs (.setSlipWindow p x) [.clock] (if x.toNat ≤ 200 then .ok else .okClamped) [] s u ∧
      u.clock = { s.clock with slipWindow := min x.toNat 200 } := by
  have hruns := runs_of (setSlipWindowBlock x.toNat) rfl (exec_setSlipWindow p x s) hc
    (clock_touches _ _) (by decide)
  rw [← okCode_outside_zero_left, ← clampNat_zero_left]
  exact ⟨_, hruns, rfl⟩

/-! ## SYNC -/

theorem passEnd_of_autoEnd_off {s : State} (h : s.autoEnd = false) (old new : Nat) :
    s.passEnd old new = s := by
  unfold State.passEnd
  split
  · simp [h]
  · rfl

/-- With auto-end off a jump ends no turn, so the clock stands where it was put (R90). -/
theorem jump_position_of_autoEnd_off {s : State} (h : s.autoEnd = false) (x : Nat) :
    (s.jump x).clock.position = x := by
  unfold State.jump
  simp only
  rw [passEnd_of_autoEnd_off, tallyAllOpen_touches _ .clock (by decide),
    requestRebuild_touches _ .clock (by decide)]
  rw [tallyAllOpen_touches _ .autoEnd (by decide), requestRebuild_touches _ .autoEnd (by decide)]
  exact (flagTurn_touches s _ .autoEnd (by decide)).trans h

theorem slip_position_of_autoEnd_off {s : State} (h : s.autoEnd = false) (x : Nat) :
    (s.slip x).clock.position = x := by
  unfold State.slip
  simp only
  rw [jump_position_of_autoEnd_off]
  rw [raise_touches _ _ _ .autoEnd (by decide), flagTurn_touches _ _ .autoEnd (by decide), h]

theorem syncBlock_of_running {s : State} {x : Nat} (hrun : s.clock.state = .running)
    (hx : x ≤ Config.songLimit) :
    (syncBlock x s).state =
      let t := s.mapClock fun c => { c with lastSync := some (s.clock.difference x) }
      if (s.clock.difference x).natAbs ≤ s.clock.slipWindow then t else t.slip x := by
  rw [syncBlock, if_neg (Nat.not_lt.mpr hx), if_neg (not_not_intro hrun)]
  simp only [apply_ite Taken.state, readOk]

/-- A SYNC taken in RUNNING leaves the position alone within the window and jumps beyond it (R91,
R92); a position equal to the clock's own is always within the window. -/
theorem syncBlock_position_eq_iff {s : State} {x : Nat} (hrun : s.clock.state = .running)
    (hx : x ≤ Config.songLimit) (ha : s.autoEnd = false) :
    (syncBlock x s).state.clock.position = s.clock.position ↔
      ((x : Int) - s.clock.position).natAbs ≤ s.clock.slipWindow := by
  change _ ↔ (s.clock.difference x).natAbs ≤ _
  rw [syncBlock_of_running hrun hx]
  simp only
  split
  next within => exact iff_of_true rfl within
  next beyond =>
    rw [slip_position_of_autoEnd_off ((State.mapClock_autoEnd s _).trans ha)]
    refine iff_of_false (fun heq => beyond ?_) beyond
    simp [Clock.difference, heq]

theorem exec_sync (p : Port) (x : BitVec 32) (s : State) :
    exec (.sync p x) s = clientCommand (.sync p x) s (syncBlock x.toNat) := rfl

/-! ## The resets -/

/-- A session reset stops the clock; the title band and the notices, which come after, leave it
(R100, R192). -/
theorem resetBlocks_resetNotices_clock (s : State) :
    s.resetBlocks.resetNotices.clock = s.clock.stop := by
  have notices : s.resetBlocks.resetNotices.clock = s.resetBlocks.clock :=
    raise_touches _ _ _ .clock (by decide)
  have blocks : s.resetBlocks.clock = s.emptyWindow.endScoreShow.clock.stop :=
    retitle_touches _ .clock (by decide)
  have lines : s.emptyWindow.endScoreShow.clock = s.clock :=
    (endScoreShow_touches _ .clock (by decide)).trans (emptyWindow_touches s .clock (by decide))
  rw [notices, blocks, lines]

theorem exec_sessionReset (p : Port) (s : State) :
    exec (.sessionReset p) s =
      clientCommand (.sessionReset p) s fun s => readOk s.resetBlocks.resetNotices [] := rfl

theorem sessionReset_clock {s : State} {p : Port} (hc : s.canTake (.sessionReset p) = true) :
    ∃ u, exec (.sessionReset p) s = .next u ∧ u.clock = s.clock.stop := by
  obtain ⟨q, f, hrun⟩ :=
    clientCommand_of_canTake hc fun s => readOk s.resetBlocks.resetNotices []
  exact ⟨_, (exec_sessionReset p s).trans hrun, resetBlocks_resetNotices_clock (s.accept q f)⟩

/-- Settles O35: the setting by its block's footprint; the SYNC because a jump past the window goes
to another position and, auto-end off, stays there; the resets by the clock each leaves. -/
theorem slipWindowIsSet : Obligations.SlipWindowIsSet := by
  refine ⟨fun p => by cases p <;> decide, fun s p x => setSlipWindow_runs, ?sync, ?powerOn, ?session⟩
  case sync =>
    intro s p x hc hrun hx ha
    obtain ⟨q, f, hexec⟩ := clientCommand_of_canTake hc (syncBlock x.toNat)
    exact ⟨_, (exec_sync p x s).trans hexec,
      syncBlock_position_eq_iff (s := s.accept q f) hrun hx ha⟩
  case powerOn => exact fun s => ⟨_, rfl, rfl⟩
  case session =>
    intro s hc
    obtain ⟨u, hexec, hclock⟩ := sessionReset_clock hc
    exact ⟨u, hexec, by rw [hclock]; rfl⟩

end Sys2Proof.Machine
end

section
/-! The blend settings of the overlay (R151): their setting, the latch from which they govern
(R149), and what the two resets make of them. -/

namespace Sys2Proof.Machine

/-! ## SET-PLANE -/

theorem outside_zero_left (hi n : Nat) : outside 0 hi n = decide (hi < n) := by simp [outside]

/-- The code of two settings whose ranges begin at 0: OK only where both are in range. -/
theorem okCode_outside_zero_left_or (hi n m : Nat) :
    okCode (outside 0 hi n || outside 0 hi m) = if n ≤ hi ∧ m ≤ hi then .ok else .okClamped := by
  rw [outside_zero_left, outside_zero_left, okCode]
  by_cases h : n ≤ hi ∧ m ≤ hi
  · simp [h]
  · have clamped : hi < n ∨ hi < m := by omega
    simp [h, clamped]

/-- SET-PLANE at the compositor (R151). -/
def setPlaneBlock (opacity : Byte) (shade : Colour) (shadeOpacity : Byte) (fill : Colour)
    (s : State) : Taken :=
  { state := s.mapVideo fun v =>
      { v with
        planeOpacity := clampNat 0 16 opacity.toNat, shade := shade
        shadeOpacity := clampNat 0 16 shadeOpacity.toNat, fill := fill }
    result := okCode (outside 0 16 opacity.toNat || outside 0 16 shadeOpacity.toNat)
    data := [] }

theorem exec_setPlane (p : Port) (o so : Byte) (shade fill : Colour) (s : State) :
    exec (.setPlane p o shade so fill) s =
      clientCommand (.setPlane p o shade so fill) s (setPlaneBlock o shade so fill) := rfl

theorem setPlane_runs {s : State} {p : Port} {o so : Byte} {shade fill : Colour}
    (hc : s.canTake (.setPlane p o shade so fill) = true) :
    ∃ u, Runs (.setPlane p o shade so fill) [.video]
        (if o.toNat ≤ 16 ∧ so.toNat ≤ 16 then .ok else .okClamped) [] s u ∧
      u.video = { s.video with
        planeOpacity := min o.toNat 16, shade := shade, shadeOpacity := min so.toNat 16
        fill := fill } := by
  have hruns := runs_of (setPlaneBlock o shade so fill) rfl (exec_setPlane p o so shade fill s) hc
    (video_touches _ _) (by decide)
  rw [← okCode_outside_zero_left_or, ← clampNat_zero_left, ← clampNat_zero_left]
  exact ⟨_, hruns, rfl⟩

/-! ## The frame latch -/

/-- The state from which a frame latch captures: steps 1 and 2 are made (R149). -/
def State.readyToCapture (s : State) : State :=
  let t := s.makeRebuild
  (if t.lines.stepTwoMade then t else t.countScroll).mapLines
    fun l => { l with stepTwoMade := false }

theorem frameLatch_eq_latchOverlay (s : State) :
    s.frameLatch = s.readyToCapture.latchOverlay := rfl

/-- Steps 1 and 2 of a latch are the line scheduler's and leave the compositor's settings. -/
theorem readyToCapture_video (s : State) : s.readyToCapture.video = s.video := by
  have rebuild : s.makeRebuild.video = s.video := makeRebuild_touches s .video (by decide)
  have scroll : s.makeRebuild.countScroll.video = s.makeRebuild.video :=
    countScroll_touches _ .video (by decide)
  simp only [State.readyToCapture, State.mapLines_video, apply_ite State.video, scroll, rebuild, ite_self]

/-- A latch keeps the frame it captures after steps 1 and 2 (R149). -/
theorem frameLatch_frame (s : State) :
    s.frameLatch.video.frame = some s.readyToCapture.capture := by
  rw [frameLatch_eq_latchOverlay]
  rfl

/-- The next latch captures the blend settings as the compositor holds them. -/
theorem frameLatch_captures_plane (s : State) :
    ∃ v f, exec .frameLatch s = .next v ∧ v.video.frame = some f ∧
      f.planeOpacity = s.video.planeOpacity ∧ f.shade = s.video.shade ∧
      f.shadeOpacity = s.video.shadeOpacity ∧ f.fill = s.video.fill := by
  refine ⟨s.frameLatch, s.readyToCapture.capture, rfl, frameLatch_frame s, ?_⟩
  simp only [State.capture, readyToCapture_video, and_self]

/-! ## The resets -/

/-- A session reset does not touch the compositor (R192): the line window, the score show and the
title band, which go with it, are the line scheduler's. -/
theorem resetBlocks_resetNotices_video (s : State) :
    s.resetBlocks.resetNotices.video = s.video := by
  have notices : s.resetBlocks.resetNotices.video = s.resetBlocks.video :=
    raise_touches _ _ _ .video (by decide)
  have blocks : s.resetBlocks.video = s.emptyWindow.endScoreShow.video :=
    retitle_touches _ .video (by decide)
  have lines : s.emptyWindow.endScoreShow.video = s.video :=
    (endScoreShow_touches _ .video (by decide)).trans (emptyWindow_touches s .video (by decide))
  rw [notices, blocks, lines]

theorem sessionReset_video {s : State} {p : Port} (hc : s.canTake (.sessionReset p) = true) :
    ∃ u, exec (.sessionReset p) s = .next u ∧ u.video = s.video := by
  obtain ⟨q, f, hrun⟩ :=
    clientCommand_of_canTake hc fun s => readOk s.resetBlocks.resetNotices []
  exact ⟨_, (exec_sessionReset p s).trans hrun, resetBlocks_resetNotices_video (s.accept q f)⟩

/-- Settles O49: the setting by its block's footprint; the latch because its first two steps leave
the compositor, whose settings it then captures; the resets by the compositor each leaves. -/
theorem planeIsSet : Obligations.PlaneIsSet := by
  refine ⟨fun p => by cases p <;> decide, ?set, ?powerOn, fun s => sessionReset_video⟩
  case set =>
    intro s p o so shade fill hc
    obtain ⟨u, hruns, hvideo⟩ := setPlane_runs hc
    have latch := frameLatch_captures_plane u
    rw [hvideo] at latch
    exact ⟨u, hruns, hvideo, latch⟩
  case powerOn => exact fun s => ⟨_, rfl, rfl, rfl, rfl, rfl⟩

end Sys2Proof.Machine
end

section
/-! The part as a whole: the footprint of every command, what a client command comes to before its
block, and the codes and permissions of the catalogue (11.1, 11.2). -/

namespace Sys2Proof.Machine

/-! ## What a port's part leaves -/

/-- A client command touches what its block touches, and the ports' links. -/
theorem command_touches {ks : List Piece} {block : State → Taken}
    (h : ∀ u, Touches ks u (block u).state) (s : State) (p : Port) (f : Frame) :
    Touches (.links :: ks) s (s.command p f block) := by
  have links : ∀ {u v}, Touches [.links] u v → Touches (.links :: ks) u v := fun hu =>
    hu.mono (by simp)
  have inner : ∀ {u v}, Touches ks u v → Touches (.links :: ks) u v := fun hu =>
    hu.mono (List.all_eq_true.mpr fun k hk => by simpa using Or.inr hk)
  unfold State.command
  refine Touches.ite (Touches.ite ?_ ?_) (Touches.refl _ _)
  · exact ((links (accept_touches _ _ _)).trans (inner (h _))).trans
      (links (reply_touches _ _ _ _ _))
  · exact (links (accept_touches _ _ _)).trans (links (reply_touches _ _ _ _ _))

/-- A command that is its frame's block runs to a next state within its footprint. -/
theorem client_footprint {i : Instr} {p : Port} {f : Frame} {ks : List Piece} {s : State}
    {block : State → Taken} (he : exec i s = clientCommand i s block)
    (hf : frameOf i = some (p, f)) (h : ∀ u, Touches ks u (block u).state) :
    ∃ t, exec i s = .next t ∧ Touches (.links :: ks) s t :=
  ⟨_, he.trans (clientCommand_eq hf s block), command_touches h s p f⟩

@[simp] theorem readOk_state (s : State) (data : List Byte) : (readOk s data).state = s := rfl
@[simp] theorem refuse_state (s : State) (r : ResultCode) : (refuse s r).state = s := rfl

/-- The state of an answer OK is the one the block has come to. -/
theorem readOk_touches {ks : List Piece} {s t : State} (h : Touches ks s t) (data : List Byte) :
    Touches ks s (readOk t data).state := h

theorem discard_notices (q : PortState) : q.discard.notices = q.notices := rfl

theorem check_notices (q : PortState) (p : Port) (f : Frame) :
    (q.check p f).notices = q.notices := by
  unfold PortState.check
  split_ifs <;> rfl

theorem gatherBytes_notices (q : PortState) (p : Port) (bytes : List Byte) (closes : Bool) :
    (q.gatherBytes p bytes closes).notices = q.notices := by
  unfold PortState.gatherBytes
  simp only
  split
  · rfl
  · rw [check_notices, accept_notices]
  · split <;> rfl

theorem offer_notices (q : PortState) (p : Port) (bytes : List Byte) (closes : Bool) :
    (q.offer p bytes closes).notices = q.notices := by
  unfold PortState.offer
  split
  · exact gatherBytes_notices _ _ _ _
  · rfl
  · rfl

theorem openSpi_notices (q : PortState) (p : Port) (closes : Bool) (bytes : List Byte) :
    (q.openSpi p closes bytes).notices = q.notices := by
  cases bytes with
  | nil => rfl
  | cons kind rest =>
    unfold PortState.openSpi
    simp only
    split_ifs
    · exact offer_notices _ _ _ _
    · rfl
    · rfl

/-- A piece of a transaction leaves the port's notices. -/
theorem write_notices (q : PortState) (p : Port) (opens : Bool) (bytes : List Byte)
    (closes : Bool) : (q.write p opens bytes closes).notices = q.notices := by
  unfold PortState.write
  split
  · cases p with
    | venue => exact offer_notices _ _ _ _
    | _ => exact openSpi_notices _ _ _ _
  · split
    · rfl
    · split
      · exact gatherBytes_notices _ _ _ _
      · rfl

theorem read_notices (q : PortState) (n : Nat) : (q.read n).notices = q.notices := by
  rw [read_eq]

/-! ## Footprints of the blocks -/

theorem mapBook_touches (s : State) (f : Book → Book) : Touches [.book] s (s.mapBook f) :=
  book_touches s _

theorem mapClock_touches (s : State) (f : Clock → Clock) : Touches [.clock] s (s.mapClock f) :=
  clock_touches s _

theorem mapVideo_touches (s : State) (f : Compositor → Compositor) :
    Touches [.video] s (s.mapVideo f) := video_touches s _

theorem mapFont_touches (s : State) (f : FontPort → FontPort) : Touches [.font] s (s.mapFont f) :=
  font_touches s _

theorem autoEnd_touches (s : State) (x : Bool) : Touches [.autoEnd] s { s with autoEnd := x } := by
  intro k hk; cases k <;> first | rfl | exact fun _ => rfl | exact absurd (by decide) hk

theorem best_touches (s : State) (x : List BestEntry) : Touches [.best] s { s with best := x } := by
  intro k hk; cases k <;> first | rfl | exact fun _ => rfl | exact absurd (by decide) hk

theorem depth_touches (s : State) (n : Nat) : Touches [.depth] s { s with depth := n } := by
  intro k hk; cases k <;> first | rfl | exact fun _ => rfl | exact absurd (by decide) hk

/-- The pieces that a change of the Book may touch (R23, R118). -/
def bookPieces : List Piece := [.book, .slots, .notices, .lines, .cache]

theorem enqueueBlock_touches (p : Port) (song : Nat) (tier : Byte) (tag : OptionalByte)
    (s : State) : Touches bookPieces s (enqueueBlock p song tier tag s).state := by
  unfold enqueueBlock
  split
  · exact Touches.refl _ _
  · split
    · split
      · exact Touches.refl _ _
      · exact acceptRequest_touches _ _ _ _ _
    · exact Touches.refl _ _

theorem cancelBlock_touches (n : Nat) (s : State) :
    Touches bookPieces s (cancelBlock n s).state := by
  unfold cancelBlock
  split
  · exact Touches.refl _ _
  · exact Touches.refl _ _
  · exact readOk_touches (cancelEntry_touches _ _) _

theorem moveBlock_touches (n m : Nat) (s : State) : Touches bookPieces s (moveBlock n m s).state := by
  unfold moveBlock
  split
  · exact Touches.refl _ _
  · exact Touches.refl _ _
  · split
    · exact Touches.refl _ _
    · exact ((mapBook_touches _ _).mono rfl).trans (bookChanged_touches _)

theorem holdBlock_touches (s : State) : Touches bookPieces s (holdBlock s).state := by
  unfold holdBlock
  have held := (mapBook_touches s fun b => { b with held := true }).mono (ls := bookPieces) rfl
  exact Touches.ite ((held.trans ((uncall_touches _).mono rfl)).trans (bookChanged_touches _)) held

theorem promoteBlock_touches (n : Nat) (s : State) :
    Touches bookPieces s (promoteBlock n s).state := by
  unfold promoteBlock
  split
  · exact Touches.refl _ _
  · exact Touches.refl _ _
  · split_ifs
    · exact Touches.refl _ _
    · exact Touches.refl _ _
    · exact ((mapBook_touches _ _).mono rfl).trans (bookChanged_touches _)

/-- The pieces that a turn's start may touch. -/
def takePieces : List Piece := [.book, .turn, .slots, .clock, .lines, .cache, .voice, .notices]

theorem take_touches_takePieces (s : State) (e : Entry) (i : Fin 4) :
    Touches takePieces s (s.take e i) := by
  unfold State.take
  simp only
  refine Touches.trans ?_ ((bookChanged_touches _).mono rfl)
  refine Touches.trans ?_ ((raise_touches _ _ _).mono rfl)
  refine Touches.trans ?_ ((requestRebuild_touches _).mono rfl)
  refine Touches.trans ?_ ((emptyWindow_touches _).mono rfl)
  refine Touches.trans ?_ ((endScoreShow_touches _).mono rfl)
  refine Touches.trans ?_ ((abortTone_touches _).mono rfl)
  refine Touches.trans ?_ ((setSlot_touches _ _ _).mono rfl)
  intro k hk; cases k <;> first | rfl | exact fun _ => rfl | exact absurd (by decide) hk

theorem takeBlock_touches (s : State) : Touches takePieces s (takeBlock s).state := by
  unfold takeBlock
  split
  · exact Touches.refl _ _
  · split
    · exact Touches.refl _ _
    · split
      · exact Touches.refl _ _
      · exact readOk_touches (take_touches_takePieces _ _ _) _

theorem loadBeginBlock_touches (i : Byte) (n : Nat) (s : State) :
    Touches [.slots] s (loadBeginBlock i n s).state := by
  unfold loadBeginBlock
  split
  · exact Touches.refl _ _
  · simp only
    split_ifs
    · exact Touches.refl _ _
    · exact Touches.refl _ _
    · exact setSlot_touches _ _ _

theorem loadDataBlock_touches (i : Byte) (n : Nat) (data : List Byte) (s : State) :
    Touches [.slots, .notices] s (loadDataBlock i n data s).state := by
  unfold loadDataBlock
  split
  · exact Touches.refl _ _
  · simp only
    split_ifs
    · exact Touches.refl _ _
    · exact Touches.refl _ _
    · exact Touches.refl _ _
    · exact faultSlot_touches _ _ _ _
    · exact (setSlot_touches _ _ _).mono rfl

theorem loadEndBlock_touches (i : Byte) (n m : Nat) (s : State) :
    Touches [.slots, .notices] s (loadEndBlock i n m s).state := by
  unfold loadEndBlock
  split
  · exact Touches.refl _ _
  · simp only
    split_ifs
    · exact Touches.refl _ _
    · exact faultSlot_touches _ _ _ _
    · exact faultSlot_touches _ _ _ _
    · exact (setSlot_touches _ _ _).mono rfl

theorem endStall_slots_notices (s : State) (i : Fin 4) :
    Touches [.slots, .notices] s (s.endStall i) := by
  unfold State.endStall
  exact Touches.ite (faultSlot_touches _ _ _ _) (Touches.refl _ _)

theorem setLookahead_touches (s : State) (n : Nat) :
    Touches [.depth, .slots, .notices] s (State.pass { s with depth := n }) :=
  ((depth_touches _ _).mono rfl).trans ((pass_touches _).mono rfl)

theorem transportBlock_touches (a b : ClockState) (s : State) :
    Touches [.clock] s (transportBlock a b s).state := by
  unfold transportBlock
  split
  · exact mapClock_touches _ _
  · exact Touches.refl _ _

theorem seekBlock_touches (n : Nat) (s : State) : Touches turnPieces s (seekBlock n s).state := by
  unfold seekBlock
  simp only [apply_ite Taken.state]
  split_ifs
  · exact Touches.refl _ _
  · exact Touches.refl _ _
  · exact (mapClock_touches _ _).mono rfl
  · exact jump_touches _ _

theorem slip_touches (s : State) (n : Nat) : Touches turnPieces s (s.slip n) :=
  (((flagTurn_touches _ _).mono rfl).trans ((raise_touches _ _ _).mono rfl)).trans (jump_touches _ _)

theorem syncBlock_touches (n : Nat) (s : State) : Touches turnPieces s (syncBlock n s).state := by
  unfold syncBlock
  simp only
  split_ifs
  · exact Touches.refl _ _
  · exact Touches.refl _ _
  · exact (mapClock_touches _ _).mono rfl
  · exact ((mapClock_touches _ _).mono rfl).trans (slip_touches _ _)

/-- A setting of the clock that may flag the turn. -/
theorem mapClock_flagTurn_touches (s : State) (c : Prop) [Decidable c] (f : Clock → Clock)
    (g : TurnFlags → TurnFlags) :
    Touches [.clock, .turn] s (if c then s.mapClock f else (s.mapClock f).flagTurn g) := by
  have set := (mapClock_touches s f).mono (ls := [.clock, .turn]) rfl
  exact Touches.ite set (set.trans ((flagTurn_touches _ _).mono rfl))

theorem setTempoBlock_touches (n : Nat) (s : State) :
    Touches [.clock, .turn] s (setTempoBlock n s).state := by
  unfold setTempoBlock
  simp only
  split
  · exact Touches.refl _ _
  · exact mapClock_flagTurn_touches s _ _ _

theorem setKeyBlock_touches (n : Int) (s : State) :
    Touches [.clock, .turn] s (setKeyBlock n s).state := by
  unfold setKeyBlock
  simp only
  split
  · exact Touches.refl _ _
  · exact mapClock_flagTurn_touches s _ _ _

theorem setBandsBlock_touches (n g : Nat) (s : State) :
    Touches [.lines, .cache] s (setBandsBlock n g s).state := by
  unfold setBandsBlock
  exact relayout_touches _ _

theorem setStyleBlock_touches (x : Byte) (n : Nat) (s : State) :
    Touches [.lines, .cache] s (setStyleBlock x n s).state := by
  unfold setStyleBlock
  split
  · exact Touches.refl _ _
  · exact Touches.ite (relayout_touches _ _)
      ((relayout_touches _ _).trans (requestRebuild_touches _))

theorem setLineTimingBlock_touches (a b c d : Nat) (s : State) :
    Touches [.lines, .cache] s (setLineTimingBlock a b c d s).state := by
  unfold setLineTimingBlock
  exact Touches.ite (mapLines_touches' _ _)
    ((mapLines_touches' _ _).trans (requestRebuild_touches _))

theorem wakeBlock_touches (s : State) : Touches [.video] s (wakeBlock s).state :=
  (mapVideo_touches _ _).trans (testWaking_touches _)

theorem flashBlock_touches (op : FlashOp) (s : State) :
    Touches [.font] s (flashBlock op s).state := by
  unfold flashBlock
  split_ifs
  · exact Touches.refl _ _
  · exact Touches.refl _ _
  · exact font_touches _ _

theorem programBlock_touches (a : Nat) (d : List Byte) (s : State) :
    Touches [.font] s (programBlock a d s).state := by
  unfold programBlock
  simp only
  split
  · exact Touches.refl _ _
  · split
    · exact Touches.refl _ _
    · exact flashBlock_touches _ _

theorem eraseBlock_touches (n : Nat) (s : State) : Touches [.font] s (eraseBlock n s).state := by
  unfold eraseBlock
  split
  · exact Touches.refl _ _
  · split
    · exact Touches.refl _ _
    · exact flashBlock_touches _ _

theorem fontReadBlock_touches (a n : Nat) (s : State) : Touches [] s (fontReadBlock a n s).state := by
  unfold fontReadBlock
  split
  · exact Touches.refl _ _
  · split <;> exact Touches.refl _ _

theorem endMaintenance_touches (s : State) : Touches [.font, .cache] s s.endMaintenance := by
  intro k hk; cases k <;> first | rfl | exact fun _ => rfl | exact absurd (by decide) hk

theorem finishFlash_touches (s : State) (op : FlashOp) :
    Touches [.font, .flash] s (s.finishFlash op) := by
  intro k hk; cases k <;> first | rfl | exact fun _ => rfl | exact absurd (by decide) hk

theorem maintBegin_touches (s : State) (p : Port) :
    Touches [.links, .font, .cache] s (s.maintBegin p) := by
  unfold State.maintBegin
  split
  · exact (reply_touches _ _ _ _ _).mono rfl
  · exact (reply_touches _ _ _ _ _).mono rfl
  · exact (reply_touches _ _ _ _ _).mono rfl
  all_goals
    exact Touches.ite (ks := [.links, .font, .cache]) ((mapFont_touches _ _).mono rfl)
      (((enterMaintenance_touches _).mono rfl).trans ((reply_touches _ _ _ _ _).mono rfl))

theorem execFontMaintBegin_touches (p : Port) (s : State) : ∃ t, execFontMaintBegin p s = .next t ∧
    Touches [.links, .font, .cache] s t := by
  have accepted := (accept_touches s p maintBeginFrame).mono (ls := [.links, .font, .cache]) rfl
  unfold execFontMaintBegin
  split_ifs
  · exact ⟨_, rfl, accepted.trans (maintBegin_touches _ _)⟩
  · exact ⟨_, rfl, accepted.trans ((reply_touches _ _ _ _ _).mono rfl)⟩
  · exact ⟨_, rfl, Touches.refl _ _⟩

theorem enableMic_touches (s : State) (m : Fin 4) (x : Bool) :
    Touches [.slots, .voice] s (s.enableMic m x) := by
  have set : ∀ (u : State) c, Touches [.slots, .voice] u (u.setChannel m c) :=
    fun u c => (setChannel_touches u m c).mono rfl
  unfold State.enableMic
  simp only
  split_ifs
  · exact set _ _
  · exact set _ _
  · exact (tallyOpen_touches _ _).trans (set _ _)

theorem changePart_touches (s : State) (m : Fin 4) (x : Part) :
    Touches [.slots, .voice, .turn] s (s.changePart m x) := by
  have set : ∀ (u : State) c, Touches [.slots, .voice, .turn] u (u.setChannel m c) :=
    fun u c => (setChannel_touches u m c).mono rfl
  have recounted := fun c d => (((tallyOpen_touches s m).mono rfl).trans (set _ c)).trans (set _ d)
  unfold State.changePart
  simp only
  exact Touches.ite ((recounted _ _).trans ((flagTurn_touches _ _).mono rfl)) (recounted _ _)

theorem setScoringBlock_touches (g : Scoring) (s : State) :
    Touches [.slots, .voice] s (setScoringBlock g s).state := by
  unfold setScoringBlock
  simp only
  split
  · exact Touches.refl _ _
  · exact Touches.ite (((voice_touches _ _).mono rfl).trans (tallyAtLatency_touches _))
      ((voice_touches _ _).mono rfl)

theorem toneCheckBlock_touches (m : Byte) (n : Nat) (s : State) :
    Touches [.voice] s (toneCheckBlock m n s).state := by
  unfold toneCheckBlock
  split
  · exact Touches.refl _ _
  · split_ifs
    · exact Touches.refl _ _
    · exact Touches.refl _ _
    · exact Touches.refl _ _
    · exact voice_touches _ _

theorem resultReadBlock_touches (x : Byte) (n : Nat) (s : State) :
    Touches [] s (resultReadBlock x n s).state := by
  unfold resultReadBlock
  simp only
  split_ifs
  · split <;> exact Touches.refl _ _
  · exact Touches.refl _ _
  · split <;> exact Touches.refl _ _
  · exact Touches.refl _ _

theorem resultTakeBlock_touches (n : Nat) (s : State) :
    Touches [.ring] s (resultTakeBlock n s).state := by
  unfold resultTakeBlock
  split
  · exact ring_touches _ _
  · exact Touches.refl _ _

theorem clearClass_notices_only (s : State) (p : Port) (c : Fin 16) :
    Touches [.notices] s (s.setPort p ((s.port p).clearClass c)) := setPort_notices _ _ _ rfl

theorem noticeTakeBlock_touches (p : Port) (s : State) :
    Touches [.notices] s (noticeTakeBlock p s).state := by
  unfold noticeTakeBlock
  split
  · exact Touches.refl _ _
  · exact clearClass_notices_only _ _ _

/-! ## The pieces a reset may touch -/

/-- The pieces of a session reset (R192). -/
def sessionPieces : List Piece :=
  [.sessionTime, .book, .loop, .turn, .slots, .clock, .lines, .cache, .voice, .ring, .best, .notices]

theorem resetBlocks_touches (s : State) : Touches sessionPieces s s.resetBlocks := by
  unfold State.resetBlocks
  simp only
  refine Touches.trans ?_ ((retitle_touches _).mono rfl)
  refine Touches.trans ?_ ((mapLines_touches _ _).mono rfl)
  refine Touches.trans (((emptyWindow_touches s).mono rfl).trans
    ((endScoreShow_touches _).mono rfl)) ?_
  intro k hk; cases k <;> first | rfl | exact fun _ => rfl | exact absurd (by decide) hk

theorem resetNotices_touches (s : State) : Touches [.notices] s s.resetNotices := by
  refine Touches.trans ?_ (raise_touches _ _ _)
  intro k hk
  cases k with
  | links => intro q; cases q <;> rfl
  | notices => exact absurd (by decide) hk
  | _ => rfl

theorem sessionReset_touches (s : State) : Touches sessionPieces s s.resetBlocks.resetNotices :=
  (resetBlocks_touches s).trans ((resetNotices_touches _).mono rfl)

/-- The pieces of a power-on reset: all but the queue outside the part (log 35). -/
def powerOnPieces : List Piece :=
  [.sessionTime, .book, .loop, .turn, .autoEnd, .slots, .depth, .clock, .lines, .cache, .font,
    .flash, .video, .voice, .ring, .best, .links, .notices, .freeCount]

/-- The pieces of a timebase tick. -/
def tickPieces : List Piece :=
  [.sessionTime, .book, .loop, .turn, .slots, .clock, .lines, .cache, .font, .flash, .video, .voice,
    .ring, .best, .notices, .freeCount]

theorem tickTimers_touches (s : State) :
    Touches [.sessionTime, .loop, .slots, .lines, .font, .video, .voice] s s.tickTimers := by
  intro k hk; cases k <;> first | rfl | exact fun _ => rfl | exact absurd (by decide) hk

theorem tick_touches (s : State) : Touches tickPieces s s.makeOverdue.tickTimers.tickClock :=
  (((makeOverdue_touches s).mono rfl).trans ((tickTimers_touches _).mono rfl)).trans
    ((tickClock_touches _).mono rfl)

/-! ## The footprint of every command -/

/-- The pieces that each command may touch. -/
def footprint : Instr → List Piece
  | .powerOnReset => powerOnPieces
  | .sessionReset _ => .links :: sessionPieces
  | .writeTransaction .. | .readTransaction .. | .unknownCommand _ => [.links]
  | .enqueue .. | .cancel .. | .move .. | .bookHold _ | .promote .. => .links :: bookPieces
  | .bookRelease _ => .links :: bookPieces
  | .setOrderMode .. | .setRotation .. | .setOriginMask .. | .setCap .. | .setQuota ..
  | .setDuplicatePolicy .. => [.links, .book]
  | .bookRead .. | .bookPolicyRead _ | .panelRead _ | .stageRead _ | .slotRead _ | .slotDetail ..
  | .clockRead _ | .lineWindowRead _ | .cacheStatus _ | .glyphQuery .. | .fontRead ..
  | .fontStatus _ | .displayStatus _ | .voiceRead _ | .resultRead .. | .bestRead _
  | .ident _ => [.links]
  | .poll | .badReply .. | .replyByteTimeout | .strayLoopByte _ | .verdict | .answer
  | .cycleGapExpiry | .replyByteReceived _ => [.loop]
  | .replyWindowExpiry | .badReplyQuietExpiry | .idle .. | .whereTicket .. => [.loop, .notices]
  | .request .. | .panelCancel .. => .loop :: bookPieces
  | .panelEnable .. | .panelCountersClear .. | .setLoopTiming .. => [.links, .loop]
  | .takeTurn _ => .links :: takePieces
  | .endTurn .. | .abortTurn .. | .seek .. | .sync .. => .links :: turnPieces
  | .setAutoEnd .. => [.links, .autoEnd]
  | .loadBegin .. | .retryStage .. => [.links, .slots]
  | .loadData .. | .loadEnd .. => [.links, .slots, .notices]
  | .stallTimerExpiry _ => [.slots, .notices]
  | .checkComplete _ => bookPieces
  | .scrubComplete _ => [.slots, .notices]
  | .setLookahead .. => [.links, .depth, .slots, .notices]
  | .play _ | .pause _ | .resume _ | .setSlipWindow .. => [.links, .clock]
  | .setTempo .. | .setKey .. => [.links, .clock, .turn]
  | .timebaseTick => tickPieces
  | .scrollComplete | .scoreShowExpiry => [.lines, .cache]
  | .setBands .. | .setStyle .. | .setLineTiming .. => [.links, .lines, .cache]
  | .setLyricColours .. | .setScoreHold .. => [.links, .lines]
  | .frameLatch => [.lines, .cache, .video]
  | .glyphFetchStart | .glyphFetchComplete => [.cache]
  | .fontScanComplete => [.font, .cache, .video, .notices]
  | .fontMaintBegin _ => [.links, .font, .cache]
  | .maintenanceEntry => [.links, .font, .cache]
  | .fontWriteEnable _ | .fontProtect .. | .fontProgram .. | .fontErase .. => [.links, .font]
  | .flashOperationDone => [.font, .flash]
  | .flashOperationTimeout => [.font, .flash, .freeCount]
  | .fontMaintEnd _ => [.links, .font, .cache]
  | .inputFrameStart _ => [.video, .notices, .lines, .cache]
  | .inputLossTimeout => [.video, .notices]
  | .wake _ | .goStandby _ | .setOverlay .. | .setPlane .. | .setFmark ..
  | .displayCountersClear _ => [.links, .video]
  | .audioLossTimeout | .audioRestored _ | .voiceFrameComplete | .toneCheckEnd
  | .tdmFrame _ => [.slots, .voice, .notices]
  | .setMicEnable .. | .setScoring .. => [.links, .slots, .voice]
  | .setMicColour .. | .toneCheck .. => [.links, .voice]
  | .setPart .. => [.links, .slots, .voice, .turn]
  | .resultTake .. => [.links, .ring]
  | .bestClear _ => [.links, .best]
  | .noticeTake _ => [.links, .notices]
  | .noticeMask .. => [.links]

/-- An event that its cause guards runs to a next state within its footprint. -/
theorem ite_footprint {ks : List Piece} {s t : State} {c : Prop} [Decidable c]
    (h : Touches ks s t) :
    ∃ u, (if c then .next t else .next s : Answered) = .next u ∧ Touches ks s u := by
  split
  · exact ⟨_, rfl, h⟩
  · exact ⟨_, rfl, Touches.refl _ _⟩

theorem mapPort_links (s : State) (p : Port) (f : PortState → PortState)
    (h : (f (s.port p)).notices = (s.port p).notices) : Touches [.links] s (s.mapPort p f) :=
  setPort_links _ _ _ h

theorem event_footprint {i : Instr} (h : frameOf i = none) (s : State) :
    ∃ t, exec i s = .next t ∧ Touches (footprint i) s t := by
  cases i with
  | powerOnReset =>
    refine ⟨_, rfl, ?_⟩
    intro k hk; cases k <;> first | rfl | exact fun _ => rfl | exact absurd (by decide) hk
  | writeTransaction p opens bytes closes =>
    exact ⟨_, rfl, mapPort_links _ _ _ (write_notices _ _ _ _ _)⟩
  | readTransaction p n => exact ⟨_, rfl, mapPort_links _ _ _ (read_notices _ _)⟩
  | unknownCommand p =>
    change ∃ t, execUnknownCommand p s = .next t ∧ _
    unfold execUnknownCommand
    split
    · split
      · exact ⟨_, rfl, Touches.refl _ _⟩
      · exact ⟨_, rfl, reply_touches _ _ _ _ _⟩
    · exact ⟨_, rfl, Touches.refl _ _⟩
  | poll =>
    change ∃ t, execPoll s = .next t ∧ _
    unfold execPoll
    split
    · exact ite_footprint (mapLoop_touches _ _)
    · exact ⟨_, rfl, Touches.refl _ _⟩
  | replyWindowExpiry => exact ⟨_, rfl, endWindow_touches s⟩
  | badReply b x =>
    change ∃ t, execBadReply b x s = .next t ∧ _
    unfold execBadReply
    split
    · exact ite_footprint ((spoil_touches _ _).trans (mapLoop_touches _ _))
    · exact ⟨_, rfl, Touches.refl _ _⟩
  | replyByteTimeout => exact ⟨_, rfl, cutReply_touches s⟩
  | badReplyQuietExpiry => exact ⟨_, rfl, endBadReply_touches s⟩
  | strayLoopByte b =>
    change ∃ t, execStrayLoopByte b s = .next t ∧ _
    unfold execStrayLoopByte
    split
    · exact ⟨_, rfl, mapLoop_touches _ _⟩
    · exact ⟨_, rfl, Touches.refl _ _⟩
  | idle p seq =>
    exact ite_footprint ((goodReply_touches _ _).trans ((endExchange_touches _).mono rfl))
  | request p seq song tag =>
    exact ite_footprint (((goodReply_touches _ _).mono rfl).trans
      (adjudicate_touches _ _ _ _ (fun t => (panelRequest_touches t _ _ _).mono rfl) List.mem_cons_self))
  | panelCancel p seq n =>
    exact ite_footprint (((goodReply_touches _ _).mono rfl).trans
      (adjudicate_touches _ _ _ _ (fun t => (cancelForPanel_touches t _ _).mono rfl) List.mem_cons_self))
  | whereTicket p seq n =>
    exact ite_footprint ((goodReply_touches _ _).trans ((mapLoop_touches _ _).mono rfl))
  | verdict =>
    change ∃ t, execVerdict s = .next t ∧ _
    unfold execVerdict
    split
    · exact ite_footprint ((mapLoop_touches _ _).trans (endExchange_touches _))
    · exact ⟨_, rfl, Touches.refl _ _⟩
  | answer =>
    change ∃ t, execAnswer s = .next t ∧ _
    unfold execAnswer
    split
    · exact ite_footprint ((mapLoop_touches _ _).trans (endExchange_touches _))
    · exact ⟨_, rfl, Touches.refl _ _⟩
  | cycleGapExpiry => exact ⟨_, rfl, endGap_touches s⟩
  | stallTimerExpiry i =>
    exact ⟨_, rfl, endStall_slots_notices s i⟩
  | checkComplete i => exact ⟨_, rfl, endCheck_touches s i⟩
  | scrubComplete i => exact ⟨_, rfl, endScrub_touches s i⟩
  | timebaseTick => exact ⟨_, rfl, tick_touches s⟩
  | scrollComplete =>
    change ∃ t, execScrollComplete s = .next t ∧ _
    unfold execScrollComplete
    split
    · exact ite_footprint ((countScroll_touches _).trans (mapLines_touches' _ _))
    · exact ⟨_, rfl, Touches.refl _ _⟩
  | scoreShowExpiry => exact ⟨_, rfl, passScoreShow_touches s⟩
  | frameLatch => exact ⟨_, rfl, frameLatch_touches s⟩
  | glyphFetchStart =>
    change ∃ t, execGlyphFetchStart s = .next t ∧ _
    unfold execGlyphFetchStart
    split
    · exact ⟨_, rfl, startFetch_touches _ _⟩
    · exact ⟨_, rfl, Touches.refl _ _⟩
  | glyphFetchComplete =>
    change ∃ t, execGlyphFetchComplete s = .next t ∧ _
    unfold execGlyphFetchComplete
    split
    · exact ⟨_, rfl, completeFetch_touches _ _⟩
    · exact ⟨_, rfl, Touches.refl _ _⟩
  | fontScanComplete =>
    change ∃ t, execFontScanComplete s = .next t ∧ _
    unfold execFontScanComplete
    split
    · exact ⟨_, rfl, completeScan_touches _⟩
    all_goals exact ⟨_, rfl, Touches.refl _ _⟩
  | maintenanceEntry =>
    exact ite_footprint (((enterMaintenance_touches _).mono rfl).trans
      ((reply_touches _ _ _ _ _).mono rfl))
  | flashOperationDone =>
    change ∃ t, execFlashOperationDone s = .next t ∧ _
    unfold execFlashOperationDone
    split
    · exact ⟨_, rfl, finishFlash_touches _ _⟩
    all_goals exact ⟨_, rfl, Touches.refl _ _⟩
  | flashOperationTimeout => exact ⟨_, rfl, timeOutFlash_touches s⟩
  | inputFrameStart m => exact ⟨_, rfl, inputFrame_touches s m⟩
  | inputLossTimeout => exact ⟨_, rfl, missInput_touches s⟩
  | audioLossTimeout => exact ⟨_, rfl, missAudio_touches s⟩
  | audioRestored w => exact ite_footprint (restoreAudio_touches _ _)
  | voiceFrameComplete => exact ite_footprint (completeFrame_touches _)
  | toneCheckEnd => exact ite_footprint (completeFrame_touches _)
  | replyByteReceived b =>
    change ∃ t, execReplyByteReceived b s = .next t ∧ _
    unfold execReplyByteReceived
    split
    · exact ite_footprint (mapLoop_touches _ _)
    · exact ⟨_, rfl, Touches.refl _ _⟩
  | tdmFrame w =>
    change ∃ t, execTdmFrame w s = .next t ∧ _
    unfold execTdmFrame
    split
    · exact ⟨_, rfl, takeSamples_touches _ _⟩
    · exact ⟨_, rfl, restoreAudio_touches _ _⟩
  | _ => cases h

theorem clientCommand_footprint {i : Instr} {p : Port} {f : Frame} (h : frameOf i = some (p, f))
    (s : State) : ∃ t, exec i s = .next t ∧ Touches (footprint i) s t := by
  have read : ∀ {i p f} {data : State → List Byte},
      exec i s = clientCommand i s (fun u => readOk u (data u)) → frameOf i = some (p, f) →
      ∃ t, exec i s = .next t ∧ Touches [.links] s t :=
    fun he hf => client_footprint he hf fun _ => Touches.refl _ _
  cases i with
  | sessionReset p =>
    refine client_footprint rfl rfl ?_
    exact fun u => readOk_touches (sessionReset_touches u) _
  | enqueue p song tier tag =>
    refine client_footprint rfl rfl ?_
    exact fun u => enqueueBlock_touches _ _ _ _ u
  | cancel p n =>
    refine client_footprint rfl rfl ?_
    exact (cancelBlock_touches _)
  | move p n x =>
    refine client_footprint rfl rfl ?_
    exact (moveBlock_touches _ _)
  | bookHold p =>
    refine client_footprint rfl rfl ?_
    exact holdBlock_touches
  | bookRelease p =>
    refine client_footprint rfl rfl ?_
    exact fun u => readOk_touches
      (((mapBook_touches u fun b => { b with held := false }).mono rfl).trans (testCall_touches _)) _
  | promote p n =>
    refine client_footprint rfl rfl ?_
    exact (promoteBlock_touches _)
  | setOrderMode p m r =>
    refine client_footprint rfl rfl fun u => ?_
    split
    · exact mapBook_touches _ _
    · exact Touches.refl _ _
  | setRotation p o =>
    refine client_footprint rfl rfl fun u => ?_
    split
    · exact mapBook_touches _ _
    · exact Touches.refl _ _
  | setOriginMask p m =>
    refine client_footprint rfl rfl fun u => ?_
    split
    · exact mapBook_touches _ _
    · exact Touches.refl _ _
  | setCap p o c =>
    refine client_footprint rfl rfl fun u => ?_
    split
    · exact mapBook_touches _ _
    · exact Touches.refl _ _
  | setQuota p q w =>
    refine client_footprint rfl rfl ?_
    exact fun u => mapBook_touches _ _
  | setDuplicatePolicy p x =>
    refine client_footprint rfl rfl fun u => ?_
    split
    · exact mapBook_touches _ _
    · exact Touches.refl _ _
  | bookRead p a n =>
    refine client_footprint (ks := []) rfl rfl fun u => ?_
    split <;> exact Touches.refl _ _
  | bookPolicyRead p => exact read rfl rfl
  | panelEnable p n x =>
    refine client_footprint rfl rfl fun u => ?_
    split
    · exact mapLoop_touches _ _
    · exact Touches.refl _ _
  | panelCountersClear p n =>
    refine client_footprint rfl rfl fun u => ?_
    split
    · exact mapLoop_touches _ _
    · split
      · exact mapLoop_touches _ _
      · exact Touches.refl _ _
  | setLoopTiming p w g =>
    refine client_footprint rfl rfl ?_
    exact fun u => mapLoop_touches _ _
  | panelRead p => exact read rfl rfl
  | takeTurn p =>
    refine client_footprint rfl rfl ?_
    exact takeBlock_touches
  | endTurn p n r =>
    refine client_footprint rfl rfl fun u => ?_
    split
    · exact Touches.refl _ _
    · exact Touches.refl _ _
    · exact readOk_touches (endTurn_touches _ _ _ _) _
  | abortTurn p n =>
    refine client_footprint rfl rfl fun u => ?_
    split
    · exact Touches.refl _ _
    · exact readOk_touches (endTurn_touches _ _ _ _) _
  | setAutoEnd p x =>
    refine client_footprint rfl rfl fun u => ?_
    split
    · exact autoEnd_touches _ _
    · exact Touches.refl _ _
  | stageRead p => exact read rfl rfl
  | loadBegin p i n =>
    refine client_footprint rfl rfl ?_
    exact (loadBeginBlock_touches _ _)
  | loadData p i n d =>
    refine client_footprint rfl rfl ?_
    exact (loadDataBlock_touches _ _ _)
  | loadEnd p i n m =>
    refine client_footprint rfl rfl ?_
    exact (loadEndBlock_touches _ _ _)
  | setLookahead p n =>
    refine client_footprint rfl rfl ?_
    exact fun u => setLookahead_touches _ _
  | retryStage p n =>
    refine client_footprint rfl rfl fun u => ?_
    split
    · exact Touches.refl _ _
    · exact Touches.refl _ _
    · split
      · split
        · exact scrubSlot_touches _ _
        · exact Touches.refl _ _
      · exact Touches.refl _ _
  | slotRead p => exact read rfl rfl
  | slotDetail p i =>
    refine client_footprint (ks := []) rfl rfl fun u => ?_
    split
    · exact Touches.refl _ _
    · simp only
      split
      · split <;> exact Touches.refl _ _
      · exact Touches.refl _ _
  | play p =>
    refine client_footprint rfl rfl ?_
    exact (transportBlock_touches _ _)
  | pause p =>
    refine client_footprint rfl rfl ?_
    exact (transportBlock_touches _ _)
  | resume p =>
    refine client_footprint rfl rfl ?_
    exact (transportBlock_touches _ _)
  | seek p x =>
    refine client_footprint rfl rfl ?_
    exact (seekBlock_touches _)
  | sync p x =>
    refine client_footprint rfl rfl ?_
    exact (syncBlock_touches _)
  | setTempo p x =>
    refine client_footprint rfl rfl ?_
    exact (setTempoBlock_touches _)
  | setSlipWindow p x =>
    refine client_footprint rfl rfl ?_
    exact fun u => mapClock_touches _ _
  | setKey p x =>
    refine client_footprint rfl rfl ?_
    exact (setKeyBlock_touches _)
  | clockRead p => exact read rfl rfl
  | setBands p n g =>
    refine client_footprint rfl rfl ?_
    exact setBandsBlock_touches _ _
  | setStyle p x n =>
    refine client_footprint rfl rfl ?_
    exact (setStyleBlock_touches _ _)
  | setLineTiming p a b c d =>
    refine client_footprint rfl rfl ?_
    exact (setLineTimingBlock_touches _ _ _ _)
  | setLyricColours p a b c d =>
    refine client_footprint rfl rfl ?_
    exact fun u => mapLines_touches _ _
  | setScoreHold p n =>
    refine client_footprint rfl rfl ?_
    exact fun u => mapLines_touches _ _
  | lineWindowRead p => exact read rfl rfl
  | cacheStatus p => exact read rfl rfl
  | glyphQuery p k =>
    refine client_footprint (ks := []) rfl rfl fun u => ?_
    split <;> exact Touches.refl _ _
  | fontMaintBegin p => exact execFontMaintBegin_touches p s
  | fontWriteEnable p =>
    refine client_footprint rfl rfl fun u => ?_
    split
    · exact Touches.refl _ _
    · exact mapFont_touches _ _
  | fontProtect p x =>
    refine client_footprint rfl rfl fun u => ?_
    split
    · exact Touches.refl _ _
    · exact Touches.refl _ _
    · exact mapFont_touches _ _
  | fontProgram p a d =>
    refine client_footprint rfl rfl ?_
    exact (programBlock_touches _ _)
  | fontErase p n =>
    refine client_footprint rfl rfl ?_
    exact (eraseBlock_touches _)
  | fontRead p a n =>
    refine client_footprint rfl rfl ?_
    exact (fontReadBlock_touches _ _)
  | fontStatus p => exact read rfl rfl
  | fontMaintEnd p =>
    refine client_footprint rfl rfl fun u => ?_
    split
    · exact Touches.refl _ _
    · exact readOk_touches (endMaintenance_touches _) _
  | wake p =>
    refine client_footprint rfl rfl ?_
    exact wakeBlock_touches
  | goStandby p =>
    refine client_footprint rfl rfl ?_
    exact fun u => mapVideo_touches _ _
  | setOverlay p a b c d =>
    refine client_footprint rfl rfl fun u => ?_
    split
    · exact mapVideo_touches _ _
    · exact Touches.refl _ _
  | setPlane p a b c d =>
    refine client_footprint rfl rfl ?_
    exact fun u => mapVideo_touches _ _
  | setFmark p x =>
    refine client_footprint rfl rfl fun u => ?_
    split
    · exact mapVideo_touches _ _
    · exact Touches.refl _ _
  | displayCountersClear p =>
    refine client_footprint rfl rfl ?_
    exact fun u => mapVideo_touches _ _
  | displayStatus p => exact read rfl rfl
  | setMicEnable p m x =>
    refine client_footprint rfl rfl fun u => ?_
    split
    · exact readOk_touches (enableMic_touches _ _ _) _
    · exact Touches.refl _ _
  | setMicColour p m c =>
    refine client_footprint rfl rfl fun u => ?_
    split
    · exact setChannel_touches _ _ _
    · exact Touches.refl _ _
  | setPart p m x =>
    refine client_footprint rfl rfl fun u => ?_
    split
    · exact readOk_touches (Touches.ite ((setChannel_touches _ _ _).mono rfl)
        (changePart_touches _ _ _)) _
    · exact Touches.refl _ _
  | setScoring p a b c d e f g h =>
    refine client_footprint rfl rfl fun u => ?_
    split
    · exact Touches.refl _ _
    · exact setScoringBlock_touches _ _
  | toneCheck p m n =>
    refine client_footprint rfl rfl ?_
    exact (toneCheckBlock_touches _ _)
  | voiceRead p => exact read rfl rfl
  | resultRead p a n =>
    refine client_footprint rfl rfl ?_
    exact (resultReadBlock_touches _ _)
  | resultTake p n =>
    refine client_footprint rfl rfl ?_
    exact (resultTakeBlock_touches _)
  | bestRead p => exact read rfl rfl
  | bestClear p =>
    refine client_footprint rfl rfl ?_
    exact fun u => best_touches _ _
  | noticeTake p =>
    refine client_footprint rfl rfl ?_
    exact (noticeTakeBlock_touches _)
  | noticeMask p m =>
    have h : ∀ u : State, Touches [.links] u (u.mapPort p fun q => { q with mask := m }) :=
      fun u => mapPort_links u p _ rfl
    obtain ⟨t, run, touched⟩ := client_footprint (i := .noticeMask p m) (s := s) rfl rfl h
    exact ⟨t, run, touched.mono rfl⟩
  | ident p => exact read rfl rfl
  | _ => cases h

/-- Every command runs to a next state that differs in its footprint alone. -/
theorem exec_footprint (i : Instr) (s : State) :
    ∃ t, exec i s = .next t ∧ Touches (footprint i) s t := by
  cases h : frameOf i with
  | none => exact event_footprint h s
  | some x => exact clientCommand_footprint h s

/-! ## A step, and what a client command comes to before its block -/

/-- Settles O1: by the two cases of the queue. -/
theorem stepRunsTheFrontCommand : Obligations.StepRunsTheFrontCommand := by
  refine ⟨fun s c rest h => ?_, fun s h => ?_⟩
  · simp only [step, h]
  · simp only [step, h]

/-- No command touches the queue. -/
theorem footprint_pending (i : Instr) : (footprint i).contains .pending = false := by
  cases i <;> rfl

/-- What is not in a command's footprint stays as it is. -/
theorem exec_same {i : Instr} {s t : State} (run : exec i s = .next t) {k : Piece}
    (hk : (footprint i).contains k = false) : k.same s t := by
  obtain ⟨u, run', touched⟩ := exec_footprint i s
  obtain rfl : u = t := Host.Outcome.next.inj (run'.symm.trans run)
  exact touched k fun mem => Bool.false_ne_true (hk.symm.trans (List.contains_iff_mem.mpr mem))

theorem exec_next (i : Instr) (s : State) : ∃ t, exec i s = .next t ∧ t.pending = s.pending := by
  obtain ⟨t, run, -⟩ := exec_footprint i s
  exact ⟨t, run, exec_same run (footprint_pending i)⟩

/-- A client command is its port's part around some block; FONT-MAINT-BEGIN, which may wait, is not. -/
theorem exec_clientCommand {i : Instr} {p : Port} {f : Frame} (h : frameOf i = some (p, f))
    (hm : ∀ q, i ≠ .fontMaintBegin q) : ∃ block, ∀ s, exec i s = clientCommand i s block := by
  cases i with
  | fontMaintBegin q => exact absurd rfl (hm q)
  | _ => cases h <;> exact ⟨_, fun _ => rfl⟩

/-- Where the port cannot take the frame nothing changes; where the command is not permitted it is
answered before any block (R188, logs 8 and 9). -/
theorem exec_before_block {i : Instr} {p : Port} {f : Frame} (h : frameOf i = some (p, f))
    (s : State) :
    ((s.port p).admits f = false → exec i s = .next s) ∧
    ((s.port p).admits f = true → permitted f.code p = false →
      exec i s = .next ((s.accept p f).reply p f.code .notPermitted [])) := by
  by_cases hm : ∃ q, i = .fontMaintBegin q
  · obtain ⟨q, rfl⟩ := hm
    obtain ⟨rfl, rfl⟩ : q = p ∧ maintBeginFrame = f := Prod.mk.inj (Option.some.inj h)
    change (_ → execFontMaintBegin q s = _) ∧ (_ → _ → execFontMaintBegin q s = _)
    unfold execFontMaintBegin
    refine ⟨fun ha => by rw [if_neg (by simp [ha])], fun ha hp => ?_⟩
    rw [if_pos ha, if_neg (by simpa [maintBeginFrame] using hp)]
    rfl
  · obtain ⟨block, run⟩ := exec_clientCommand h fun q hq => hm ⟨q, hq⟩
    rw [run, clientCommand_eq h]
    exact ⟨fun ha => by rw [command_notDue block ha], fun ha hp => by
      rw [command_forbidden block ha hp]⟩

theorem exec_forbidden_runs {i : Instr} {p : Port} {f : Frame} {s : State}
    (h : frameOf i = some (p, f)) (ha : (s.port p).admits f = true)
    (hp : permitted f.code p = false) : ∃ t, Runs i [] .notPermitted [] s t :=
  ⟨_, ((exec_before_block h s).2 ha hp),
    (accept_touches _ _ _).trans (reply_touches _ _ _ _ _), p, f, h,
    answers_of _ _ fun _ => rfl⟩

theorem namesCommand_iff (code : Byte) :
    namesCommand code = true ↔ 1 ≤ code.toNat ∧ code.toNat ≤ 0x4C := by
  simp [namesCommand]

/-- The rows of the table of 11.2: first and last code, and the ports the commands are marked for. -/
def permissionRows : List (Nat × Nat × List Port) :=
  let cv := consoleVenue
  let pcv := allPorts
  [(0x01, 0x05, cv), (0x06, 0x0C, [.venue]), (0x0D, 0x0E, pcv),
    (0x0F, 0x11, [.venue]), (0x12, 0x12, pcv),
    (0x13, 0x14, [.playback]), (0x15, 0x16, cv), (0x17, 0x17, pcv),
    (0x18, 0x1A, [.playback]), (0x1B, 0x1C, [.console]), (0x1D, 0x1E, pcv),
    (0x1F, 0x25, [.playback]), (0x26, 0x26, [.playback, .console]), (0x27, 0x27, pcv),
    (0x28, 0x2C, cv), (0x2D, 0x2D, pcv), (0x2E, 0x34, [.venue]), (0x35, 0x37, pcv),
    (0x38, 0x3D, cv), (0x3E, 0x3E, pcv), (0x3F, 0x41, cv), (0x42, 0x42, [.console]),
    (0x43, 0x43, [.venue]), (0x44, 0x44, pcv), (0x45, 0x45, cv), (0x46, 0x47, [.venue]),
    (0x48, 0x48, pcv), (0x49, 0x4B, pcv), (0x4C, 0x4C, [.venue])]

/-- The 76 codes, one by one, on the three ports. -/
theorem permitted_ofNat_of_row : ∀ r ∈ permissionRows, ∀ n ∈ List.range' r.1 (r.2.1 + 1 - r.1),
    ∀ p ∈ allPorts, permitted (BitVec.ofNat 8 n) p = decide (p ∈ r.2.2) := by decide

theorem permittedOn_of_row {r : Nat × Nat × List Port} (hr : r ∈ permissionRows) {code : Byte}
    (low : r.1 ≤ code.toNat) (high : code.toNat ≤ r.2.1) : PermittedOn code r.2.2 := by
  intro p
  have mem : code.toNat ∈ List.range' r.1 (r.2.1 + 1 - r.1) := List.mem_range'_1.mpr (by omega)
  have port : p ∈ allPorts := by cases p <;> decide
  have row := permitted_ofNat_of_row r hr _ mem p port
  rw [BitVec.ofNat_toNat, BitVec.setWidth_eq] at row
  rw [row, decide_eq_true_iff]

/-- Settles O2: the footprint of every command leaves the queue out; the catalogue and the permissions
row by row; a client command by the port's part. -/
theorem everyCommandIsAnswered : Obligations.EveryCommandIsAnswered := by
  refine ⟨⟨exec_next, fun s => ?runs⟩, fun i => ?codes, namesCommand_iff, ?rows, ?before⟩
  case runs =>
    unfold State.runsOn step
    split
    · exact ⟨_, rfl⟩
    · obtain ⟨t, run, -⟩ := exec_next _ _
      exact ⟨t, run⟩
  case codes => cases i <;> rfl
  case rows => exact fun r hr code => permittedOn_of_row hr
  case before =>
    exact fun i p f s h => ⟨(exec_before_block h s).1, exec_forbidden_runs h⟩

end Sys2Proof.Machine
end

section
/-! What every step keeps: a property that depends on some pieces of the state is kept once it is kept
by the commands whose footprint meets them. Here also the invariants at reset and the font flash. -/

namespace Sys2Proof.Machine

/-! ## From the commands to the step -/

/-- A property that depends on these pieces alone. -/
def DependsOn (ks : List Piece) (P : State → Prop) : Prop :=
  ∀ s t, (∀ k ∈ ks, k.same s t) → P s → P t

theorem DependsOn.of_touches {ks ls : List Piece} {P : State → Prop} (dep : DependsOn ks P)
    {s t : State} (h : Touches ls s t) (disjoint : (ks.any fun k => ls.contains k) = false)
    (hP : P s) : P t := by
  refine dep s t (fun k hk => h k fun mem => ?_) hP
  have := List.any_eq_false.mp disjoint k hk
  exact this (List.contains_iff_mem.mpr mem)

theorem DependsOn.and {ks ls : List Piece} {P Q : State → Prop} (hP : DependsOn ks P)
    (hQ : DependsOn ls Q) : DependsOn (ks ++ ls) fun s => P s ∧ Q s :=
  fun s t h hs => ⟨hP s t (fun k hk => h k (List.mem_append_left _ hk)) hs.1,
    hQ s t (fun k hk => h k (List.mem_append_right _ hk)) hs.2⟩

/-- Whether a command may touch one of the pieces. -/
def concerns (ks : List Piece) (i : Instr) : Bool := ks.any fun k => (footprint i).contains k

/-- A client command keeps what its block keeps, if the ports' links do not matter to it. -/
theorem clientCommand_keeps {ks : List Piece} {P : State → Prop} (dep : DependsOn ks P)
    (links : (ks.any fun k => [Piece.links].contains k) = false) {i : Instr} {s t : State}
    {block : State → Taken} (hs : P s) (run : exec i s = .next t)
    (he : exec i s = clientCommand i s block) (h : ∀ u, P u → P (block u).state) : P t := by
  rw [he] at run
  unfold clientCommand at run
  split at run
  next p f hf =>
    obtain rfl := Host.Outcome.next.inj run
    have accepted : P (s.accept p f) := dep.of_touches (accept_touches _ _ _) links hs
    unfold State.command
    split_ifs
    · exact dep.of_touches (reply_touches _ _ _ _ _) links (h _ accepted)
    · exact dep.of_touches (reply_touches _ _ _ _ _) links accepted
    · exact hs
  next =>
    obtain rfl := Host.Outcome.next.inj run
    exact hs

/-- An event that its cause guards keeps what its effect keeps. -/
theorem guarded_keeps {P : State → Prop} {c : Prop} [Decidable c] {s t u : State} (h : P u)
    (hs : P s) (run : (if c then .next u else .next s : Answered) = .next t) : P t := by
  split at run <;> obtain rfl := Host.Outcome.next.inj run
  · exact h
  · exact hs

/-! ## The tick's rows -/

theorem ran_append {is js : List Instr} {s t u : State} (h : Ran is s t) (g : Ran js t u) :
    Ran (is ++ js) s u := by
  induction is generalizing s with
  | nil => obtain rfl : t = s := h; exact g
  | cons i is ih =>
    obtain ⟨v, run, rest⟩ := h
    exact ⟨v, run, ih rest⟩

theorem ran_map_foldl {α : Type} {row : α → Instr} {f : State → α → State}
    (h : ∀ s x, exec (row x) s = .next (f s x)) (xs : List α) (s : State) :
    Ran (xs.map row) s (xs.foldl f s) := by
  induction xs generalizing s with
  | nil => rfl
  | cons x xs ih => exact ⟨_, h s x, ih _⟩

/-- What a tick finds overdue it makes as the intervals' own rows would have (log 11). -/
theorem ran_makeOverdue (s : State) : Ran intervalRows s s.makeOverdue := by
  have loop : Ran [.replyWindowExpiry, .replyByteTimeout, .badReplyQuietExpiry, .cycleGapExpiry] s
      s.endWindow.cutReply.endBadReply.endGap := ⟨_, rfl, _, rfl, _, rfl, _, rfl, rfl⟩
  have stalls := fun u => ran_map_foldl (row := .stallTimerExpiry) (f := State.endStall)
    (fun _ _ => rfl) slotNumbers u
  have checks := fun u => ran_map_foldl (row := .checkComplete) (f := State.endCheck)
    (fun _ _ => rfl) slotNumbers u
  have scrubs := fun u => ran_map_foldl (row := .scrubComplete) (f := State.endScrub)
    (fun _ _ => rfl) slotNumbers u
  have others : ∀ u : State, Ran [.scoreShowExpiry, .flashOperationTimeout, .inputLossTimeout,
      .audioLossTimeout] u u.passScoreShow.timeOutFlash.missInput.missAudio :=
    fun u => ⟨_, rfl, _, rfl, _, rfl, _, rfl, rfl⟩
  exact ran_append (ran_append (ran_append (ran_append loop (stalls _)) (checks _)) (scrubs _))
    (others _)

theorem ran_keeps {P : State → Prop} {is : List Instr}
    (h : ∀ i ∈ is, ∀ s t, P s → exec i s = .next t → P t) {s t : State} (run : Ran is s t)
    (hs : P s) : P t := by
  induction is generalizing s with
  | nil => obtain rfl : t = s := run; exact hs
  | cons i is ih =>
    obtain ⟨u, first, rest⟩ := run
    exact ih (fun j hj => h j (List.mem_cons_of_mem _ hj)) rest
      (h i List.mem_cons_self _ _ hs first)

/-- A property that depends on some pieces is kept by every step once it is kept by the commands that
concern them; of the tick only its own part is left to see, the intervals being rows themselves. -/
theorem step_keeps {ks : List Piece} {P : State → Prop} (dep : DependsOn ks P)
    (hq : ks.contains .pending = false)
    (rows : ∀ i, i ≠ .timebaseTick → concerns ks i = true → ∀ s t, P s → exec i s = .next t → P t)
    (tick : ∀ s, P s → P s.tickTimers.tickClock) (s t : State) (hs : P s)
    (run : step s = .next t) : P t := by
  have all : ∀ i, i ≠ .timebaseTick → ∀ s t, P s → exec i s = .next t → P t := by
    intro i hi s t hs run
    cases hc : concerns ks i with
    | true => exact rows i hi hc s t hs run
    | false =>
      refine dep s t (fun k hk => exec_same run ?_) hs
      simpa using List.any_eq_false.mp hc k hk
  unfold step at run
  split at run
  · obtain rfl := Host.Outcome.next.inj run
    exact hs
  next c rest _ =>
    have popped : P { s with pending := rest } := by
      refine dep s _ (fun k hk => ?_) hs
      cases k with
      | pending => exact absurd (List.contains_iff_mem.mpr hk) (by rw [hq]; decide)
      | links => exact fun _ => rfl
      | notices => exact fun _ => rfl
      | _ => rfl
    by_cases hc : c = .timebaseTick
    · subst hc
      obtain rfl := Host.Outcome.next.inj run
      refine tick _ (ran_keeps (fun i hi => all i ?_) (ran_makeOverdue _) popped)
      rintro rfl
      exact absurd hi (by decide)
    · exact all c hc _ _ popped run

/-! ## The font flash -/

theorem flashCanonical_dependsOn : DependsOn [.flash] State.flashCanonical := by
  intro s t h hs
  have hf : t.flash = s.flash := h .flash (by decide)
  unfold State.flashCanonical at hs ⊢
  rwa [hf]

theorem apply_wf (op : FlashOp) {m : List Host.Cell} (h : Memory.wf m = true) :
    Memory.wf (op.apply m) = true := by
  cases op with
  | program a d => exact Memory.fill_wf _ _ _ _ h
  | erase x => exact Memory.filter_wf _ h

theorem abandon_wf (op : FlashOp) (n : Nat) {m : List Host.Cell} (h : Memory.wf m = true) :
    Memory.wf (op.abandon n m) = true := Memory.fill_wf _ _ _ _ h

theorem timeOutFlash_flashCanonical {s : State} (hs : s.flashCanonical) :
    s.timeOutFlash.flashCanonical := by
  unfold State.timeOutFlash
  split
  · split
    · exact abandon_wf _ _ hs
    · exact hs
  all_goals exact hs

theorem flashThroughReset_wf {s : State} (hs : s.flashCanonical) :
    Memory.wf s.flashThroughReset.1 = true := by
  unfold State.flashThroughReset
  split
  · exact abandon_wf _ _ hs
  all_goals exact hs

/-- Settles O6: only the end of an operation and a power-on reset within one write the flash, and each
writes by `Memory.fill` or takes cells away. -/
theorem flashStaysCanonical : Obligations.FlashStaysCanonical := by
  refine step_keeps flashCanonical_dependsOn rfl ?rows ?tick
  case tick =>
    exact fun s hs => flashCanonical_dependsOn.of_touches (tickClock_touches _) rfl
      (flashCanonical_dependsOn.of_touches (tickTimers_touches s) rfl hs)
  case rows =>
    intro i hi hc s t hs run
    cases i with
    | powerOnReset =>
      obtain rfl := Host.Outcome.next.inj run
      exact flashThroughReset_wf hs
    | flashOperationDone =>
      change execFlashOperationDone s = _ at run
      unfold execFlashOperationDone at run
      split at run <;> obtain rfl := Host.Outcome.next.inj run
      · exact apply_wf _ hs
      all_goals exact hs
    | flashOperationTimeout =>
      obtain rfl := Host.Outcome.next.inj run
      exact timeOutFlash_flashCanonical hs
    | timebaseTick => exact absurd rfl hi
    | _ => cases hc

/-! ## The invariants at reset -/

theorem reset_slot (i : Fin 4) : State.reset.slots[i] = Slot.empty := by
  fin_cases i <;> rfl

theorem reset_roomAgrees : State.reset.roomAgrees := by
  have noTicket : ∀ (i : Fin 4) n, State.reset.slots[i].ticket ≠ some n := fun i n => by
    rw [reset_slot]; exact nofun
  have notIn : ∀ (i : Fin 4) x, x ≠ .free → State.reset.slots[i].state ≠ x := fun i x hx => by
    rw [reset_slot]; exact fun h => hx h.symm
  refine ⟨⟨by decide, by decide, nofun, nofun, by decide, by decide⟩, by decide, by decide,
    fun i => ?_, fun i _ n h => absurd h (noTicket i n), fun i n h => absurd h (noTicket i n),
    fun i h => absurd h (notIn i _ (by decide)), nofun,
    fun i _ h => absurd h (notIn i _ (by decide)), nofun⟩
  rw [reset_slot]
  exact ⟨fun _ => .inl rfl, fun _ => rfl⟩

theorem reset_titleAgrees : State.reset.titleAgrees :=
  ⟨nofun, nofun, fun _ _ => rfl, fun _ => rfl, nofun⟩

theorem reset_entry (i : Nat) : State.reset.cache.entry i = CacheEntry.empty := by
  unfold Cache.entry
  rw [List.getD_eq_getElem?_getD]
  change ((List.replicate 640 CacheEntry.empty)[i]?).getD CacheEntry.empty = _
  rw [List.getElem?_replicate]
  split <;> rfl

theorem reset_cacheAgrees : State.reset.cacheAgrees := by
  refine ⟨List.length_replicate, fun i j k _ _ h => ?_, fun e he => ?_, List.nodup_nil, fun i => ?_,
    List.nodup_nil, fun i => ?_, nofun, ?_⟩
  · rw [reset_entry] at h; cases h
  · obtain rfl := List.eq_of_mem_replicate he
    simp [CacheEntry.empty]
  · rw [reset_entry]; exact ⟨nofun, fun h => absurd rfl h.2⟩
  · rw [reset_entry]; exact ⟨nofun, fun h => absurd h.2 (by decide)⟩
  · have none : State.reset.cache.entries.filter (fun e => e.state = .fetching .prefetch) = [] :=
      List.filter_replicate_of_neg (by decide)
    rw [none]; exact Nat.zero_le _

theorem reset_channelsAgree : State.reset.channelsAgree := by
  intro m
  fin_cases m <;> exact ⟨by decide, by decide, by decide, by decide, by decide, by decide,
    by decide, by decide, by decide, nofun⟩

/-- Settles O5: every block's reset values, invariant by invariant. -/
theorem invariantsHoldAtReset : Obligations.InvariantsHoldAtReset := by
  refine ⟨⟨Memory.reset_wf, reset_roomAgrees.1, ?clock, ?results⟩, reset_roomAgrees,
    reset_titleAgrees, reset_cacheAgrees, reset_channelsAgree⟩
  case clock =>
    refine ⟨⟨fun _ => rfl, fun _ => rfl⟩, fun _ => rfl, ?_, ?_, ?_, ?_, ?_, ?_, ?_, nofun, nofun, ?_⟩
    all_goals decide
  case results => exact ⟨by decide, List.nodup_nil, by decide, List.nodup_nil, .nil⟩

end Sys2Proof.Machine
end

section
/-! The end of a turn and the clock's motion, for a property that the parts of both keep; the result
store (R178 to R184) as the first such property. -/

namespace Sys2Proof.Machine

/-! ## The clock's motion and the end of a turn -/

/-- A property kept by each part of the clock's motion and by the end of the turn on stage. -/
structure KeptByMotion (P : State → Prop) : Prop where
  clock : ∀ s c, P s → P { s with clock := c }
  flag : ∀ s f, P s → P (s.flagTurn f)
  notices : ∀ s ps n, P s → P (s.raise ps n)
  rebuild : ∀ s, P s → P s.requestRebuild
  lines : ∀ s n, P s → P (s.lineEventsAt n)
  tallied : ∀ s, P s → P s.tallyAllOpen
  passed : ∀ s n, P s → P (s.tallyPassed n)
  ends : ∀ s t r b, s.turn = some t → P s → P (s.endTurn t r b)

namespace KeptByMotion

variable {P : State → Prop} (kept : KeptByMotion P)
include kept

theorem passEnd (s : State) (old new : Nat) (hs : P s) : P (s.passEnd old new) := by
  unfold State.passEnd
  split
  next t e ht he =>
    split
    · exact kept.ends s t _ _ ht hs
    · exact hs
  next => exact hs

theorem advance (s : State) (hs : P s) : P s.advance :=
  kept.passEnd _ _ _ (kept.passed _ _ (kept.lines _ _ (kept.clock s _ hs)))

theorem advanceWhile (n : Nat) (s : State) (hs : P s) : P (State.advanceWhile n s) := by
  induction n generalizing s with
  | zero => exact hs
  | succ n ih =>
    unfold State.advanceWhile
    split
    · exact ih _ (kept.advance s hs)
    · exact hs

theorem tickClock (s : State) (hs : P s) : P s.tickClock := by
  unfold State.tickClock
  split
  · exact kept.advanceWhile _ _ (kept.clock s _ hs)
  · exact hs

theorem jump (s : State) (n : Nat) (hs : P s) : P (s.jump n) :=
  kept.passEnd _ _ _ (kept.tallied _ (kept.rebuild _ (kept.clock _ _ (kept.flag s _ hs))))

theorem seekBlock (n : Nat) (s : State) (hs : P s) : P (seekBlock n s).state := by
  unfold Machine.seekBlock
  simp only [apply_ite Taken.state]
  split_ifs
  · exact hs
  · exact hs
  · exact kept.clock s _ hs
  · exact kept.jump s n hs

theorem syncBlock (n : Nat) (s : State) (hs : P s) : P (syncBlock n s).state := by
  unfold Machine.syncBlock
  simp only [apply_ite Taken.state]
  split_ifs
  · exact hs
  · exact hs
  · exact kept.clock s _ hs
  · exact kept.jump _ n (kept.notices _ _ _ (kept.flag _ _ (kept.clock s _ hs)))

end KeptByMotion

/-- END-TURN at the Turn Controller (R51). -/
def endTurnBlock (ticket : Nat) (reason : Byte) (s : State) : Taken :=
  match endReasonOf reason, s.turnOf ticket with
  | none, _ => refuse s .range
  | some _, none => refuse s .notOnStage
  | some r, some t => readOk (s.endTurn t r false) (be16 t.ticket)

/-- ABORT-TURN at the Turn Controller (R53). -/
def abortTurnBlock (ticket : Nat) (s : State) : Taken :=
  match s.turnOf ticket with
  | none => refuse s .notOnStage
  | some t => readOk (s.endTurn t .aborted true) (be16 t.ticket)

theorem exec_endTurn (p : Port) (ticket : BitVec 16) (reason : Byte) (s : State) :
    exec (.endTurn p ticket reason) s =
      clientCommand (.endTurn p ticket reason) s (endTurnBlock ticket.toNat reason) := rfl

theorem exec_abortTurn (p : Port) (ticket : BitVec 16) (s : State) :
    exec (.abortTurn p ticket) s =
      clientCommand (.abortTurn p ticket) s (abortTurnBlock ticket.toNat) := rfl

theorem turnOf_eq_some_iff {s : State} {n : Nat} {t : Turn} :
    s.turnOf n = some t ↔ s.turn = some t ∧ t.ticket = n ∧ n ≠ 0 := by
  unfold State.turnOf
  split
  next x hx =>
    by_cases hn : x.ticket = n ∧ n ≠ 0
    · rw [if_pos (by simpa using hn)]
      constructor
      · rintro ⟨⟩; exact ⟨hx, hn⟩
      · exact fun h => h.1 ▸ hx.symm
    · rw [if_neg (by simpa using hn)]
      refine ⟨nofun, fun h => absurd ?_ hn⟩
      obtain rfl : x = t := Option.some.inj (hx.symm.trans h.1)
      exact h.2
  next hn => simp [hn]

theorem KeptByMotion.endTurnBlock {P : State → Prop} (kept : KeptByMotion P) (n : Nat) (r : Byte)
    (s : State) (hs : P s) : P (endTurnBlock n r s).state := by
  unfold Machine.endTurnBlock
  split
  · exact hs
  · exact hs
  next _ ht =>
    rw [readOk_state]
    exact kept.ends s _ _ _ (turnOf_eq_some_iff.mp ht).1 hs

theorem KeptByMotion.abortTurnBlock {P : State → Prop} (kept : KeptByMotion P) (n : Nat)
    (s : State) (hs : P s) : P (abortTurnBlock n s).state := by
  unfold Machine.abortTurnBlock
  split
  · exact hs
  next t ht =>
    rw [readOk_state]
    exact kept.ends s t _ _ (turnOf_eq_some_iff.mp ht).1 hs

/-- A property that the clock, the turn, the notices, the lines, the cache, the compositor, the slots
and the channels do not matter to is kept by the motion once the end of a turn keeps it. -/
theorem DependsOn.keptByMotion {ks : List Piece} {P : State → Prop} (dep : DependsOn ks P)
    (disjoint : (ks.any fun k =>
      [Piece.clock, .turn, .notices, .lines, .cache, .video, .slots, .voice].contains k) = false)
    (ends : ∀ s t r b, s.turn = some t → P s → P (s.endTurn t r b)) : KeptByMotion P := by
  have keeps : ∀ {ls s t}, Touches ls s t →
      (ls.all fun k => [Piece.clock, .turn, .notices, .lines, .cache, .video, .slots, .voice].contains
        k) = true → P s → P t := fun h sub hs => dep.of_touches (h.mono sub) disjoint hs
  exact
    { clock := fun s c => keeps (clock_touches s c) rfl
      flag := fun s f => keeps (flagTurn_touches s f) rfl
      notices := fun s ps n => keeps (raise_touches s ps n) rfl
      rebuild := fun s => keeps (requestRebuild_touches s) rfl
      lines := fun s n => keeps (lineEventsAt_touches s n) rfl
      tallied := fun s => keeps (tallyAllOpen_touches s) rfl
      passed := fun s n => keeps (tallyPassed_touches s n) rfl
      ends := ends }

/-! ## The result ring (R178, R180) -/

theorem loseRecord_ring (s : State) (r : ResultRecord) : (s.loseRecord r).ring = s.ring :=
  loseRecord_touches s r .ring (by decide)

/-- Room for a record: the record of its ticket has left, or else the oldest of a full ring. -/
theorem makeRoom_ring (s : State) (n : Nat) : (s.makeRoom n).ring =
    if s.ring.any (fun r => r.ticket = n) then s.ring.filter fun r => r.ticket ≠ n
    else if Config.ringSize ≤ s.ring.length then s.ring.drop 1 else s.ring := by
  unfold State.makeRoom
  split
  next old hold =>
    have : s.ring.any (fun r => r.ticket = n) = true :=
      by
      have found := List.find?_some hold
      exact List.any_eq_true.mpr ⟨old, List.mem_of_find?_eq_some hold, found⟩
    rw [if_pos this, loseRecord_ring]
  next hnone =>
    have : s.ring.any (fun r => r.ticket = n) = false := by
      simpa [List.find?_eq_none] using hnone
    rw [if_neg (by simp [this])]
    split
    next oldest rest hring =>
      split
      · rw [loseRecord_ring, hring]; rfl
      · rfl
    next hring => simp [hring]

theorem file_ring (s : State) (r : ResultRecord) : (s.file r).ring = (s.makeRoom r.ticket).ring ++ [r] :=
  raise_touches _ _ _ .ring (by decide)

theorem file_best (s : State) (r : ResultRecord) : (s.file r).best = r.offer s.best := by
  have room : (s.makeRoom r.ticket).best = s.best := makeRoom_touches s _ .best (by decide)
  exact (raise_touches _ _ _ .best (by decide)).trans (congrArg r.offer room)

/-- R180: at most 16 records, of distinct tickets. -/
def RingBounded (ring : List ResultRecord) : Prop :=
  ring.length ≤ Config.ringSize ∧ (ring.map (·.ticket)).Nodup

theorem file_ringBounded {s : State} (h : RingBounded s.ring) (r : ResultRecord) :
    RingBounded (s.file r).ring := by
  obtain ⟨len, nodup⟩ := h
  have appended : ∀ ring : List ResultRecord, ring.Sublist s.ring → ring.length < Config.ringSize →
      (∀ x ∈ ring, x.ticket ≠ r.ticket) → RingBounded (ring ++ [r]) := by
    intro ring sub short fresh
    refine ⟨by simpa using short, ?_⟩
    rw [List.map_append]
    refine List.Nodup.append (nodup.sublist (sub.map _)) (List.nodup_singleton _) ?_
    intro n hn hr
    obtain ⟨x, hx, rfl⟩ := List.mem_map.mp hn
    exact fresh x hx (List.mem_singleton.mp hr)
  rw [file_ring, makeRoom_ring]
  split
  next held =>
    refine appended _ List.filter_sublist ?_ fun x hx => by simpa using (List.mem_filter.mp hx).2
    obtain ⟨x, hx, ht⟩ := List.any_eq_true.mp held
    refine lt_of_lt_of_le (List.length_filter_lt_length_iff_exists.mpr ⟨x, hx, ?_⟩) len
    simpa using ht
  next free =>
    have fresh : ∀ x ∈ s.ring, x.ticket ≠ r.ticket := by simpa using free
    split
    next full =>
      refine appended _ (List.drop_sublist _ _) ?_ fun x hx => fresh x (List.mem_of_mem_drop hx)
      rw [List.length_drop]
      have : 0 < Config.ringSize := by decide
      omega
    next short => exact appended _ (List.Sublist.refl _) (Nat.lt_of_not_le short) fresh

/-! ## The best list (R183) -/

/-- R183: at most 5 entries, of distinct tickets, in descending order of headline. -/
def BestBounded (best : List BestEntry) : Prop :=
  best.length ≤ Config.bestSize ∧ (best.map (·.ticket)).Nodup ∧
    best.Pairwise (fun a b => b.headline ≤ a.headline)

/-- An entered copy stands between two parts of the list: before it headlines at or above its own,
behind it, in a descending list, only lower ones. -/
theorem enterBest_split (xs : List BestEntry) (x : BestEntry)
    (desc : xs.Pairwise fun a b => b.headline ≤ a.headline) : ∃ ahead behind,
    xs = ahead ++ behind ∧ enterBest xs x = ahead ++ x :: behind ∧
      (∀ y ∈ ahead, x.headline ≤ y.headline) ∧ ∀ y ∈ behind, y.headline < x.headline := by
  refine ⟨_, _, (List.takeWhile_append_dropWhile (p := fun y : BestEntry =>
    decide (x.headline ≤ y.headline))).symm, rfl, fun y hy => by
      simpa using List.mem_takeWhile_imp hy, ?_⟩
  induction xs with
  | nil => nofun
  | cons y ys ih =>
    rw [List.pairwise_cons] at desc
    by_cases hy : x.headline ≤ y.headline
    · rw [List.dropWhile_cons_of_pos (by simpa using hy)]
      exact ih desc.2
    · rw [List.dropWhile_cons_of_neg (by simpa using hy)]
      intro z hz
      rcases List.mem_cons.mp hz with rfl | hz
      · exact Nat.lt_of_not_le hy
      · exact lt_of_le_of_lt (desc.1 z hz) (Nat.lt_of_not_le hy)

theorem enterBest_bounded {xs : List BestEntry} {x : BestEntry} (h : BestBounded xs)
    (short : xs.length < Config.bestSize) (fresh : ∀ y ∈ xs, y.ticket ≠ x.ticket) :
    BestBounded (enterBest xs x) := by
  obtain ⟨-, nodup, desc⟩ := h
  obtain ⟨ahead, behind, rfl, entered, above, below⟩ := enterBest_split xs x desc
  rw [entered]
  refine ⟨?_, ?_, ?_⟩
  · simp only [List.length_append, List.length_cons] at short ⊢
    omega
  · rw [List.map_append, List.map_cons, List.nodup_middle, List.nodup_cons]
    rw [List.map_append] at nodup
    refine ⟨fun mem => ?_, nodup⟩
    rw [← List.map_append] at mem
    obtain ⟨y, hy, ht⟩ := List.mem_map.mp mem
    exact fresh y hy ht
  · rw [List.pairwise_append] at desc ⊢
    obtain ⟨descAhead, descBehind, across⟩ := desc
    refine ⟨descAhead, List.pairwise_cons.mpr ⟨fun y hy => (below y hy).le, descBehind⟩, ?_⟩
    intro a ha b hb
    rcases List.mem_cons.mp hb with rfl | hb
    · exact above a ha
    · exact across a ha b hb

theorem BestBounded.sublist {xs ys : List BestEntry} (h : BestBounded xs) (sub : ys.Sublist xs) :
    BestBounded ys :=
  ⟨sub.length_le.trans h.1, h.2.1.sublist (sub.map _), h.2.2.sublist sub⟩

theorem offerBest_bounded {xs : List BestEntry} (h : BestBounded xs) (x : BestEntry) :
    BestBounded (offerBest xs x) := by
  have others := h.sublist (List.filter_sublist (p := fun y => y.ticket ≠ x.ticket))
  have fresh : ∀ y ∈ xs.filter (fun y => y.ticket ≠ x.ticket), y.ticket ≠ x.ticket :=
    fun y hy => by simpa using (List.mem_filter.mp hy).2
  unfold offerBest
  simp only
  split
  next short => exact enterBest_bounded others short fresh
  next full =>
    split
    · split
      · refine enterBest_bounded (others.sublist (List.dropLast_sublist _)) ?_
          fun y hy => fresh y (List.dropLast_subset _ hy)
        rw [List.length_dropLast]
        have := others.1
        have : 0 < Config.bestSize := by decide
        omega
      · exact others
    · exact others

theorem offer_bounded {xs : List BestEntry} (h : BestBounded xs) (r : ResultRecord) :
    BestBounded (r.offer xs) := by
  unfold ResultRecord.offer
  split
  · exact offerBest_bounded h _
  · exact h

/-! ## Every step -/

theorem resultsBounded_iff (s : State) :
    s.resultsBounded ↔ RingBounded s.ring ∧ BestBounded s.best := by
  simp only [State.resultsBounded, RingBounded, BestBounded, and_assoc]

theorem resultsBounded_dependsOn : DependsOn [.ring, .best] State.resultsBounded := by
  intro s t h hs
  have ring : t.ring = s.ring := h .ring (by decide)
  have best : t.best = s.best := h .best (by decide)
  rw [resultsBounded_iff] at hs ⊢
  rwa [ring, best]

theorem file_resultsBounded {s : State} (hs : s.resultsBounded) (r : ResultRecord) :
    (s.file r).resultsBounded := by
  rw [resultsBounded_iff] at hs ⊢
  exact ⟨file_ringBounded hs.1 r, file_best s r ▸ offer_bounded hs.2 r⟩

/-- What the end of a turn does behind the filing of its record. -/
theorem endTurn_after_file (s : State) (t : Turn) (r : EndReason) (b : Bool) :
    Touches [.slots, .clock, .lines, .cache, .turn, .notices, .book]
      (s.tallyAllOpen.file (s.tallyAllOpen.resultOf t r)) (s.endTurn t r b) := by
  unfold State.endTurn
  simp only
  refine Touches.trans ?_ ((testCall_touches _).mono rfl)
  refine Touches.trans ?_ ((raise_touches _ _ _).mono rfl)
  refine Touches.trans ?_ ((turn_touches _ _).mono rfl)
  refine Touches.trans ?_ ((startScoreShow_touches _ _).mono rfl)
  refine Touches.trans ?_ ((emptyWindow_touches _).mono rfl)
  refine Touches.trans ?_ ((clock_touches _ _).mono rfl)
  exact (scrubSlot_touches _ _).mono rfl

theorem endTurn_resultsBounded {s : State} (hs : s.resultsBounded) (t : Turn) (r : EndReason)
    (b : Bool) : (s.endTurn t r b).resultsBounded := by
  have tallied := resultsBounded_dependsOn.of_touches (tallyAllOpen_touches s) rfl hs
  exact resultsBounded_dependsOn.of_touches (endTurn_after_file s t r b) rfl
    (file_resultsBounded tallied _)

theorem resultsBounded_keptByMotion : KeptByMotion State.resultsBounded :=
  resultsBounded_dependsOn.keptByMotion rfl fun _ t r b _ hs => endTurn_resultsBounded hs t r b

theorem resultTakeBlock_resultsBounded (n : Nat) (s : State) (hs : s.resultsBounded) :
    (resultTakeBlock n s).state.resultsBounded := by
  unfold resultTakeBlock
  split
  · have tickets : ((s.ring.map fun r : ResultRecord =>
        if r.ticket = n then { r with collected := true } else r).map (·.ticket)) =
        s.ring.map (·.ticket) := by
      rw [List.map_map]
      refine List.map_congr_left fun r _ => ?_
      simp only [Function.comp]
      split <;> rfl
    obtain ⟨⟨len, nodup⟩, best⟩ := (resultsBounded_iff s).mp hs
    rw [readOk_state, resultsBounded_iff]
    exact ⟨⟨(List.length_map _).le.trans len, tickets ▸ nodup⟩, best⟩
  · exact hs

theorem resultsBounded_of_empty {s : State} (ring : s.ring = []) (best : s.best = []) :
    s.resultsBounded := by
  rw [resultsBounded_iff, ring, best]
  exact ⟨⟨Nat.zero_le _, List.nodup_nil⟩, Nat.zero_le _, List.nodup_nil, .nil⟩

theorem resetBlocks_resetNotices_ring (s : State) : s.resetBlocks.resetNotices.ring = [] :=
  (resetNotices_touches _ .ring (by decide)).trans (retitle_touches _ .ring (by decide))

theorem resetBlocks_resetNotices_best (s : State) : s.resetBlocks.resetNotices.best = [] :=
  (resetNotices_touches _ .best (by decide)).trans (retitle_touches _ .best (by decide))

/-- Settles O9: a filing makes room before it appends, and an offer enters only where there is room; a
session reset empties both lists. -/
theorem resultsStayBounded : Obligations.ResultsStayBounded := by
  have client := @clientCommand_keeps _ _ resultsBounded_dependsOn rfl
  refine step_keeps resultsBounded_dependsOn rfl ?rows ?tick
  case tick =>
    exact fun s hs => resultsBounded_keptByMotion.tickClock _
      (resultsBounded_dependsOn.of_touches (tickTimers_touches s) rfl hs)
  case rows =>
    intro i hi hc s t hs run
    cases i with
    | powerOnReset =>
      obtain rfl := Host.Outcome.next.inj run
      exact resultsBounded_of_empty rfl rfl
    | sessionReset p =>
      refine client hs run rfl fun u _ => ?_
      rw [readOk_state]
      exact resultsBounded_of_empty (resetBlocks_resetNotices_ring u)
        (resetBlocks_resetNotices_best u)
    | endTurn p n r => exact client hs run rfl (resultsBounded_keptByMotion.endTurnBlock _ _)
    | abortTurn p n => exact client hs run rfl (resultsBounded_keptByMotion.abortTurnBlock _)
    | seek p n => exact client hs run rfl (resultsBounded_keptByMotion.seekBlock _)
    | sync p n => exact client hs run rfl (resultsBounded_keptByMotion.syncBlock _)
    | resultTake p n => exact client hs run rfl (resultTakeBlock_resultsBounded _)
    | bestClear p =>
      refine client hs run rfl fun u hu => ?_
      exact (resultsBounded_iff _).mpr ⟨((resultsBounded_iff u).mp hu).1, Nat.zero_le _,
        List.nodup_nil, .nil⟩
    | timebaseTick => exact absurd rfl hi
    | _ => cases hc

end Sys2Proof.Machine
end

section
/-! Tickets (R2): the number an acceptance issues, and that every step keeps the tickets distinct. -/

namespace Sys2Proof.Machine

/-! ## The number issued -/

/-- The number a given count of steps from a ticket on, 65,535 being followed by 1. -/
def ticketFrom (t k : Nat) : Nat := (t - 1 + k) % 65535 + 1

theorem ticketFrom_zero {t : Nat} (h1 : 1 ≤ t) (h2 : t ≤ 65535) : ticketFrom t 0 = t := by
  unfold ticketFrom; omega

theorem ticketFrom_ticketAfter {t : Nat} (h1 : 1 ≤ t) (h2 : t ≤ 65535) (k : Nat) :
    ticketFrom (ticketAfter t) k = ticketFrom t (k + 1) := by
  unfold ticketFrom ticketAfter
  split <;> omega

theorem ticketAfter_mem {t : Nat} (h : t ≤ 65535) : 1 ≤ ticketAfter t ∧ ticketAfter t ≤ 65535 := by
  unfold ticketAfter
  split <;> omega

theorem ticketFrom_mem (t k : Nat) : 1 ≤ ticketFrom t k ∧ ticketFrom t k ≤ 65535 := by
  unfold ticketFrom
  omega

theorem ticketFrom_injective {t j k : Nat} (hj : j < 34) (hk : k < 34)
    (h : ticketFrom t j = ticketFrom t k) : j = k := by
  unfold ticketFrom at h
  omega

/-- The search stops at the first number that is not held, or after its number of tries. -/
theorem freeTicket_spec (held : Nat → Bool) (n : Nat) {t : Nat} (h1 : 1 ≤ t) (h2 : t ≤ 65535) :
    ∃ k ≤ n, freeTicket held n t = ticketFrom t k ∧ (∀ j < k, held (ticketFrom t j) = true) ∧
      (k < n → held (ticketFrom t k) = false) := by
  induction n generalizing t with
  | zero => exact ⟨0, le_rfl, (ticketFrom_zero h1 h2).symm, nofun, nofun⟩
  | succ n ih =>
    unfold freeTicket
    cases ht : held t with
    | false =>
      refine ⟨0, Nat.zero_le _, (ticketFrom_zero h1 h2).symm, nofun, fun _ => ?_⟩
      rw [ticketFrom_zero h1 h2, ht]
    | true =>
      obtain ⟨low, high⟩ := ticketAfter_mem h2
      obtain ⟨k, hk, found, before, after⟩ := ih low high
      simp only [ticketFrom_ticketAfter h1 h2] at found before after
      refine ⟨k + 1, by omega, found, fun j hj => ?_, fun hlt => after (by omega)⟩
      cases j with
      | zero => rw [ticketFrom_zero h1 h2, ht]
      | succ j => exact before j (by omega)

/-- The tickets held by the Book and the stage. -/
def State.heldTickets (s : State) : List Nat :=
  s.book.entries.map (·.ticket) ++ (s.turn.map (·.ticket)).toList

theorem onStage_iff {s : State} {n : Nat} :
    s.onStage n = true ↔ ∃ t, s.turn = some t ∧ t.ticket = n := by
  unfold State.onStage
  cases s.turn <;> simp

theorem holds_iff {b : Book} {n : Nat} : b.holds n = true ↔ ∃ e ∈ b.entries, e.ticket = n := by
  simp [Book.holds]

theorem mem_heldTickets {s : State} {n : Nat} :
    n ∈ s.heldTickets ↔ (s.book.holds n || s.onStage n) = true := by
  rw [Bool.or_eq_true, holds_iff, onStage_iff]
  simp [State.heldTickets]

theorem heldTickets_length (s : State) : s.heldTickets.length ≤ s.book.entries.length + 1 := by
  unfold State.heldTickets
  cases s.turn <;> simp

/-- 34 numbers in a row cannot all be held by the at most 33 holders. -/
theorem exists_free_ticketFrom {s : State} (len : s.book.entries.length ≤ Config.bookSize) (t : Nat) :
    ∃ k < 34, ticketFrom t k ∉ s.heldTickets := by
  by_contra all
  push Not at all
  have nodup : ((List.range 34).map (ticketFrom t)).Nodup := by
    refine List.Nodup.map_on (fun j hj k hk => ?_) List.nodup_range
    exact ticketFrom_injective (List.mem_range.mp hj) (List.mem_range.mp hk)
  have sub : ((List.range 34).map (ticketFrom t)) ⊆ s.heldTickets := by
    intro n hn
    obtain ⟨k, hk, rfl⟩ := List.mem_map.mp hn
    exact all k (List.mem_range.mp hk)
  have many := (List.subperm_of_subset nodup sub).length_le
  rw [List.length_map, List.length_range] at many
  have few := heldTickets_length s
  have : Config.bookSize = 32 := rfl
  omega

/-- R2: the next ticket is the first number from the counter on that is not held. -/
theorem issueTicket_spec {s : State} (h : s.ticketsDistinct) : ∃ k < 34,
    s.issueTicket = ticketFrom s.book.nextTicket k ∧
      ticketFrom s.book.nextTicket k ∉ s.heldTickets ∧
      ∀ j < k, ticketFrom s.book.nextTicket j ∈ s.heldTickets := by
  obtain ⟨len, -, -, -, low, high⟩ := h
  obtain ⟨k, hk, found, before, after⟩ :=
    freeTicket_spec (fun n => s.book.holds n || s.onStage n) 34 low high
  have held : ∀ j < k, ticketFrom s.book.nextTicket j ∈ s.heldTickets :=
    fun j hj => mem_heldTickets.mpr (before j hj)
  have short : k < 34 := by
    refine lt_of_le_of_ne hk fun all => ?_
    obtain ⟨j, hj, free⟩ := exists_free_ticketFrom len s.book.nextTicket
    exact free (held j (all ▸ hj))
  refine ⟨k, short, found, fun mem => ?_, held⟩
  rw [mem_heldTickets, after short] at mem
  exact Bool.false_ne_true mem

theorem issueTicket_fresh {s : State} (h : s.ticketsDistinct) :
    s.issueTicket ∉ s.heldTickets ∧ 1 ≤ s.issueTicket ∧ s.issueTicket ≤ 65535 := by
  obtain ⟨k, -, issued, free, -⟩ := issueTicket_spec h
  rw [issued]
  exact ⟨free, ticketFrom_mem _ _⟩

/-- Settles O14: the search of `freeTicket`, which cannot run through 34 held numbers. -/
theorem ticketsAreIssuedInOrder : Obligations.TicketsAreIssuedInOrder := by
  intro s h
  obtain ⟨k, hk, issued, free, before⟩ := issueTicket_spec h
  have held : ∀ n, n ∈ s.heldTickets ↔ (∃ e ∈ s.book.entries, e.ticket = n) ∨ s.onStage n = true := by
    intro n
    rw [mem_heldTickets, Bool.or_eq_true, holds_iff]
  exact ⟨k, hk, issued, fun hn => free ((held _).mpr hn), fun j hj => (held _).mp (before j hj)⟩

/-! ## The tickets of the Book and the stage -/

/-- R2 of the tickets alone: those of the entries, the counter, and the turn's. -/
def TicketsOk (tickets : List Nat) (next : Nat) (stage : Option Nat) : Prop :=
  tickets.length ≤ Config.bookSize ∧ tickets.Nodup ∧ (∀ n ∈ tickets, stage ≠ some n) ∧
    (∀ n ∈ tickets, 1 ≤ n ∧ n ≤ 65535) ∧ 1 ≤ next ∧ next ≤ 65535

/-- The tickets of the entries, in running order. -/
def Book.tickets (b : Book) : List Nat := b.entries.map (·.ticket)

theorem ticketsDistinct_iff (s : State) :
    s.ticketsDistinct ↔ TicketsOk s.book.tickets s.book.nextTicket (s.turn.map (·.ticket)) := by
  have stage : ∀ n, s.onStage n = false ↔ s.turn.map (·.ticket) ≠ some n := by
    intro n
    unfold State.onStage
    cases s.turn <;> simp
  simp only [State.ticketsDistinct, TicketsOk, Book.tickets, List.length_map, List.forall_mem_map,
    stage]

/-- The tickets stay distinct where entries have only left, been reordered, or changed in other
fields, and the turn's is none or as before. -/
theorem ticketsDistinct_of_subperm {s t : State} (h : s.ticketsDistinct)
    (sub : t.book.tickets.Subperm s.book.tickets) (next : t.book.nextTicket = s.book.nextTicket)
    (stage : t.turn.map (·.ticket) = none ∨ t.turn.map (·.ticket) = s.turn.map (·.ticket)) :
    t.ticketsDistinct := by
  rw [ticketsDistinct_iff] at h ⊢
  obtain ⟨len, nodup, apart, range, counter⟩ := h
  rw [next]
  refine ⟨sub.length_le.trans len, ?_, fun n hn => ?_, fun n hn => range n (sub.subset hn), counter⟩
  · obtain ⟨l, perm, sublist⟩ := sub
    exact perm.nodup_iff.mp (nodup.sublist sublist)
  · rcases stage with stage | stage <;> rw [stage]
    · exact nofun
    · exact apart n (sub.subset hn)

theorem tickets_of_order {b c : Book} (h : b.order = c.order) : b.tickets = c.tickets := by
  have tickets : ∀ d : Book, d.tickets = d.order.map (·.ticket) := fun d => by
    simp [Book.tickets, Book.order]
  rw [tickets, tickets, h]

theorem ticketsDistinct_dependsOn : DependsOn [.book, .turn] State.ticketsDistinct := by
  intro s t h hs
  have book : t.book = s.book := h .book (by decide)
  have turn : t.turn = s.turn := h .turn (by decide)
  rw [ticketsDistinct_iff] at hs ⊢
  rwa [book, turn]

theorem testCall_ticketsDistinct {s : State} (h : s.ticketsDistinct) : s.testCall.ticketsDistinct := by
  obtain ⟨order, rest⟩ := testCall_book s
  refine ticketsDistinct_of_subperm h (tickets_of_order order ▸ .refl _) ?_ (.inr ?_)
  · rw [rest]
  · rw [testCall_touches s .turn (by decide)]

theorem bookChanged_ticketsDistinct {s : State} (h : s.ticketsDistinct) :
    s.bookChanged.ticketsDistinct :=
  testCall_ticketsDistinct (ticketsDistinct_dependsOn.of_touches (changed_touches s) rfl h)

/-! ## The commands of the Book -/

/-- Wherever an entry is inserted, the others keep their order. -/
theorem inserted_split (b : Book) (e : Entry) :
    ∃ ahead behind, b.entries = ahead ++ behind ∧ b.inserted e = ahead ++ e :: behind := by
  unfold Book.inserted
  split
  · exact ⟨_, _, (List.take_append_drop _ _).symm, rfl⟩
  · exact ⟨b.entries, [], (List.append_nil _).symm, rfl⟩
  · refine ⟨_, _, ?_, rfl⟩
    rw [List.append_assoc, List.takeWhile_append_dropWhile, List.take_append_drop]

theorem inserted_perm (b : Book) (e : Entry) : (b.inserted e).Perm (e :: b.entries) := by
  obtain ⟨ahead, behind, split, inserted⟩ := inserted_split b e
  rw [inserted, split]
  exact List.perm_middle

/-- The state of an acceptance before what a change of the Book sets off (R14). -/
def State.withRequest (s : State) (who : Requester) (song : Nat) (tier : Tier) (tag : Option Nat) :
    State :=
  { s with book := { s.book with
      entries := s.book.inserted (s.requestedEntry who song tier tag)
      nextTicket := ticketAfter s.issueTicket
      quotaTimes := match who with
        | .panel p => s.book.quotaTimes.set p.val
            (recordTime s.book.quotaTimes[p] s.sessionTime) p.isLt
        | .port _ => s.book.quotaTimes } }

theorem acceptRequest_state (s : State) (who : Requester) (song : Nat) (tier : Tier)
    (tag : Option Nat) :
    (s.acceptRequest who song tier tag).1 = (s.withRequest who song tier tag).bookChanged := by
  cases who <;> rfl

theorem withRequest_ticketsDistinct {s : State} (h : s.ticketsDistinct)
    (room : s.book.entries.length < Config.bookSize) (who : Requester) (song : Nat) (tier : Tier)
    (tag : Option Nat) : (s.withRequest who song tier tag).ticketsDistinct := by
  obtain ⟨fresh, low, high⟩ := issueTicket_fresh h
  have perm : (s.withRequest who song tier tag).book.tickets.Perm
      (s.issueTicket :: s.book.tickets) :=
    (inserted_perm s.book (s.requestedEntry who song tier tag)).map _
  rw [ticketsDistinct_iff] at h ⊢
  obtain ⟨len, nodup, apart, range, -⟩ := h
  have notMem : s.issueTicket ∉ s.book.tickets := fun mem => fresh (List.mem_append_left _ mem)
  refine ⟨?_, perm.nodup_iff.mpr (List.nodup_cons.mpr ⟨notMem, nodup⟩), fun n hn => ?_,
    fun n hn => ?_, ticketAfter_mem high⟩
  · rw [perm.length_eq, List.length_cons, Book.tickets, List.length_map]
    exact room
  · rcases List.mem_cons.mp (perm.mem_iff.mp hn) with rfl | hn
    · intro stage
      obtain ⟨t, turn, same⟩ := Option.map_eq_some_iff.mp stage
      exact fresh (mem_heldTickets.mpr (by
        rw [onStage_iff (s := s) |>.mpr ⟨t, turn, same⟩, Bool.or_true]))
    · exact apart n hn
  · rcases List.mem_cons.mp (perm.mem_iff.mp hn) with rfl | hn
    · exact ⟨low, high⟩
    · exact range n hn

/-- A request that passes the checks finds room in the Book (R10). -/
theorem room_of_refusal_none {s : State} {who : Requester} {song : Nat} {tier : Tier}
    (h : s.refusal who song tier = none) : s.book.entries.length < Config.bookSize := by
  unfold State.refusal at h
  simp only at h
  split_ifs at h with _ _ _ _ _ _ full
  exact Nat.lt_of_not_le full

theorem acceptRequest_ticketsDistinct {s : State} (h : s.ticketsDistinct) {who : Requester}
    {song : Nat} {tier : Tier} (passed : s.refusal who song tier = none) (tag : Option Nat) :
    (s.acceptRequest who song tier tag).1.ticketsDistinct := by
  rw [acceptRequest_state]
  exact bookChanged_ticketsDistinct
    (withRequest_ticketsDistinct h (room_of_refusal_none passed) who song tier tag)

theorem without_tickets_subperm (b : Book) (n : Nat) :
    ((b.without n).map (·.ticket)).Subperm b.tickets :=
  (List.filter_sublist.map _).subperm

theorem cancelEntry_ticketsDistinct {s : State} (h : s.ticketsDistinct) (e : Entry) :
    (s.cancelEntry e).ticketsDistinct := by
  unfold State.cancelEntry
  simp only
  have book : ((s.withdrawCall e).scrubBound e.ticket).book = s.book :=
    (scrubBound_touches _ _ .book (by decide)).trans (withdrawCall_touches s e .book (by decide))
  have turn : ((s.withdrawCall e).scrubBound e.ticket).turn = s.turn :=
    (scrubBound_touches _ _ .turn (by decide)).trans (withdrawCall_touches s e .turn (by decide))
  refine bookChanged_ticketsDistinct (ticketsDistinct_of_subperm h ?_ ?_ (.inr ?_))
  · simp only [book]
    exact without_tickets_subperm s.book e.ticket
  · simp only [book]
  · simp only [turn]

theorem holder_entry {s : State} {n : Nat} {e : Entry} (h : s.holder n = .entry e) :
    e ∈ s.book.entries ∧ e.ticket = n ∧ n ≠ 0 ∧ s.onStage n = false := by
  unfold State.holder at h
  split at h
  · cases h
  next hn =>
    split at h
    · cases h
    next hs =>
      split at h
      next x hx =>
        cases h
        exact ⟨List.mem_of_find?_eq_some hx, by simpa using List.find?_some hx, hn, by simpa using hs⟩
      · cases h

/-- An entry taken out and put in again, whatever its other fields, leaves the same tickets. -/
theorem reinserted_tickets_subperm {b : Book} (nodup : b.tickets.Nodup) {e x : Entry}
    (mem : e ∈ b.entries) (ticket : x.ticket = e.ticket) {es : List Entry}
    (perm : es.Perm (x :: b.without e.ticket)) : (es.map (·.ticket)).Subperm b.tickets := by
  refine List.subperm_of_subset ?_ fun n hn => ?_
  · rw [(perm.map _).nodup_iff, List.map_cons, List.nodup_cons]
    refine ⟨fun hn => ?_, nodup.sublist (List.filter_sublist.map _)⟩
    obtain ⟨y, hy, same⟩ := List.mem_map.mp hn
    have apart : y.ticket ≠ e.ticket := by simpa using (List.mem_filter.mp hy).2
    exact apart (same.trans ticket)
  · rw [(perm.map _).mem_iff, List.map_cons, List.mem_cons] at hn
    rcases hn with rfl | hn
    · rw [ticket]; exact List.mem_map_of_mem mem
    · exact (without_tickets_subperm b _).subset hn

theorem movedTo_perm (b : Book) (e : Entry) (n : Nat) : ∃ round,
    (b.movedTo e n).Perm ({ e with round := round, moved := true } :: b.without e.ticket) := by
  refine ⟨_, List.perm_middle.trans (List.Perm.cons _ ?_)⟩
  rw [List.take_append_drop]

theorem promoted_perm (b : Book) (e : Entry) :
    (b.promoted e).entries.Perm ({ e with tier := .priority } :: b.without e.ticket) :=
  inserted_perm { b with entries := b.without e.ticket } { e with tier := .priority }

theorem moveBlock_ticketsDistinct (n m : Nat) (s : State) (h : s.ticketsDistinct) :
    (moveBlock n m s).state.ticketsDistinct := by
  unfold moveBlock
  split
  · exact h
  · exact h
  next e he =>
    split
    · exact h
    · obtain ⟨round, perm⟩ := movedTo_perm s.book e (s.book.moveTarget m)
      refine bookChanged_ticketsDistinct (ticketsDistinct_of_subperm h ?_ rfl (.inr rfl))
      exact reinserted_tickets_subperm h.2.1 (holder_entry he).1 (by rfl) perm

theorem promoteBlock_ticketsDistinct (n : Nat) (s : State) (h : s.ticketsDistinct) :
    (promoteBlock n s).state.ticketsDistinct := by
  unfold promoteBlock
  split
  · exact h
  · exact h
  next e he =>
    split_ifs
    · exact h
    · exact h
    · rw [readOk_state]
      refine bookChanged_ticketsDistinct (ticketsDistinct_of_subperm h ?_ rfl (.inr rfl))
      exact reinserted_tickets_subperm h.2.1 (holder_entry he).1 (by rfl) (promoted_perm s.book e)

/-- A setting of the Book that leaves the entries and the counter. -/
theorem mapBook_ticketsDistinct {s : State} (h : s.ticketsDistinct) (f : Book → Book)
    (entries : (f s.book).entries = s.book.entries)
    (next : (f s.book).nextTicket = s.book.nextTicket) : (s.mapBook f).ticketsDistinct := by
  refine ticketsDistinct_of_subperm h ?_ next (.inr rfl)
  change ((f s.book).entries.map _).Subperm _
  rw [entries]
  exact .refl _

theorem uncall_tickets (s : State) : s.uncall.book.tickets = s.book.tickets ∧
    s.uncall.book.nextTicket = s.book.nextTicket := by
  unfold State.uncall
  split
  next e rest he =>
    rw [raise_book]
    exact ⟨by simp [Book.tickets, he], rfl⟩
  · exact ⟨rfl, rfl⟩

theorem holdBlock_ticketsDistinct (s : State) (h : s.ticketsDistinct) :
    (holdBlock s).state.ticketsDistinct := by
  unfold holdBlock
  simp only [readOk_state]
  have held := mapBook_ticketsDistinct h (fun b => { b with held := true }) rfl rfl
  split
  · obtain ⟨tickets, next⟩ := uncall_tickets (s.mapBook fun b => { b with held := true })
    refine bookChanged_ticketsDistinct (ticketsDistinct_of_subperm held ?_ next (.inr ?_))
    · rw [tickets]
    · rw [uncall_touches _ .turn (by decide)]
  · exact held

/-! ## The stage -/

theorem flagTurn_ticketsDistinct {s : State} (h : s.ticketsDistinct) (f : TurnFlags → TurnFlags) :
    (s.flagTurn f).ticketsDistinct := by
  refine ticketsDistinct_of_subperm h ?_ ?_ (.inr ?_)
  · rw [flagTurn_touches s f .book (by decide)]
  · rw [flagTurn_touches s f .book (by decide)]
  · unfold State.flagTurn
    split
    · rfl
    next t ht => rw [ht]; rfl

theorem calledHead_eq_some {b : Book} {e : Entry} (h : b.calledHead = some e) :
    ∃ rest, b.entries = e :: rest ∧ e.state = .called := by
  unfold Book.calledHead at h
  split at h
  · cases h
  next x rest hx =>
    split at h
    next hc => cases h; exact ⟨rest, hx, hc⟩
    · cases h

/-- What a take does behind the changes of the Book, the turn, the clock and the channels. -/
theorem take_book_turn (s : State) (e : Entry) (i : Fin 4) :
    (s.take e i).book.tickets = s.book.tickets.drop 1 ∧
      (s.take e i).book.nextTicket = s.book.nextTicket ∧
      (s.take e i).turn = some (e.turn i s.sessionTime) := by
  unfold State.take
  simp only
  generalize hu : State.raise _ consoleVenue (.turnStarted e.ticket i) = u
  have book : u.book =
      { s.book with entries := s.book.entries.drop 1, lowest := s.book.rotatedBy e } := by
    rw [← hu, raise_book, requestRebuild_touches _ .book (by decide),
      emptyWindow_touches _ .book (by decide), endScoreShow_touches _ .book (by decide),
      abortTone_touches _ .book (by decide)]
    rfl
  have turn : u.turn = some (e.turn i s.sessionTime) := by
    rw [← hu, raise_touches _ _ _ .turn (by decide), requestRebuild_touches _ .turn (by decide),
      emptyWindow_touches _ .turn (by decide), endScoreShow_touches _ .turn (by decide),
      abortTone_touches _ .turn (by decide)]
    rfl
  obtain ⟨order, rest⟩ := bookChanged_book u
  refine ⟨?_, ?_, ?_⟩
  · rw [tickets_of_order order, book]
    exact List.map_drop
  · rw [rest, book]
  · rw [bookChanged_touches u .turn (by decide), turn]

theorem takeBlock_ticketsDistinct (s : State) (h : s.ticketsDistinct) :
    (takeBlock s).state.ticketsDistinct := by
  unfold takeBlock
  split
  · exact h
  · split
    · exact h
    next e called =>
      split
      · exact h
      next i _ =>
        rw [readOk_state]
        obtain ⟨tickets, next, turn⟩ := take_book_turn s e i
        obtain ⟨rest, entries, -⟩ := calledHead_eq_some called
        rw [ticketsDistinct_iff] at h ⊢
        have head : s.book.tickets = e.ticket :: rest.map (·.ticket) := by
          simp [Book.tickets, entries]
        rw [tickets, next, turn, head]
        rw [head] at h
        obtain ⟨len, nodup, -, range, counter⟩ := h
        obtain ⟨notMem, nodup⟩ := List.nodup_cons.mp nodup
        refine ⟨(Nat.le_succ _).trans len, nodup, fun n hn same => ?_,
          fun n hn => range n (List.mem_cons_of_mem _ hn), counter⟩
        obtain rfl : e.ticket = n := Option.some.inj same
        exact notMem hn

/-- The end of a turn leaves the Book's tickets, and the stage EMPTY. -/
theorem endTurn_book_turn (s : State) (t : Turn) (r : EndReason) (b : Bool) :
    (s.endTurn t r b).book.order = s.book.order ∧
      (s.endTurn t r b).book = { s.book with entries := (s.endTurn t r b).book.entries } ∧
      (s.endTurn t r b).turn = none := by
  unfold State.endTurn
  simp only
  generalize hu : State.raise _ _ (.turnEnded t.ticket r) = u
  have book : u.book = s.book := by
    rw [← hu, raise_book, turn_touches _ _ .book (by decide),
      startScoreShow_touches _ _ .book (by decide), emptyWindow_touches _ .book (by decide),
      clock_touches _ _ .book (by decide), scrubSlot_touches _ _ .book (by decide),
      file_touches _ _ .book (by decide), tallyAllOpen_touches _ .book (by decide)]
  have turn : u.turn = none := by
    rw [← hu, raise_touches _ _ _ .turn (by decide)]
  obtain ⟨order, rest⟩ := testCall_book u
  rw [book] at order rest
  exact ⟨order, rest, (testCall_touches u .turn (by decide)).trans turn⟩

theorem endTurn_ticketsDistinct {s : State} (h : s.ticketsDistinct) (t : Turn) (r : EndReason)
    (b : Bool) : (s.endTurn t r b).ticketsDistinct := by
  obtain ⟨order, rest, turn⟩ := endTurn_book_turn s t r b
  refine ticketsDistinct_of_subperm h (tickets_of_order order ▸ .refl _) ?_ (.inl ?_)
  · rw [rest]
  · rw [turn]; rfl

theorem ticketsDistinct_keptByMotion : KeptByMotion State.ticketsDistinct :=
  have dep := @DependsOn.of_touches _
  { clock := fun s c => dep ticketsDistinct_dependsOn (clock_touches s c) rfl
    flag := fun _ f hs => flagTurn_ticketsDistinct hs f
    notices := fun s ps n => dep ticketsDistinct_dependsOn (raise_touches s ps n) rfl
    rebuild := fun s => dep ticketsDistinct_dependsOn (requestRebuild_touches s) rfl
    lines := fun s n => dep ticketsDistinct_dependsOn (lineEventsAt_touches s n) rfl
    tallied := fun s => dep ticketsDistinct_dependsOn (tallyAllOpen_touches s) rfl
    passed := fun s n => dep ticketsDistinct_dependsOn (tallyPassed_touches s n) rfl
    ends := fun _ t r b _ hs => endTurn_ticketsDistinct hs t r b }

/-! ## Every step -/

theorem enqueueBlock_ticketsDistinct (p : Port) (song : Nat) (tier : Byte) (tag : OptionalByte)
    (s : State) (h : s.ticketsDistinct) : (enqueueBlock p song tier tag s).state.ticketsDistinct := by
  unfold enqueueBlock
  split
  · exact h
  · split
    · split
      · exact h
      next passed => exact acceptRequest_ticketsDistinct h passed _
    · exact h

theorem panelRequest_ticketsDistinct {s : State} (h : s.ticketsDistinct) (p : Fin 8) (song : Nat)
    (tag : Option Nat) : (s.panelRequest p song tag).1.ticketsDistinct := by
  unfold State.panelRequest
  split
  · exact h
  next passed => exact acceptRequest_ticketsDistinct h passed _

theorem cancelForPanel_ticketsDistinct {s : State} (h : s.ticketsDistinct) (p : Fin 8) (n : Nat) :
    (s.cancelForPanel p n).1.ticketsDistinct := by
  unfold State.cancelForPanel
  split
  · exact h
  · exact h
  · split
    · exact cancelEntry_ticketsDistinct h _
    · exact h

/-- A panel's request or cancel keeps what the Book's decision keeps, if the loop does not matter. -/
theorem adjudicate_keeps {ks : List Piece} {P : State → Prop} (dep : DependsOn ks P)
    (loop : (ks.any fun k => [Piece.loop].contains k) = false) {s : State} (p : Fin 8)
    (seq : BitVec 4) {decision : State → State × Verdict} (h : P s → P (decision s).1) (hs : P s) :
    P (s.adjudicate p seq decision) := by
  unfold State.adjudicate
  split
  · exact dep.of_touches (mapLoop_touches _ _) loop hs
  · exact dep.of_touches (mapLoop_touches _ _) loop (dep.of_touches (mapLoop_touches _ _) loop (h hs))

theorem endCheck_ticketsDistinct {s : State} (h : s.ticketsDistinct) (i : Fin 4) :
    (s.endCheck i).ticketsDistinct := by
  unfold State.endCheck State.completeCheck
  split
  · split
    · exact testCall_ticketsDistinct
        (ticketsDistinct_dependsOn.of_touches (setSlot_touches s i _) rfl h)
    · exact ticketsDistinct_dependsOn.of_touches (faultSlot_touches s i _ _) rfl h
  · exact h

theorem changePart_ticketsDistinct {s : State} (h : s.ticketsDistinct) (m : Fin 4) (x : Part) :
    (s.changePart m x).ticketsDistinct := by
  have set : ∀ {u : State} c, u.ticketsDistinct → (u.setChannel m c).ticketsDistinct :=
    fun c hu => ticketsDistinct_dependsOn.of_touches (setChannel_touches _ m c) rfl hu
  have tallied := ticketsDistinct_dependsOn.of_touches (tallyOpen_touches s m) rfl h
  unfold State.changePart
  simp only
  split
  · exact flagTurn_ticketsDistinct (set _ (set _ tallied)) _
  · exact set _ (set _ tallied)

/-- A setting of the clock that may flag the turn. -/
theorem mapClock_flagTurn_ticketsDistinct {s : State} (h : s.ticketsDistinct) (c : Prop) [Decidable c]
    (f : Clock → Clock) (g : TurnFlags → TurnFlags) :
    (if c then s.mapClock f else (s.mapClock f).flagTurn g).ticketsDistinct := by
  have set := ticketsDistinct_dependsOn.of_touches (mapClock_touches s f) rfl h
  split
  · exact set
  · exact flagTurn_ticketsDistinct set g

theorem ticketsDistinct_of_empty {s : State} (entries : s.book.entries = [])
    (next : s.book.nextTicket = 1) : s.ticketsDistinct := by
  rw [ticketsDistinct_iff, next, Book.tickets, entries]
  exact ⟨Nat.zero_le _, List.nodup_nil, nofun, nofun, by decide, by decide⟩

theorem resetBlocks_resetNotices_book (s : State) :
    s.resetBlocks.resetNotices.book = s.book.sessionReset := by
  have notices : s.resetBlocks.resetNotices.book = s.resetBlocks.book :=
    resetNotices_touches _ .book (by decide)
  have blocks : s.resetBlocks.book = s.emptyWindow.endScoreShow.book.sessionReset :=
    retitle_touches _ .book (by decide)
  rw [notices, blocks, endScoreShow_touches _ .book (by decide), emptyWindow_touches _ .book (by decide)]

/-- Settles O7: an acceptance issues a ticket that is not held and finds room; every other change of
the Book takes entries out, reorders them or moves the head's ticket to the stage. -/
theorem ticketsStayDistinct : Obligations.TicketsStayDistinct := by
  have client := @clientCommand_keeps _ _ ticketsDistinct_dependsOn rfl
  have motion := ticketsDistinct_keptByMotion
  refine step_keeps ticketsDistinct_dependsOn rfl ?rows ?tick
  case tick =>
    exact fun s hs => motion.tickClock _
      (ticketsDistinct_dependsOn.of_touches (tickTimers_touches s) rfl hs)
  case rows =>
    intro i hi hc s t hs run
    cases i with
    | powerOnReset =>
      obtain rfl := Host.Outcome.next.inj run
      exact ticketsDistinct_of_empty rfl rfl
    | sessionReset p =>
      refine client hs run rfl fun u _ => ?_
      rw [readOk_state]
      exact ticketsDistinct_of_empty (by rw [resetBlocks_resetNotices_book]; rfl)
        (by rw [resetBlocks_resetNotices_book]; rfl)
    | enqueue p song tier tag => exact client hs run rfl (enqueueBlock_ticketsDistinct _ _ _ _)
    | cancel p n =>
      refine client hs run rfl fun u hu => ?_
      unfold cancelBlock
      split
      · exact hu
      · exact hu
      · exact cancelEntry_ticketsDistinct hu _
    | move p n x => exact client hs run rfl (moveBlock_ticketsDistinct _ _)
    | bookHold p => exact client hs run rfl holdBlock_ticketsDistinct
    | bookRelease p =>
      refine client hs run rfl fun u hu => ?_
      rw [readOk_state]
      exact testCall_ticketsDistinct (mapBook_ticketsDistinct hu _ rfl rfl)
    | promote p n => exact client hs run rfl (promoteBlock_ticketsDistinct _)
    | setOrderMode p m r =>
      refine client hs run rfl fun u hu => ?_
      split
      · exact mapBook_ticketsDistinct hu _ rfl rfl
      · exact hu
    | setRotation p o =>
      refine client hs run rfl fun u hu => ?_
      split
      · exact mapBook_ticketsDistinct hu _ rfl rfl
      · exact hu
    | setOriginMask p m =>
      refine client hs run rfl fun u hu => ?_
      split
      · exact mapBook_ticketsDistinct hu _ rfl rfl
      · exact hu
    | setCap p o c =>
      refine client hs run rfl fun u hu => ?_
      split
      · exact mapBook_ticketsDistinct hu _ rfl rfl
      · exact hu
    | setQuota p q w => exact client hs run rfl fun u hu => mapBook_ticketsDistinct hu _ rfl rfl
    | setDuplicatePolicy p x =>
      refine client hs run rfl fun u hu => ?_
      split
      · exact mapBook_ticketsDistinct hu _ rfl rfl
      · exact hu
    | request p seq song tag =>
      exact guarded_keeps (adjudicate_keeps ticketsDistinct_dependsOn rfl p _
        (fun hu => panelRequest_ticketsDistinct hu _ _ _)
        (ticketsDistinct_dependsOn.of_touches (goodReply_touches s p) rfl hs)) hs run
    | panelCancel p seq n =>
      exact guarded_keeps (adjudicate_keeps ticketsDistinct_dependsOn rfl p _
        (fun hu => cancelForPanel_ticketsDistinct hu _ _)
        (ticketsDistinct_dependsOn.of_touches (goodReply_touches s p) rfl hs)) hs run
    | takeTurn p => exact client hs run rfl takeBlock_ticketsDistinct
    | endTurn p n r => exact client hs run rfl (motion.endTurnBlock _ _)
    | abortTurn p n => exact client hs run rfl (motion.abortTurnBlock _)
    | seek p n => exact client hs run rfl (motion.seekBlock _)
    | sync p n => exact client hs run rfl (motion.syncBlock _)
    | checkComplete j =>
      obtain rfl := Host.Outcome.next.inj run
      exact endCheck_ticketsDistinct hs j
    | setTempo p n =>
      refine client hs run rfl fun u hu => ?_
      unfold setTempoBlock
      simp only
      split
      · exact hu
      · exact mapClock_flagTurn_ticketsDistinct hu _ _ _
    | setKey p n =>
      refine client hs run rfl fun u hu => ?_
      unfold setKeyBlock
      simp only
      split
      · exact hu
      · exact mapClock_flagTurn_ticketsDistinct hu _ _ _
    | setPart p m x =>
      refine client hs run rfl fun u hu => ?_
      split
      · rw [readOk_state]
        split
        · exact ticketsDistinct_dependsOn.of_touches (setChannel_touches u _ _) rfl hu
        · exact changePart_ticketsDistinct hu _ _
      · exact hu
    | timebaseTick => exact absurd rfl hi
    | _ => cases hc

end Sys2Proof.Machine
end

section
/-! The song clock and the stage (R84 to R97): that every step keeps the clock STOPPED exactly while
the stage is EMPTY, and its values in range. -/

namespace Sys2Proof.Machine

/-! ## The clock alone -/

/-- The clock's values in range, but for the accumulator, which stands at 1000 or more within a tick. -/
structure Clock.InRange (c : Clock) : Prop where
  stopped : c.state = .stopped → c.position = 0
  position : c.position ≤ Config.songLimit
  tempo : 750 ≤ c.tempo ∧ c.tempo ≤ 1250
  key : -7 ≤ c.key ∧ c.key ≤ 7
  slipWindow : c.slipWindow ≤ 200
  lastSync : ∀ d ∈ c.lastSync, -3599999 ≤ d ∧ d ≤ 3599999
  interlude : c.interlude = .inside ↔ ∃ x ∈ c.spans, x.1 ≤ c.position ∧ c.position < x.2

theorem clockAgrees_iff (s : State) : s.clockAgrees ↔
    (s.clock.state = .stopped ↔ s.turn = none) ∧ s.clock.InRange ∧ s.clock.accumulator < 1000 := by
  constructor
  · rintro ⟨stage, stopped, position, acc, tempo, tempo', key, key', slip, sync, interlude⟩
    exact ⟨stage, ⟨stopped, position, ⟨tempo, tempo'⟩, ⟨key, key'⟩, slip, sync, interlude⟩, acc⟩
  · rintro ⟨stage, h, acc⟩
    exact ⟨stage, h.stopped, h.position, acc, h.tempo.1, h.tempo.2, h.key.1, h.key.2, h.slipWindow,
      h.lastSync, h.interlude⟩

theorem interludeAt_eq_inside_iff (spans : List (Nat × Nat)) (position : Nat) :
    interludeAt spans position = .inside ↔ ∃ x ∈ spans, x.1 ≤ position ∧ position < x.2 := by
  unfold interludeAt
  split
  next h => simpa using h
  next h => simpa using h

/-- A clock put at a position, the interlude state taken afresh (R86, R90, R97). -/
theorem Clock.InRange.at_ {c : Clock} (h : c.InRange) (hs : c.state ≠ .stopped) {x : Nat}
    (hx : x ≤ Config.songLimit) (acc : Nat) :
    Clock.InRange { c with
      position := x, accumulator := acc, interlude := interludeAt c.spans x } where
  stopped hstop := absurd hstop hs
  position := hx
  tempo := h.tempo
  key := h.key
  slipWindow := h.slipWindow
  lastSync := h.lastSync
  interlude := interludeAt_eq_inside_iff _ _

/-- A stopped clock is in range, if its slip window is (R84, R100). -/
theorem Clock.InRange.stop {c : Clock} (h : c.slipWindow ≤ 200) : c.stop.InRange where
  stopped _ := rfl
  position := Nat.zero_le _
  tempo := (by decide : 750 ≤ 1000 ∧ 1000 ≤ 1250)
  key := (by decide : (-7 : Int) ≤ 0 ∧ (0 : Int) ≤ 7)
  slipWindow := h
  lastSync := nofun
  interlude := ⟨nofun, fun ⟨_, mem, _⟩ => nomatch mem⟩

/-- A cued clock stands at 0 with the track's spans (R48, R84). -/
theorem Clock.InRange.cue {c : Clock} (h : c.slipWindow ≤ 200) (track : Option Track) :
    (c.cue track).InRange where
  stopped := nofun
  position := Nat.zero_le _
  tempo := (by decide : 750 ≤ 1000 ∧ 1000 ≤ 1250)
  key := (by decide : (-7 : Int) ≤ 0 ∧ (0 : Int) ≤ 7)
  slipWindow := h
  lastSync := nofun
  interlude := interludeAt_eq_inside_iff _ _

theorem Clock.InRange.accumulator {c : Clock} (h : c.InRange) (n : Nat) :
    Clock.InRange { c with accumulator := n } :=
  ⟨h.stopped, h.position, h.tempo, h.key, h.slipWindow, h.lastSync, h.interlude⟩

/-! ## The clock and the stage -/

theorem clockAgrees_dependsOn : DependsOn [.clock, .turn] State.clockAgrees := by
  intro s t h hs
  have clock : t.clock = s.clock := h .clock (by decide)
  have turn : t.turn = s.turn := h .turn (by decide)
  rw [clockAgrees_iff] at hs ⊢
  rwa [clock, turn]

theorem flagTurn_turn_eq_none (s : State) (f : TurnFlags → TurnFlags) :
    (s.flagTurn f).turn = none ↔ s.turn = none := by
  unfold State.flagTurn
  split
  · exact Iff.rfl
  next t ht => simp [ht]

theorem flagTurn_clock (s : State) (f : TurnFlags → TurnFlags) : (s.flagTurn f).clock = s.clock :=
  flagTurn_touches s f .clock (by decide)

theorem flagTurn_clockAgrees {s : State} (h : s.clockAgrees) (f : TurnFlags → TurnFlags) :
    (s.flagTurn f).clockAgrees := by
  rw [clockAgrees_iff] at h ⊢
  rwa [flagTurn_clock, flagTurn_turn_eq_none]

/-- A change of the clock's values that leaves it in motion, or at rest, as it was. -/
theorem mapClock_clockAgrees {s : State} (h : s.clockAgrees) {f : Clock → Clock}
    (state : (f s.clock).state = .stopped ↔ s.clock.state = .stopped)
    (range : s.clock.InRange → (f s.clock).InRange)
    (acc : s.clock.accumulator < 1000 → (f s.clock).accumulator < 1000) :
    (s.mapClock f).clockAgrees := by
  rw [clockAgrees_iff] at h ⊢
  obtain ⟨stage, inRange, below⟩ := h
  exact ⟨state.trans stage, range inRange, acc below⟩

theorem endTurn_clock (s : State) (t : Turn) (r : EndReason) (b : Bool) :
    (s.endTurn t r b).clock = s.clock.stop := by
  unfold State.endTurn
  simp only
  rw [testCall_touches _ .clock (by decide), raise_touches _ _ _ .clock (by decide),
    turn_touches _ _ .clock (by decide), startScoreShow_touches _ _ .clock (by decide),
    emptyWindow_touches _ .clock (by decide), scrubSlot_touches _ _ .clock (by decide),
    file_touches _ _ .clock (by decide), tallyAllOpen_touches _ .clock (by decide)]

theorem endTurn_clockAgrees {s : State} (slip : s.clock.slipWindow ≤ 200) (t : Turn) (r : EndReason)
    (b : Bool) : (s.endTurn t r b).clockAgrees := by
  rw [clockAgrees_iff, endTurn_clock, (endTurn_book_turn s t r b).2.2]
  exact ⟨⟨fun _ => rfl, fun _ => rfl⟩, Clock.InRange.stop slip, Nat.zero_lt_succ _⟩

theorem passEnd_clockAgrees {s : State} (h : s.clockAgrees) (old new : Nat) :
    (s.passEnd old new).clockAgrees := by
  unfold State.passEnd
  split
  · split
    · exact endTurn_clockAgrees ((clockAgrees_iff s).mp h).2.1.slipWindow _ _ _
    · exact h
  · exact h

theorem jump_clockAgrees {s : State} (h : s.clockAgrees) (moving : s.clock.state ≠ .stopped) {x : Nat}
    (hx : x ≤ Config.songLimit) : (s.jump x).clockAgrees := by
  unfold State.jump
  simp only
  refine passEnd_clockAgrees (clockAgrees_dependsOn.of_touches (tallyAllOpen_touches _) rfl
    (clockAgrees_dependsOn.of_touches (requestRebuild_touches _) rfl ?_)) _ _
  generalize hu : s.flagTurn _ = u
  have clock : u.clock = s.clock := by rw [← hu, flagTurn_clock]
  have agrees : u.clockAgrees := by rw [← hu]; exact flagTurn_clockAgrees h _
  rw [clockAgrees_iff] at agrees ⊢
  exact ⟨agrees.1, agrees.2.1.at_ (by rw [clock]; exact moving) hx 0, Nat.zero_lt_succ _⟩

/-! ## The commands of the clock -/

theorem transportBlock_clockAgrees {whenIn goesTo : ClockState} (source : whenIn ≠ .stopped)
    (target : goesTo ≠ .stopped) (s : State) (h : s.clockAgrees) :
    (transportBlock whenIn goesTo s).state.clockAgrees := by
  unfold transportBlock
  split
  next hin =>
    refine mapClock_clockAgrees h (f := fun c => { c with state := goesTo })
      (iff_of_false target (hin ▸ source)) (fun r => ?_) id
    exact ⟨fun stop => absurd stop target, r.position, r.tempo, r.key, r.slipWindow, r.lastSync,
      r.interlude⟩
  · exact h

theorem seekBlock_clockAgrees (n : Nat) (s : State) (h : s.clockAgrees) :
    (seekBlock n s).state.clockAgrees := by
  unfold seekBlock
  simp only [apply_ite Taken.state]
  split_ifs with limit stopped
  · exact h
  · exact h
  · exact mapClock_clockAgrees h (f := fun c => { c with accumulator := 0 }) Iff.rfl
      (fun r => r.accumulator 0) fun _ => Nat.zero_lt_succ _
  · exact jump_clockAgrees h stopped (Nat.le_of_not_lt limit)

/-- R91: the difference of two song times lies within the song limit. -/
theorem difference_mem {c : Clock} (h : c.InRange) {n : Nat} (hn : n ≤ Config.songLimit) :
    -3599999 ≤ c.difference n ∧ c.difference n ≤ 3599999 := by
  have position := h.position
  unfold Clock.difference
  have : Config.songLimit = 3599999 := rfl
  omega

theorem syncBlock_clockAgrees (n : Nat) (s : State) (h : s.clockAgrees) :
    (syncBlock n s).state.clockAgrees := by
  unfold syncBlock
  simp only [apply_ite Taken.state]
  split_ifs with limit running
  · exact h
  · exact h
  all_goals
    have synced : (s.mapClock fun c => { c with lastSync := some (s.clock.difference n) }).clockAgrees := by
      refine mapClock_clockAgrees h (f := fun c => { c with
        lastSync := some (s.clock.difference n) }) Iff.rfl (fun r => ?_) id
      refine ⟨r.stopped, r.position, r.tempo, r.key, r.slipWindow, fun d hd => ?_, r.interlude⟩
      obtain rfl := Option.some.inj hd
      exact difference_mem r (Nat.le_of_not_lt limit)
  · exact synced
  · rw [readOk_state]
    unfold State.slip
    refine jump_clockAgrees (clockAgrees_dependsOn.of_touches (raise_touches _ _ _) rfl
      (flagTurn_clockAgrees synced _)) ?_ (Nat.le_of_not_lt limit)
    rw [raise_touches _ _ _ .clock (by decide), flagTurn_clock]
    intro stopped
    exact nomatch (not_not.mp running).symm.trans stopped

/-- A setting of the clock that may flag the turn. -/
theorem mapClock_flagTurn_clockAgrees {s : State} {f : Clock → Clock}
    (set : (s.mapClock f).clockAgrees) (c : Prop) [Decidable c] (g : TurnFlags → TurnFlags) :
    (if c then s.mapClock f else (s.mapClock f).flagTurn g).clockAgrees := by
  split
  · exact set
  · exact flagTurn_clockAgrees set g

theorem clampNat_mem {lo hi : Nat} (h : lo ≤ hi) (n : Nat) :
    lo ≤ clampNat lo hi n ∧ clampNat lo hi n ≤ hi := by
  unfold clampNat; omega

theorem clampInt_mem {lo hi : Int} (h : lo ≤ hi) (n : Int) :
    lo ≤ clampInt lo hi n ∧ clampInt lo hi n ≤ hi := by
  unfold clampInt; omega

theorem setTempoBlock_clockAgrees (n : Nat) (s : State) (h : s.clockAgrees) :
    (setTempoBlock n s).state.clockAgrees := by
  unfold setTempoBlock
  simp only
  split
  · exact h
  · refine mapClock_flagTurn_clockAgrees (mapClock_clockAgrees h Iff.rfl (fun r => ?_) id) _ _
    exact ⟨r.stopped, r.position, clampNat_mem (by decide) n, r.key, r.slipWindow, r.lastSync,
      r.interlude⟩

theorem setKeyBlock_clockAgrees (n : Int) (s : State) (h : s.clockAgrees) :
    (setKeyBlock n s).state.clockAgrees := by
  unfold setKeyBlock
  simp only
  split
  · exact h
  · refine mapClock_flagTurn_clockAgrees (mapClock_clockAgrees h Iff.rfl (fun r => ?_) id) _ _
    exact ⟨r.stopped, r.position, r.tempo, clampInt_mem (by decide) n, r.slipWindow, r.lastSync,
      r.interlude⟩

theorem setSlipWindowBlock_clockAgrees (n : Nat) (s : State) (h : s.clockAgrees) :
    (setSlipWindowBlock n s).state.clockAgrees :=
  mapClock_clockAgrees h Iff.rfl (fun r => ⟨r.stopped, r.position, r.tempo, r.key,
    (clampNat_mem (by decide) n).2, r.lastSync, r.interlude⟩) id

theorem take_clock (s : State) (e : Entry) (i : Fin 4) :
    (s.take e i).clock = s.clock.cue s.slots[i].track := by
  unfold State.take
  simp only
  rw [bookChanged_touches _ .clock (by decide), raise_touches _ _ _ .clock (by decide),
    requestRebuild_touches _ .clock (by decide), emptyWindow_touches _ .clock (by decide),
    endScoreShow_touches _ .clock (by decide), abortTone_touches _ .clock (by decide)]
  rfl

theorem takeBlock_clockAgrees (s : State) (h : s.clockAgrees) :
    (takeBlock s).state.clockAgrees := by
  unfold takeBlock
  split
  · exact h
  · split
    · exact h
    · split
      · exact h
      · rw [readOk_state, clockAgrees_iff, take_clock, (take_book_turn s _ _).2.2]
        exact ⟨⟨nofun, nofun⟩, Clock.InRange.cue ((clockAgrees_iff s).mp h).2.1.slipWindow _,
          Nat.zero_lt_succ _⟩

/-! ## The tick -/

/-- The clock within a tick, with at most `n` advances still to make (R86, R87). -/
structure ClockMoving (n : Nat) (s : State) : Prop where
  stage : s.clock.state = .stopped ↔ s.turn = none
  range : s.clock.InRange
  below : s.clock.accumulator < 1000 * (n + 1)
  mayAdvance : 1000 ≤ s.clock.accumulator →
    s.clock.state = .running ∧ s.clock.position < Config.songLimit

theorem ClockMoving.zero {s : State} (h : ClockMoving 0 s) : s.clockAgrees :=
  (clockAgrees_iff s).mpr ⟨h.stage, h.range, h.below⟩

theorem ClockMoving.of_clockAgrees {s : State} (h : s.clockAgrees) (n : Nat) : ClockMoving n s := by
  obtain ⟨stage, range, acc⟩ := (clockAgrees_iff s).mp h
  exact ⟨stage, range, by omega, fun more => absurd more (Nat.not_le.mpr acc)⟩

theorem advance_clockMoving {n : Nat} {s : State} (h : ClockMoving (n + 1) s)
    (more : 1000 ≤ s.clock.accumulator) : ClockMoving n s.advance := by
  obtain ⟨running, room⟩ := h.mayAdvance more
  unfold State.advance
  simp only
  generalize hv : State.tallyPassed _ _ = v
  have clock : v.clock = { s.clock with
      position := s.clock.position + 1
      accumulator := if s.clock.position + 1 = Config.songLimit then 0 else s.clock.accumulator - 1000
      interlude := interludeAt s.clock.spans (s.clock.position + 1) } := by
    rw [← hv, tallyPassed_touches _ _ .clock (by decide), lineEventsAt_touches _ _ .clock (by decide)]
  have turn : v.turn = s.turn := by
    rw [← hv, tallyPassed_touches _ _ .turn (by decide), lineEventsAt_touches _ _ .turn (by decide)]
  have moving : s.clock.state ≠ .stopped := by rw [running]; decide
  have advanced : ClockMoving n v := by
    refine ⟨?_, ?_, ?_, fun again => ⟨?_, ?_⟩⟩
    · rw [clock, turn]; exact h.stage
    · rw [clock]; exact h.range.at_ moving room _
    · have := h.below
      rw [clock]
      dsimp only
      split <;> omega
    · rw [clock]; exact running
    · rw [clock] at again ⊢
      dsimp only at again ⊢
      split at again <;> omega
  unfold State.passEnd
  split
  · split
    · exact .of_clockAgrees (endTurn_clockAgrees advanced.range.slipWindow _ _ _) n
    · exact advanced
  · exact advanced

theorem advanceWhile_clockAgrees {n : Nat} {s : State} (h : ClockMoving n s) :
    (State.advanceWhile n s).clockAgrees := by
  induction n generalizing s with
  | zero => exact h.zero
  | succ n ih =>
    unfold State.advanceWhile
    split
    next more =>
      rw [Bool.and_eq_true, decide_eq_true_eq, decide_eq_true_eq] at more
      exact ih (advance_clockMoving h more.2)
    next done =>
      have acc : s.clock.accumulator < 1000 := by
        by_contra more
        have more := Nat.le_of_not_lt more
        exact done (by simp [h.mayAdvance more, more])
      exact (clockAgrees_iff s).mpr ⟨h.stage, h.range, acc⟩

theorem tickClock_clockAgrees {s : State} (h : s.clockAgrees) : s.tickClock.clockAgrees := by
  obtain ⟨stage, range, acc⟩ := (clockAgrees_iff s).mp h
  unfold State.tickClock
  split
  next runs =>
    rw [Bool.and_eq_true, decide_eq_true_eq, decide_eq_true_eq] at runs
    have tempo := range.tempo.2
    refine advanceWhile_clockAgrees ⟨stage, range.accumulator _, ?_, fun _ => runs⟩
    dsimp only
    omega
  · exact h

/-! ## Every step -/

/-- Settles O8: the clock is cued where a turn begins and stopped where it ends; in a tick at most two
advances bring the accumulator below 1000, the second only below the song limit. -/
theorem clockStaysWithTheStage : Obligations.ClockStaysWithTheStage := by
  have client := @clientCommand_keeps _ _ clockAgrees_dependsOn rfl
  have ended : ∀ {u : State}, u.clockAgrees → ∀ t r b, (u.endTurn t r b).clockAgrees :=
    fun hu => endTurn_clockAgrees ((clockAgrees_iff _).mp hu).2.1.slipWindow
  refine step_keeps clockAgrees_dependsOn rfl ?rows ?tick
  case tick =>
    exact fun s hs => tickClock_clockAgrees
      (clockAgrees_dependsOn.of_touches (tickTimers_touches s) rfl hs)
  case rows =>
    intro i hi hc s t hs run
    cases i with
    | powerOnReset =>
      obtain rfl := Host.Outcome.next.inj run
      exact (clockAgrees_iff _).mpr ⟨⟨fun _ => rfl, fun _ => rfl⟩,
        Clock.InRange.stop (c := Clock.reset) (by decide), Nat.zero_lt_succ _⟩
    | sessionReset p =>
      refine client hs run rfl fun u hu => ?_
      have turn : u.resetBlocks.resetNotices.turn = none :=
        (resetNotices_touches _ .turn (by decide)).trans (retitle_touches _ .turn (by decide))
      rw [readOk_state, clockAgrees_iff, resetBlocks_resetNotices_clock, turn]
      exact ⟨⟨fun _ => rfl, fun _ => rfl⟩,
        Clock.InRange.stop ((clockAgrees_iff u).mp hu).2.1.slipWindow, Nat.zero_lt_succ _⟩
    | takeTurn p => exact client hs run rfl takeBlock_clockAgrees
    | endTurn p n r =>
      refine client hs run (exec_endTurn p n r s) fun u hu => ?_
      unfold endTurnBlock
      split
      · exact hu
      · exact hu
      · rw [readOk_state]; exact ended hu _ _ _
    | abortTurn p n =>
      refine client hs run (exec_abortTurn p n s) fun u hu => ?_
      unfold abortTurnBlock
      split
      · exact hu
      · rw [readOk_state]; exact ended hu _ _ _
    | play p => exact client hs run rfl (transportBlock_clockAgrees (by decide) (by decide))
    | pause p => exact client hs run rfl (transportBlock_clockAgrees (by decide) (by decide))
    | resume p => exact client hs run rfl (transportBlock_clockAgrees (by decide) (by decide))
    | seek p n => exact client hs run rfl (seekBlock_clockAgrees _)
    | sync p n => exact client hs run rfl (syncBlock_clockAgrees _)
    | setTempo p n => exact client hs run rfl (setTempoBlock_clockAgrees _)
    | setKey p n => exact client hs run rfl (setKeyBlock_clockAgrees _)
    | setSlipWindow p n =>
      exact client hs run (exec_setSlipWindow p n s) (setSlipWindowBlock_clockAgrees _)
    | setPart p m x =>
      refine client hs run rfl fun u hu => ?_
      split
      · rw [readOk_state]
        split
        · exact clockAgrees_dependsOn.of_touches (setChannel_touches u _ _) rfl hu
        · have set : ∀ {v : State} m c, v.clockAgrees → (v.setChannel m c).clockAgrees :=
            fun m c hv => clockAgrees_dependsOn.of_touches (setChannel_touches _ m c) rfl hv
          have tallied := fun m => clockAgrees_dependsOn.of_touches (tallyOpen_touches u m) rfl hu
          unfold State.changePart
          simp only
          split
          · exact flagTurn_clockAgrees (set _ _ (set _ _ (tallied _))) _
          · exact set _ _ (set _ _ (tallied _))
      · exact hu
    | timebaseTick => exact absurd rfl hi
    | _ => cases hc

end Sys2Proof.Machine
end

section
/-! Tallies and judgements (R163 to R168), channel by channel: what each does to the channel and the
marks of its own mic, and that it leaves those of the others alone. -/

namespace Sys2Proof.Machine

/-! ## Marks and channels -/

theorem setChannel_channel (s : State) (m k : Fin 4) (c : Channel) :
    (s.setChannel m c).voice.channels[k] = if k = m then c else s.voice.channels[k] := by
  have := Vector.getElem_set (xs := s.voice.channels) (x := c) m.isLt k.isLt
  simpa [State.setChannel, Fin.ext_iff, eq_comm] using this

@[simp] theorem setChannel_channel_same (s : State) (m : Fin 4) (c : Channel) :
    (s.setChannel m c).voice.channels[m] = c := by rw [setChannel_channel, if_pos rfl]

theorem setChannel_channel_other (s : State) {m k : Fin 4} (h : k ≠ m) (c : Channel) :
    (s.setChannel m c).voice.channels[k] = s.voice.channels[k] := by
  rw [setChannel_channel, if_neg h]

@[simp] theorem setChannel_noteMark (s : State) (m k : Fin 4) (c : Channel) (j : Nat) :
    (s.setChannel m c).noteMark k j = s.noteMark k j := rfl

theorem setChannel_setChannel (s : State) (m : Fin 4) (c d : Channel) :
    (s.setChannel m c).setChannel m d = s.setChannel m d := by
  simp [State.setChannel]

theorem setMark_voice (s : State) (m : Fin 4) (n : Nat) (x : TallyMark) :
    (s.setMark m n x).voice = s.voice := by
  unfold State.setMark
  split <;> rfl

/-- A note's place in the marks of the song on stage. -/
def State.marksNote (s : State) (m : Fin 4) (n : Nat) : Prop :=
  ∃ t, s.turn = some t ∧ n < (s.slots[t.slot].tallied[m]).length

theorem setSlot_slot (s : State) (i k : Fin 4) (x : Slot) :
    (s.setSlot i x).slots[k] = if k = i then x else s.slots[k] := by
  have := Vector.getElem_set (xs := s.slots) (x := x) i.isLt k.isLt
  simpa [State.setSlot, Fin.ext_iff, eq_comm] using this

theorem Vector.getElem_set_fin {α : Type} {n : Nat} (v : Vector α n) (i k : Fin n) (x : α) :
    (v.set i.val x i.isLt)[k] = if k = i then x else v[k] := by
  have := Vector.getElem_set (xs := v) (x := x) i.isLt k.isLt
  simpa [Fin.ext_iff, eq_comm] using this

open Classical in
theorem setMark_noteMark (s : State) (m k : Fin 4) (n j : Nat) (x : TallyMark) :
    (s.setMark m n x).noteMark k j =
      if k = m ∧ j = n ∧ s.marksNote m n then some x else s.noteMark k j := by
  unfold State.setMark
  split
  next h => simp [State.noteMark, State.marksNote, h]
  next t h =>
    have marked : s.marksNote m n ↔ n < (s.slots[t.slot].tallied[m]).length := by
      simp [State.marksNote, h]
    have slots : (s.setSlot t.slot { s.slots[t.slot] with
        tallied := s.slots[t.slot].tallied.set m.val
          (s.slots[t.slot].tallied[m].set n (some x)) m.isLt }).noteMark k j =
        ((s.slots[t.slot].tallied.set m.val
          (s.slots[t.slot].tallied[m].set n (some x)) m.isLt)[k]).getD j none := by
      simp only [State.noteMark]
      rw [show (s.setSlot t.slot _).turn = some t from h]
      simp only [setSlot_slot, if_true]
    rw [slots, Vector.getElem_set_fin]
    simp only [State.noteMark, h, marked]
    by_cases hk : k = m
    · subst hk
      simp only [if_true, true_and, List.getD_eq_getElem?_getD, List.getElem?_set]
      by_cases hj : n = j
      · subst hj
        rw [if_pos rfl]
        by_cases hn : n < (s.slots[t.slot].tallied[k]).length
        · rw [if_pos hn, if_pos ⟨rfl, hn⟩]; rfl
        · rw [if_neg hn, if_neg fun h => hn h.2, List.getElem?_eq_none (Nat.le_of_not_lt hn)]
      · simp [hj, Ne.symm hj]
    · simp [hk]

/-! ## What a tally leaves alone -/

/-- What tallies and judgements change is channels and marks of the song on stage alone. -/
structure Marking (s u : State) : Prop where
  touches : Touches [.slots, .voice] s u
  voice : u.voice = { s.voice with channels := u.voice.channels }
  slots : ∀ i : Fin 4, u.slots[i] = { s.slots[i] with tallied := u.slots[i].tallied }
  lengths : ∀ i k : Fin 4,
    (u.slots[i].tallied[k]).length = (s.slots[i].tallied[k]).length
  offStage : ∀ i : Fin 4, (∀ t, s.turn = some t → i ≠ t.slot) → u.slots[i] = s.slots[i]

theorem Marking.turn {s u : State} (h : Marking s u) : u.turn = s.turn := h.touches .turn (by decide)

theorem Marking.refl (s : State) : Marking s s :=
  ⟨Touches.refl _ _, rfl, fun _ => rfl, fun _ _ => rfl, fun _ _ => rfl⟩

theorem Marking.trans {s u v : State} (h : Marking s u) (g : Marking u v) : Marking s v where
  touches := h.touches.trans g.touches
  voice := by rw [g.voice, h.voice]
  slots i := by rw [g.slots, h.slots]
  lengths i k := (g.lengths i k).trans (h.lengths i k)
  offStage i hi := (g.offStage i (by rwa [h.turn])).trans (h.offStage i hi)

theorem Marking.stageTrack {s u : State} (h : Marking s u) : u.stageTrack = s.stageTrack := by
  unfold State.stageTrack
  rw [h.turn]
  split
  · rfl
  · rw [h.slots]

theorem Marking.marksNote {s u : State} (h : Marking s u) (m : Fin 4) (n : Nat) :
    u.marksNote m n ↔ s.marksNote m n := by
  simp only [State.marksNote, h.turn, h.lengths]

theorem Marking.scoring {s u : State} (h : Marking s u) : u.voice.scoring = s.voice.scoring := by
  rw [h.voice]

/-- A change of one mic's channel and marks alone. -/
structure OnlyMic (m : Fin 4) (s u : State) : Prop where
  marking : Marking s u
  channel : ∀ k : Fin 4, k ≠ m → u.voice.channels[k] = s.voice.channels[k]
  marks : ∀ k : Fin 4, k ≠ m → ∀ j, u.noteMark k j = s.noteMark k j

theorem OnlyMic.refl (m : Fin 4) (s : State) : OnlyMic m s s :=
  ⟨Marking.refl s, fun _ _ => rfl, fun _ _ _ => rfl⟩

theorem OnlyMic.trans {m : Fin 4} {s u v : State} (h : OnlyMic m s u) (g : OnlyMic m u v) :
    OnlyMic m s v :=
  ⟨h.marking.trans g.marking, fun k hk => (g.channel k hk).trans (h.channel k hk),
    fun k hk j => (g.marks k hk j).trans (h.marks k hk j)⟩

theorem OnlyMic.ite {m : Fin 4} {s u v : State} {c : Prop} [Decidable c] (h : OnlyMic m s u)
    (g : OnlyMic m s v) : OnlyMic m s (if c then u else v) := by
  split
  · exact h
  · exact g

theorem OnlyMic.foldl {α : Type} {m : Fin 4} {f : State → α → State}
    (h : ∀ s x, OnlyMic m s (f s x)) (xs : List α) (s : State) : OnlyMic m s (xs.foldl f s) := by
  induction xs generalizing s with
  | nil => exact .refl m s
  | cons x xs ih => exact (h s x).trans (ih _)

theorem setChannel_onlyMic (s : State) (m : Fin 4) (c : Channel) :
    OnlyMic m s (s.setChannel m c) :=
  ⟨⟨(setChannel_touches s m c).mono rfl, rfl, fun _ => rfl, fun _ _ => rfl, fun _ _ => rfl⟩,
    fun _ hk => setChannel_channel_other s hk c, fun _ _ _ => rfl⟩

theorem setMark_onlyMic (s : State) (m : Fin 4) (n : Nat) (x : TallyMark) :
    OnlyMic m s (s.setMark m n x) where
  marking := by
    refine ⟨setMark_touches s m n x, by rw [setMark_voice], ?_, ?_, ?_⟩ <;> unfold State.setMark <;>
      intro i <;> split
    · rfl
    · rw [setSlot_slot]
      split
      next h => rw [h]
      · rfl
    · exact fun _ => rfl
    · intro k
      rw [setSlot_slot]
      split
      next h =>
        subst h
        rw [Vector.getElem_set_fin]
        split
        next hk => rw [hk, List.length_set]
        · rfl
      · rfl
    · exact fun _ => rfl
    next t h =>
      intro off
      rw [setSlot_slot, if_neg (off t h)]
  channel k _ := by rw [setMark_voice]
  marks k hk j := by rw [setMark_noteMark, if_neg fun h => hk h.1]

/-! ## A tally -/

/-- The counts a channel has for a note. -/
def Channel.countsFor (c : Channel) (n : Nat) : Nat × Nat :=
  match c.openNote with
  | some o => if o.index = n then (o.a, o.h) else (0, 0)
  | none => (0, 0)

/-- The channel after a tally of a note, which carries a mark already or not. -/
def Channel.tallied (c : Channel) (n : Nat) (marked : Bool) : Channel :=
  { c with
    openNote := c.openNote.filter fun o => o.index ≠ n
    notes := c.notes + if marked = true ∨ (c.countsFor n).1 = 0 then 0 else 1
    kept := c.kept + if marked = true ∨ (c.countsFor n).1 = 0 ∨
      2 * (c.countsFor n).2 < (c.countsFor n).1 then 0 else 1 }

theorem markOf_eq_empty_iff (a h : Nat) : markOf a h = .empty ↔ a = 0 := by
  unfold markOf; split_ifs <;> simp_all

theorem markOf_eq_kept_iff (a h : Nat) : markOf a h = .kept ↔ ¬ (a = 0 ∨ 2 * h < a) := by
  unfold markOf; split_ifs <;> simp_all

/-- A tally as a change of mark and channel. -/
theorem tally_eq (s : State) (m : Fin 4) (n : Nat) :
    s.tally m n =
      (if (s.noteMark m n).isSome then s
        else s.setMark m n
          (markOf (s.voice.channels[m].countsFor n).1 (s.voice.channels[m].countsFor n).2)).setChannel
        m (s.voice.channels[m].tallied n (s.noteMark m n).isSome) := by
  unfold State.tally
  simp only
  change (if (s.noteMark m n).isSome = true then _ else State.setChannel (s.setMark m n (markOf
    (s.voice.channels[m].countsFor n).1 (s.voice.channels[m].countsFor n).2)) m _) = _
  split
  next h => simp [Channel.tallied, h]
  next h =>
    congr 1
    simp only [Channel.tallied, h, false_or, Bool.false_eq_true]
    rw [if_congr (markOf_eq_empty_iff _ _) rfl rfl, if_congr (markOf_eq_kept_iff _ _) rfl rfl]
    congr 1
    · change (if (s.voice.channels[m].countsFor n).1 = 0 then _ else _) = _
      split <;> rfl
    · change (if ¬ ((s.voice.channels[m].countsFor n).1 = 0 ∨ 2 * (s.voice.channels[m].countsFor n).2 <
        (s.voice.channels[m].countsFor n).1) then _ else _) = _
      split_ifs <;> rfl

theorem tally_channel (s : State) (m : Fin 4) (n : Nat) :
    (s.tally m n).voice.channels[m] = s.voice.channels[m].tallied n (s.noteMark m n).isSome := by
  rw [tally_eq, setChannel_channel_same]

open Classical in
theorem tally_noteMark (s : State) (m k : Fin 4) (n j : Nat) :
    (s.tally m n).noteMark k j =
      if k = m ∧ j = n ∧ s.noteMark m n = none ∧ s.marksNote m n then
        some (markOf (s.voice.channels[m].countsFor n).1 (s.voice.channels[m].countsFor n).2)
      else s.noteMark k j := by
  rw [tally_eq, setChannel_noteMark]
  split
  next h => rw [if_neg fun g => by simp [g.2.2.1] at h]
  next h =>
    rw [setMark_noteMark]
    have unmarked : s.noteMark m n = none := by simpa using h
    simp only [unmarked, true_and]

theorem tally_onlyMic (s : State) (m : Fin 4) (n : Nat) : OnlyMic m s (s.tally m n) := by
  rw [tally_eq]
  exact (OnlyMic.ite (.refl m s) (setMark_onlyMic s m n _)).trans (setChannel_onlyMic _ m _)

theorem tallyOpen_onlyMic (s : State) (m : Fin 4) : OnlyMic m s (s.tallyOpen m) := by
  unfold State.tallyOpen
  split
  · exact .refl m s
  · exact tally_onlyMic s m _

/-- The channel once its open note, if it has one, is tallied. -/
theorem tallyOpen_channel (s : State) (m : Fin 4) :
    (s.tallyOpen m).voice.channels[m] = match s.voice.channels[m].openNote with
      | none => s.voice.channels[m]
      | some o => s.voice.channels[m].tallied o.index (s.noteMark m o.index).isSome := by
  unfold State.tallyOpen
  cases h : s.voice.channels[m].openNote with
  | none => rfl
  | some o => exact tally_channel s m _

theorem tallied_openNote_of_open {c : Channel} {o : OpenNote} (h : c.openNote = some o)
    (marked : Bool) : (c.tallied o.index marked).openNote = none := by
  simp [Channel.tallied, h]

theorem tallyOpen_openNote (s : State) (m : Fin 4) :
    (s.tallyOpen m).voice.channels[m].openNote = none := by
  rw [tallyOpen_channel]
  split
  next h => exact h
  next h => exact tallied_openNote_of_open h _

theorem saturate_onlyMic (s : State) (m : Fin 4) : OnlyMic m s (s.saturate m) :=
  (tallyOpen_onlyMic s m).trans (setChannel_onlyMic _ m _)

theorem openNote_onlyMic (s : State) (m : Fin 4) (n : Nat) : OnlyMic m s (s.openNote m n) := by
  unfold State.openNote
  exact .ite (.refl m s) ((tallyOpen_onlyMic s m).trans (setChannel_onlyMic _ m _))

/-! ## A judgement (R163 to R165, R168) -/

/-- Whether a channel's completed frame is judged at all. -/
def State.judges (s : State) (m : Fin 4) : Prop :=
  s.judging m = true ∧ s.clock.state = .running ∧ s.voice.scoring.latency ≤ s.clock.position

/-- The judgement time. -/
def State.judgementTime (s : State) : Nat := s.clock.position - s.voice.scoring.latency

/-- The note of the assessed part at the judgement time. -/
def State.noteJudged (s : State) (m : Fin 4) : Option (Note × Nat) :=
  (s.partNotes m).find? fun n => n.1.start ≤ s.judgementTime && s.judgementTime < n.1.stop

/-- The reference pitch of a note. -/
def State.referenceOf (s : State) (n : Note) : Int := 8 * ((n.number : Int) + s.clock.key)

/-- Whether a frame with this pitch is a HIT of a note. -/
def State.frameHits (s : State) (n : Note) (pitch : Option Int) : Bool :=
  match pitch with
  | some p =>
    (judgedDifference s.voice.scoring.folding p (s.referenceOf n)).natAbs ≤ s.voice.scoring.tolerance
  | none => false

/-- The channel once a frame in a note is counted, the note having become the open one. -/
def State.judgedChannel (s : State) (m : Fin 4) (n : Note × Nat) (pitch : Option Int) : Channel :=
  (s.openNote m n.2).voice.channels[m].count (s.frameHits n.1 pitch) s.judgementTime
    (s.referenceOf n.1) pitch

/-- Whether a note is judged: past its grace, and without a mark. -/
def State.mayJudge (s : State) (m : Fin 4) (n : Note × Nat) : Prop :=
  n.1.start + s.voice.scoring.grace ≤ s.judgementTime ∧ s.noteMark m n.2 = none

theorem judge_of_not_judges {s : State} {m : Fin 4} (h : ¬ s.judges m) (p : Option Int) :
    s.judge m p = s := by
  unfold State.judge
  simp only
  refine if_pos ?_
  simp only [State.judges, not_and, Nat.not_le] at h
  by_cases j : s.judging m = true
  · by_cases r : s.clock.state = .running
    · simp [j, r, h j r]
    · simp [r]
  · simp [j]

theorem judges_iff (s : State) (m : Fin 4) : s.judges m ↔
    ¬ (!s.judging m || s.clock.state ≠ .running || s.clock.position < s.voice.scoring.latency) =
      true := by
  simp [State.judges, not_or, and_assoc]

theorem judge_of_note {s : State} {m : Fin 4} (h : s.judges m) {n : Note × Nat}
    (hn : s.noteJudged m = some n) (p : Option Int) :
    (¬ s.mayJudge m n → s.judge m p = s) ∧
    (s.mayJudge m n → s.judge m p =
      let u := (s.openNote m n.2).setChannel m (s.judgedChannel m n p)
      if (s.judgedChannel m n p).judged = 65535 then u.saturate m else u) := by
  have judged : s.judge m p =
      if s.judgementTime < n.1.start + s.voice.scoring.grace || (s.noteMark m n.2).isSome then s
      else
        let u := (s.openNote m n.2).setChannel m (s.judgedChannel m n p)
        if (s.judgedChannel m n p).judged = 65535 then u.saturate m else u := by
    unfold State.judge
    simp only
    rw [if_neg ((judges_iff s m).mp h)]
    change (match s.noteJudged m with | some (note, index) => _ | none => _) = _
    rw [hn]
    rfl
  have may : s.mayJudge m n ↔ ¬ (s.judgementTime < n.1.start + s.voice.scoring.grace ||
      (s.noteMark m n.2).isSome) = true := by
    simp [State.mayJudge]
  rw [judged]
  exact ⟨fun h => if_pos (not_not.mp (h ∘ may.mpr)), fun h => if_neg (may.mp h)⟩

theorem judge_of_no_note {s : State} {m : Fin 4} (h : s.judges m) (hn : s.noteJudged m = none)
    (p : Option Int) : s.judge m p =
      if p.isSome && s.clock.interlude = .outside then
        s.setChannel m { s.voice.channels[m].lockMiss with
          strays := bump 65535 s.voice.channels[m].strays }
      else s := by
  unfold State.judge
  simp only
  rw [if_neg ((judges_iff s m).mp h)]
  change (match s.noteJudged m with | some (note, index) => _ | none => _) = _
  rw [hn]

theorem judge_onlyMic (s : State) (m : Fin 4) (p : Option Int) : OnlyMic m s (s.judge m p) := by
  by_cases h : s.judges m
  · cases hn : s.noteJudged m with
    | none =>
      rw [judge_of_no_note h hn]
      exact .ite (setChannel_onlyMic s m _) (.refl m s)
    | some n =>
      by_cases may : s.mayJudge m n
      · have counted := (openNote_onlyMic s m n.2).trans
          (setChannel_onlyMic _ m (s.judgedChannel m n p))
        rw [(judge_of_note h hn p).2 may]
        exact .ite (counted.trans (saturate_onlyMic _ m)) counted
      · rw [(judge_of_note h hn p).1 may]
        exact .refl m s
  · rw [judge_of_not_judges h]
    exact .refl m s

theorem completeChannel_onlyMic (s : State) (m : Fin 4) (p : Option Int) :
    OnlyMic m s (s.completeChannel m p) :=
  (setChannel_onlyMic s m _).trans (judge_onlyMic _ m p)

/-! ## All mics in turn -/

/-- Two states that agree on one mic's channel and marks. -/
structure SameMic (m : Fin 4) (s u : State) : Prop where
  marking : Marking s u
  channel : u.voice.channels[m] = s.voice.channels[m]
  marks : ∀ j, u.noteMark m j = s.noteMark m j

theorem OnlyMic.sameMic {m k : Fin 4} {s u : State} (h : OnlyMic k s u) (hm : m ≠ k) :
    SameMic m s u := ⟨h.marking, h.channel m hm, h.marks m hm⟩

theorem SameMic.refl (m : Fin 4) (s : State) : SameMic m s s := ⟨Marking.refl s, rfl, fun _ => rfl⟩

theorem SameMic.trans {m : Fin 4} {s u v : State} (h : SameMic m s u) (g : SameMic m u v) :
    SameMic m s v :=
  ⟨h.marking.trans g.marking, g.channel.trans h.channel, fun j => (g.marks j).trans (h.marks j)⟩

theorem foldl_sameMic {f : State → Fin 4 → State} (h : ∀ s m, OnlyMic m s (f s m)) {m : Fin 4}
    {ms : List (Fin 4)} (hm : m ∉ ms) (s : State) : SameMic m s (ms.foldl f s) := by
  induction ms generalizing s with
  | nil => exact .refl m s
  | cons k ms ih =>
    rw [List.mem_cons, not_or] at hm
    exact ((h s k).sameMic hm.1).trans (ih hm.2 _)

/-- Where each mic is served in turn, a mic's own turn finds it as it was and leaves it as it is at the
end. -/
theorem foldl_micNumbers {f : State → Fin 4 → State} (h : ∀ s m, OnlyMic m s (f s m)) (m : Fin 4)
    (s : State) : ∃ u, SameMic m s u ∧ SameMic m (f u m) (micNumbers.foldl f s) := by
  have split : ∃ before after, micNumbers = before ++ m :: after ∧ m ∉ before ∧ m ∉ after := by
    refine ⟨micNumbers.take m, micNumbers.drop (m + 1), ?_⟩
    revert m
    decide
  obtain ⟨before, after, eq, hb, ha⟩ := split
  refine ⟨before.foldl f s, foldl_sameMic h hb s, ?_⟩
  rw [eq, List.foldl_append, List.foldl_cons]
  exact foldl_sameMic h ha _

theorem foldl_marking {f : State → Fin 4 → State} (h : ∀ s m, OnlyMic m s (f s m))
    (ms : List (Fin 4)) (s : State) : Marking s (ms.foldl f s) := by
  induction ms generalizing s with
  | nil => exact .refl s
  | cons k ms ih => exact (h s k).marking.trans (ih _)

theorem SameMic.judging {m : Fin 4} {s u : State} (h : SameMic m s u) :
    u.judging m = s.judging m := by
  unfold State.judging
  rw [h.channel]

theorem SameMic.partNotes {m : Fin 4} {s u : State} (h : SameMic m s u) :
    u.partNotes m = s.partNotes m := by
  unfold State.partNotes
  rw [h.marking.stageTrack, h.channel]

end Sys2Proof.Machine
end

section
/-! The channels' counts (R164 to R170): that every step keeps them in order and in range. -/

namespace Sys2Proof.Machine

/-! ## One channel -/

/-- The counts of a channel in order and in range, but for what saturation does. -/
structure Channel.Counted (c : Channel) : Prop where
  hits : c.hits ≤ c.judged
  judged : c.judged ≤ 65535
  kept : c.kept ≤ c.notes
  strays : c.strays ≤ 65535
  hitRun : c.hitRun ≤ 2
  missRun : c.missRun ≤ 16
  lockCount : c.lockCount ≤ 255
  locked : c.lock = .locked → 0 < c.lockCount
  openNote : ∀ o, c.openNote = some o → o.h ≤ o.a ∧ o.a ≤ c.judged

/-- A channel as every step leaves it: counted, and frozen where its judged frames are saturated. -/
structure Channel.Agrees (c : Channel) : Prop where
  counted : c.Counted
  frozen : c.judged = 65535 → c.frozen = true

theorem channelsAgree_iff (s : State) :
    s.channelsAgree ↔ ∀ m : Fin 4, s.voice.channels[m].Agrees := by
  refine forall_congr' fun m => ⟨?_, ?_⟩
  · rintro ⟨hits, judged, frozen, kept, strays, hitRun, missRun, lockCount, locked, openNote⟩
    exact ⟨⟨hits, judged, kept, strays, hitRun, missRun, lockCount, locked, openNote⟩, frozen⟩
  · rintro ⟨c, frozen⟩
    exact ⟨c.hits, c.judged, frozen, c.kept, c.strays, c.hitRun, c.missRun, c.lockCount, c.locked,
      c.openNote⟩

theorem Channel.Counted.tallied {c : Channel} (h : c.Counted) (n : Nat) (marked : Bool) :
    (c.tallied n marked).Counted where
  hits := h.hits
  judged := h.judged
  kept := by
    have := h.kept
    unfold Channel.tallied
    dsimp only
    split_ifs <;> first | omega | simp_all
  strays := h.strays
  hitRun := h.hitRun
  missRun := h.missRun
  lockCount := h.lockCount
  locked := h.locked
  openNote o ho := h.openNote o (Option.filter_eq_some_iff.mp ho).1

theorem Channel.Agrees.tallied {c : Channel} (h : c.Agrees) (n : Nat) (marked : Bool) :
    (c.tallied n marked).Agrees := ⟨h.counted.tallied n marked, h.frozen⟩

theorem Channel.Counted.lockHit {c : Channel} (h : c.Counted) : c.lockHit.Counted := by
  have hitRun : bump 2 c.hitRun ≤ 2 := min_le_left _ _
  unfold Channel.lockHit
  simp only
  split
  · refine { h with hitRun := hitRun, missRun := Nat.zero_le _, lockCount := min_le_left _ _, locked := fun _ => ?_ }
    change 0 < bump 255 c.lockCount
    unfold bump
    omega
  · exact { h with hitRun := hitRun, missRun := Nat.zero_le _ }

theorem Channel.Counted.lockMiss {c : Channel} (h : c.Counted) : c.lockMiss.Counted :=
  { h with
    hitRun := Nat.zero_le _
    missRun := min_le_left _ _
    locked := fun locked => h.locked (by
      unfold Channel.lockMiss at locked
      dsimp only at locked
      split at locked
      · cases locked
      · exact locked) }

@[simp] theorem lockHit_judged (c : Channel) : c.lockHit.judged = c.judged := by
  unfold Channel.lockHit; simp only; split <;> rfl

/-- A HIT or a MISS of a channel below saturation. -/
theorem Channel.Counted.count {c : Channel} (h : c.Counted) (below : c.judged < 65535) (hit : Bool)
    (time : Nat) (reference : Int) (pitch : Option Int) :
    (c.count hit time reference pitch).Counted := by
  have hits := h.hits
  have counted : Channel.Counted { c with
      judged := min 65535 (c.judged + 1)
      hits := if hit then min 65535 (c.hits + 1) else c.hits
      openNote := c.openNote.map fun (o : OpenNote) =>
        { o with a := o.a + 1, h := if hit then o.h + 1 else o.h } } := by
    refine { h with hits := ?_, judged := min_le_left _ _, openNote := fun o ho => ?_ }
    · dsimp only
      split <;> omega
    · obtain ⟨o', ho', rfl⟩ := Option.map_eq_some_iff.mp ho
      obtain ⟨ha, hj⟩ := h.openNote o' ho'
      dsimp only
      split <;> omega
  unfold Channel.count
  cases hit with
  | true => exact counted.lockHit
  | false =>
    simp only [Bool.false_eq_true, if_false] at counted ⊢
    split
    · exact Channel.Counted.lockMiss { counted with }
    · exact counted.lockMiss

/-! ## The operations -/

theorem channelsAgree_dependsOn : DependsOn [.voice] State.channelsAgree := by
  intro s t h hs
  have voice : t.voice = s.voice := h .voice (by decide)
  unfold State.channelsAgree
  rwa [voice]

theorem OnlyMic.channelsAgree {m : Fin 4} {s u : State} (h : OnlyMic m s u) (hs : s.channelsAgree)
    (hm : u.voice.channels[m].Agrees) : u.channelsAgree := by
  rw [channelsAgree_iff] at hs ⊢
  intro k
  by_cases hk : k = m
  · rw [hk]; exact hm
  · rw [h.channel k hk]; exact hs k

theorem setChannel_channelsAgree {s : State} (hs : s.channelsAgree) (m : Fin 4) {c : Channel}
    (hc : c.Agrees) : (s.setChannel m c).channelsAgree :=
  (setChannel_onlyMic s m c).channelsAgree hs (by rwa [setChannel_channel_same])

theorem tally_channelsAgree {s : State} (hs : s.channelsAgree) (m : Fin 4) (n : Nat) :
    (s.tally m n).channelsAgree :=
  (tally_onlyMic s m n).channelsAgree hs (by
    rw [tally_channel]; exact ((channelsAgree_iff s).mp hs m).tallied n _)

theorem tallyOpen_channelsAgree {s : State} (hs : s.channelsAgree) (m : Fin 4) :
    (s.tallyOpen m).channelsAgree := by
  unfold State.tallyOpen
  split
  · exact hs
  · exact tally_channelsAgree hs m _

theorem foldl_channelsAgree {α : Type} {f : State → α → State}
    (h : ∀ s x, s.channelsAgree → (f s x).channelsAgree) (xs : List α) {s : State}
    (hs : s.channelsAgree) : (xs.foldl f s).channelsAgree := by
  induction xs generalizing s with
  | nil => exact hs
  | cons x xs ih => exact ih (h s x hs)

theorem tallyAllOpen_channelsAgree {s : State} (hs : s.channelsAgree) :
    s.tallyAllOpen.channelsAgree :=
  foldl_channelsAgree (fun s m hs => by
    split
    · exact tallyOpen_channelsAgree hs m
    · exact hs) _ hs

theorem tallyPassed_channelsAgree {s : State} (hs : s.channelsAgree) (time : Nat) :
    (s.tallyPassed time).channelsAgree := by
  refine foldl_channelsAgree (fun s m hs => ?_) _ hs
  split
  · refine foldl_channelsAgree (fun s n hs => ?_) _ hs
    split
    · exact hs
    · exact tally_channelsAgree hs m _
  · exact hs

theorem tallyAtLatency_channelsAgree {s : State} (hs : s.channelsAgree) :
    s.tallyAtLatency.channelsAgree :=
  foldl_channelsAgree (fun s m hs => by
    have kept : ∀ c : Bool, (if s.judging m && c then s.tallyOpen m else s).channelsAgree := fun c => by
      split
      · exact tallyOpen_channelsAgree hs m
      · exact hs
    exact kept _) _ hs

theorem openNote_channelsAgree {s : State} (hs : s.channelsAgree) (m : Fin 4) (n : Nat) :
    (s.openNote m n).channelsAgree := by
  unfold State.openNote
  split
  · exact hs
  · have tallied := tallyOpen_channelsAgree hs m
    obtain ⟨counted, frozen⟩ := (channelsAgree_iff _).mp tallied m
    refine setChannel_channelsAgree tallied m ⟨{ counted with openNote := fun o ho => ?_ }, frozen⟩
    obtain rfl := Option.some.inj ho
    exact ⟨Nat.le_refl _, Nat.zero_le _⟩

/-- The channel once its open note is tallied is counted as it was before. -/
theorem tallyOpen_counted {s : State} {m : Fin 4} (h : s.voice.channels[m].Counted) :
    (s.tallyOpen m).voice.channels[m].Counted := by
  rw [tallyOpen_channel]
  split
  · exact h
  · exact h.tallied _ _

theorem openNote_judged (s : State) (m : Fin 4) (n : Nat) :
    (s.openNote m n).voice.channels[m].judged = s.voice.channels[m].judged := by
  unfold State.openNote
  split
  · rfl
  · rw [setChannel_channel_same, tallyOpen_channel]
    split <;> rfl

theorem judge_channelsAgree {s : State} (hs : s.channelsAgree) (m : Fin 4) (p : Option Int) :
    (s.judge m p).channelsAgree := by
  have agrees := (channelsAgree_iff s).mp hs m
  by_cases h : s.judges m
  · cases hn : s.noteJudged m with
    | none =>
      rw [judge_of_no_note h hn]
      split
      · exact setChannel_channelsAgree hs m
          ⟨{ agrees.counted.lockMiss with strays := min_le_left _ _ }, agrees.frozen⟩
      · exact hs
    | some n =>
      by_cases may : s.mayJudge m n
      · refine (judge_onlyMic s m p).channelsAgree hs ?_
        rw [(judge_of_note h hn p).2 may]
        have counted : (s.judgedChannel m n p).Counted := by
          refine Channel.Counted.count
            ((channelsAgree_iff _).mp (openNote_channelsAgree hs m n.2) m).counted ?_ _ _ _ _
          rw [openNote_judged]
          refine Nat.lt_of_le_of_ne agrees.counted.judged fun saturated => ?_
          have judging := h.1
          rw [State.judging, agrees.frozen saturated, Bool.not_true, Bool.and_false] at judging
          cases judging
        generalize s.judgedChannel m n p = c at counted ⊢
        dsimp only
        split
        · unfold State.saturate
          simp only [setChannel_channel_same]
          exact ⟨{ tallyOpen_counted (s := (s.openNote m n.2).setChannel m c)
            (by rwa [setChannel_channel_same]) with }, fun _ => rfl⟩
        next unsaturated =>
          rw [setChannel_channel_same]
          exact ⟨counted, fun saturated => absurd saturated unsaturated⟩
      · rw [(judge_of_note h hn p).1 may]
        exact hs
  · rw [judge_of_not_judges h]
    exact hs

theorem channelsAgree_of_channels {s u : State} (h : u.voice.channels = s.voice.channels)
    (hs : s.channelsAgree) : u.channelsAgree := by
  rw [channelsAgree_iff] at hs ⊢
  rwa [h]

theorem completeChannel_channelsAgree {s : State} (hs : s.channelsAgree) (m : Fin 4)
    (p : Option Int) : (s.completeChannel m p).channelsAgree := by
  obtain ⟨counted, frozen⟩ := (channelsAgree_iff s).mp hs m
  unfold State.completeChannel
  have framed : Channel.Agrees { s.voice.channels[m] with
      lastFrame := some { pitch := p, at_ := s.sessionTime } } := ⟨{ counted with }, frozen⟩
  exact judge_channelsAgree (setChannel_channelsAgree hs m framed) m p

theorem raise_voice (s : State) (ps : List Port) (n : Notice) : (s.raise ps n).voice = s.voice :=
  raise_touches s ps n .voice (by decide)

theorem endTone_voice (s : State) (t : ToneCheck) (o : ToneOutcome) : (s.endTone t o).voice =
    { s.voice with tone := none, lastTone := some (t.result o) } := by
  unfold State.endTone
  rw [raise_voice]

theorem abortTone_channels (s : State) : s.abortTone.voice.channels = s.voice.channels := by
  unfold State.abortTone
  split
  · rfl
  · rw [endTone_voice]

theorem countToneFrame_channels (s : State) (ps : Vector (Option Int) 4) :
    (s.countToneFrame ps).voice.channels = s.voice.channels := by
  unfold State.countToneFrame
  split
  · rfl
  · split
    · rfl
    · simp only
      split
      · rw [endTone_voice]
      · rfl

theorem beginTone_channels (s : State) : s.beginTone.voice.channels = s.voice.channels := by
  unfold State.beginTone
  split
  · rfl
  · split <;> rfl

theorem enterSamples_channels (s : State) (x : Samples) :
    (s.enterSamples x).voice.channels = s.voice.channels := by
  unfold State.enterSamples
  split
  · rfl
  · split <;> rfl

theorem setAudio_voice (s : State) (a : AudioState) :
    (s.setAudio a).voice = { s.voice with audio := a } := by
  unfold State.setAudio
  rw [raise_voice]

theorem completeFrame_channelsAgree {s : State} (hs : s.channelsAgree) :
    s.completeFrame.channelsAgree := by
  unfold State.completeFrame
  refine channelsAgree_of_channels (countToneFrame_channels _ _) ?_
  refine foldl_channelsAgree (fun _ m hs => completeChannel_channelsAgree hs m _) _ ?_
  exact channelsAgree_of_channels (s := s) rfl hs

theorem settleFrame_channelsAgree {s : State} (hs : s.channelsAgree) :
    s.settleFrame.channelsAgree := by
  unfold State.settleFrame
  split
  · exact completeFrame_channelsAgree hs
  · exact hs

theorem takeSamples_channelsAgree {s : State} (hs : s.channelsAgree) (x : Samples) :
    (s.takeSamples x).channelsAgree := by
  unfold State.takeSamples
  refine channelsAgree_of_channels (s := s.settleFrame) ?_ (settleFrame_channelsAgree hs)
  rw [enterSamples_channels, beginTone_channels]

theorem restoreAudio_channelsAgree {s : State} (hs : s.channelsAgree) (x : Samples) :
    (s.restoreAudio x).channelsAgree := by
  unfold State.restoreAudio
  refine takeSamples_channelsAgree (channelsAgree_of_channels ?_ hs) x
  rw [setAudio_voice]

theorem loseAudio_channelsAgree {s : State} (hs : s.channelsAgree) : s.loseAudio.channelsAgree := by
  unfold State.loseAudio
  refine channelsAgree_of_channels (s := s.settleFrame) ?_ (settleFrame_channelsAgree hs)
  rw [abortTone_channels, setAudio_voice]

/-! ## Turns -/

theorem turnStart_agrees (c : Channel) : c.turnStart.Agrees where
  counted := ⟨Nat.zero_le _, Nat.zero_le _, Nat.zero_le _, Nat.zero_le _, Nat.zero_le _,
    Nat.zero_le _, Nat.zero_le _, nofun, nofun⟩
  frozen := nofun

theorem mapChannels_channelsAgree (s : State) (v : Voice) {f : Channel → Channel}
    (hf : ∀ c, (f c).Agrees) : State.channelsAgree { s with voice := v.mapChannels f } := by
  rw [channelsAgree_iff]
  intro m
  have : (v.channels.map f)[m] = f v.channels[m] := Vector.getElem_map ..
  change (v.channels.map f)[m].Agrees
  rw [this]
  exact hf _

theorem endTurn_voice (s : State) (t : Turn) (r : EndReason) (b : Bool) :
    (s.endTurn t r b).voice = s.tallyAllOpen.voice := by
  unfold State.endTurn
  simp only
  rw [testCall_touches _ .voice (by decide), raise_touches _ _ _ .voice (by decide),
    turn_touches _ _ .voice (by decide), startScoreShow_touches _ _ .voice (by decide),
    emptyWindow_touches _ .voice (by decide), clock_touches _ _ .voice (by decide),
    scrubSlot_touches _ _ .voice (by decide), file_touches _ _ .voice (by decide)]

theorem endTurn_channelsAgree {s : State} (hs : s.channelsAgree) (t : Turn) (r : EndReason)
    (b : Bool) : (s.endTurn t r b).channelsAgree :=
  channelsAgree_of_channels (congrArg Voice.channels (endTurn_voice s t r b))
    (tallyAllOpen_channelsAgree hs)

theorem channelsAgree_keptByMotion : KeptByMotion State.channelsAgree :=
  have dep := @DependsOn.of_touches _
  { clock := fun s c => dep channelsAgree_dependsOn (clock_touches s c) rfl
    flag := fun s f => dep channelsAgree_dependsOn (flagTurn_touches s f) rfl
    notices := fun s ps n => dep channelsAgree_dependsOn (raise_touches s ps n) rfl
    rebuild := fun s => dep channelsAgree_dependsOn (requestRebuild_touches s) rfl
    lines := fun s n => dep channelsAgree_dependsOn (lineEventsAt_touches s n) rfl
    tallied := fun _ => tallyAllOpen_channelsAgree
    passed := fun _ n hs => tallyPassed_channelsAgree hs n
    ends := fun _ t r b _ hs => endTurn_channelsAgree hs t r b }

theorem take_channels (s : State) (e : Entry) (i : Fin 4) :
    (s.take e i).voice.channels = s.voice.channels.map Channel.turnStart := by
  unfold State.take
  simp only
  rw [bookChanged_touches _ .voice (by decide), raise_touches _ _ _ .voice (by decide),
    requestRebuild_touches _ .voice (by decide), emptyWindow_touches _ .voice (by decide),
    endScoreShow_touches _ .voice (by decide), abortTone_channels]
  rfl

theorem takeBlock_channelsAgree (s : State) (hs : s.channelsAgree) :
    (takeBlock s).state.channelsAgree := by
  unfold takeBlock
  split
  · exact hs
  · split
    · exact hs
    · split
      · exact hs
      next e _ i _ =>
        rw [readOk_state, channelsAgree_iff, take_channels]
        intro m
        have : (s.voice.channels.map Channel.turnStart)[m] = s.voice.channels[m].turnStart :=
          Vector.getElem_map ..
        rw [this]
        exact turnStart_agrees _

theorem sessionReset_channels (s : State) : s.resetBlocks.resetNotices.voice.channels =
    s.voice.channels.map Channel.sessionReset := by
  have dropped : ∀ v : Voice, v.dropTone.channels = v.channels := fun v => by
    unfold Voice.dropTone
    split <;> rfl
  rw [resetNotices_touches _ .voice (by decide)]
  unfold State.resetBlocks
  simp only
  rw [retitle_touches _ .voice (by decide), mapLines_touches' _ _ .voice (by decide)]
  change (Voice.dropTone _).channels.map _ = _
  rw [dropped, endScoreShow_touches _ .voice (by decide), emptyWindow_touches _ .voice (by decide)]

theorem sessionReset_agrees (c : Channel) : c.sessionReset.Agrees :=
  ⟨{ (turnStart_agrees c).counted with }, (turnStart_agrees c).frozen⟩

/-! ## The commands of the unit -/

theorem Channel.Agrees.enabled {c : Channel} (h : c.Agrees) (x : Bool) :
    Channel.Agrees { c with enabled := x } := ⟨{ h.counted with }, h.frozen⟩

theorem Channel.Agrees.part {c : Channel} (h : c.Agrees) (x : Part) :
    Channel.Agrees { c with part := x } := ⟨{ h.counted with }, h.frozen⟩

theorem Channel.Agrees.colour {c : Channel} (h : c.Agrees) (x : Colour) :
    Channel.Agrees { c with colour := x } := ⟨{ h.counted with }, h.frozen⟩

theorem Channel.Agrees.joinLate {c : Channel} (h : c.Agrees) : c.joinLate.Agrees :=
  ⟨{ h.counted with }, h.frozen⟩

theorem Channel.Agrees.leave {c : Channel} (h : c.Agrees) : c.leave.Agrees :=
  ⟨{ h.counted with hitRun := Nat.zero_le _, missRun := Nat.zero_le _, locked := nofun }, h.frozen⟩

theorem enableMic_channelsAgree {s : State} (hs : s.channelsAgree) (m : Fin 4) (x : Bool) :
    (s.enableMic m x).channelsAgree := by
  have agrees := (channelsAgree_iff s).mp hs m
  unfold State.enableMic
  simp only
  split
  · exact setChannel_channelsAgree hs m (agrees.enabled x)
  · split
    · exact setChannel_channelsAgree hs m agrees.joinLate
    · have tallied := tallyOpen_channelsAgree hs m
      exact setChannel_channelsAgree tallied m ((channelsAgree_iff _).mp tallied m).leave

/-- The kept notes of a part are among its counted ones. -/
theorem countMarks_kept_le (s : State) (m : Fin 4) :
    s.countMarks m (· = .kept) ≤ s.countMarks m (· ≠ .empty) := by
  refine List.countP_mono_left fun n _ kept => ?_
  rw [Option.any_eq_true] at kept ⊢
  obtain ⟨x, marked, hx⟩ := kept
  exact ⟨x, marked, by simp_all⟩

theorem changePart_channelsAgree {s : State} (hs : s.channelsAgree) (m : Fin 4) (x : Part) :
    (s.changePart m x).channelsAgree := by
  have tallied := tallyOpen_channelsAgree hs m
  have agrees := (channelsAgree_iff _).mp tallied m
  unfold State.changePart
  simp only
  have parted := setChannel_channelsAgree tallied m (agrees.part x)
  have counted := (channelsAgree_iff _).mp parted m
  generalize State.setChannel (s.tallyOpen m) m _ = u at parted counted ⊢
  have recounted : ∀ flags : ChannelFlags, (u.setChannel m { u.voice.channels[m] with
      notes := u.countMarks m (· ≠ .empty), kept := u.countMarks m (· = .kept)
      flags := flags }).channelsAgree := fun flags => by
    have channel : Channel.Agrees { u.voice.channels[m] with
        notes := u.countMarks m (· ≠ .empty), kept := u.countMarks m (· = .kept)
        flags := flags } :=
      ⟨{ counted.counted with kept := countMarks_kept_le u m }, counted.frozen⟩
    exact setChannel_channelsAgree parted m channel
  split
  · exact channelsAgree_dependsOn.of_touches (flagTurn_touches _ _) rfl (recounted _)
  · exact recounted _

theorem setScoringBlock_channelsAgree (g : Scoring) (s : State) (hs : s.channelsAgree) :
    (setScoringBlock g s).state.channelsAgree := by
  unfold setScoringBlock
  simp only
  split
  · exact hs
  · have set := channelsAgree_of_channels
      (u := { s with voice := { s.voice with scoring := g.clamped } }) rfl hs
    split
    · exact tallyAtLatency_channelsAgree set
    · exact set

theorem toneCheckBlock_channelsAgree (m : Byte) (n : Nat) (s : State) (hs : s.channelsAgree) :
    (toneCheckBlock m n s).state.channelsAgree := by
  unfold toneCheckBlock
  split
  · exact hs
  · simp only [apply_ite Taken.state]
    split_ifs
    · exact hs
    · exact hs
    · exact hs
    · rw [readOk_state]
      exact channelsAgree_of_channels rfl hs

theorem missAudio_channelsAgree {s : State} (hs : s.channelsAgree) : s.missAudio.channelsAgree := by
  unfold State.missAudio
  split
  · exact loseAudio_channelsAgree hs
  · exact hs

/-! ## Every step -/

/-- Settles O12, operation by operation on one mic's channel: a tally raises K only with N, a judgement
raises H only with A, and a channel whose A comes to 65,535 is frozen by the judgement that brings it
there, to be judged no more. -/
theorem channelCountsStayInOrder : Obligations.ChannelCountsStayInOrder := by
  have client := @clientCommand_keeps _ _ channelsAgree_dependsOn rfl
  have motion := channelsAgree_keptByMotion
  refine step_keeps channelsAgree_dependsOn rfl ?rows ?tick
  case tick =>
    exact fun s hs => motion.tickClock _ (channelsAgree_of_channels (s := s) rfl hs)
  case rows =>
    intro i hi hc s t hs run
    cases i with
    | powerOnReset =>
      obtain rfl := Host.Outcome.next.inj run
      obtain ⟨_, _, _, _, atReset⟩ := invariantsHoldAtReset
      exact channelsAgree_of_channels (s := State.reset) rfl atReset
    | sessionReset p =>
      refine client hs run rfl fun u _ => ?_
      rw [readOk_state, channelsAgree_iff, sessionReset_channels]
      intro m
      have : (u.voice.channels.map Channel.sessionReset)[m] = u.voice.channels[m].sessionReset :=
        Vector.getElem_map ..
      rw [this]
      exact sessionReset_agrees _
    | takeTurn p => exact client hs run rfl takeBlock_channelsAgree
    | endTurn p n r => exact client hs run (exec_endTurn p n r s) (motion.endTurnBlock _ _)
    | abortTurn p n => exact client hs run (exec_abortTurn p n s) (motion.abortTurnBlock _)
    | seek p n => exact client hs run rfl (motion.seekBlock _)
    | sync p n => exact client hs run rfl (motion.syncBlock _)
    | setMicEnable p m x =>
      refine client hs run rfl fun u hu => ?_
      split
      · exact enableMic_channelsAgree hu _ _
      · exact hu
    | setMicColour p m x =>
      refine client hs run rfl fun u hu => ?_
      split
      · exact setChannel_channelsAgree hu _ (((channelsAgree_iff u).mp hu _).colour x)
      · exact hu
    | setPart p m x =>
      refine client hs run rfl fun u hu => ?_
      split
      · rw [readOk_state]
        split
        · exact setChannel_channelsAgree hu _ (((channelsAgree_iff u).mp hu _).part _)
        · exact changePart_channelsAgree hu _ _
      · exact hu
    | setScoring p gate tol grace latency fold wp wn cost =>
      refine client hs run rfl fun u hu => ?_
      split
      · exact hu
      · exact setScoringBlock_channelsAgree _ _ hu
    | toneCheck p m n => exact client hs run rfl (toneCheckBlock_channelsAgree _ _)
    | audioLossTimeout =>
      obtain rfl := Host.Outcome.next.inj run
      exact missAudio_channelsAgree hs
    | audioRestored w =>
      simp only [exec, execAudioRestored] at run
      split at run <;> obtain rfl := Host.Outcome.next.inj run
      · exact restoreAudio_channelsAgree hs _
      · exact hs
    | tdmFrame w =>
      simp only [exec, execTdmFrame] at run
      split at run <;> obtain rfl := Host.Outcome.next.inj run
      · exact takeSamples_channelsAgree hs _
      · exact restoreAudio_channelsAgree hs _
    | voiceFrameComplete =>
      simp only [exec, execVoiceFrameComplete] at run
      split at run <;> obtain rfl := Host.Outcome.next.inj run
      · exact completeFrame_channelsAgree hs
      · exact hs
    | toneCheckEnd =>
      simp only [exec, execToneCheckEnd] at run
      split at run <;> obtain rfl := Host.Outcome.next.inj run
      · exact completeFrame_channelsAgree hs
      · exact hs
    | timebaseTick => exact absurd rfl hi
    | _ => cases hc

end Sys2Proof.Machine
end

section
/-! What the Line Scheduler does with the Glyph Cache, and what it leaves of its own settings: lookups,
releases and late marks alone, and, but for the choice of the title, neither title nor settings. -/

namespace Sys2Proof.Machine

/-- A cache reached from another by lookups, releases, prefetches and late marks. -/
inductive CacheRun (store : StoreState) (c : Cache) : Cache → Prop where
  | refl : CacheRun store c c
  | pin {d : Cache} (k : Code) : CacheRun store c d → CacheRun store c (d.lookupPin store k)
  | release {d : Cache} (k : Code) : CacheRun store c d → CacheRun store c (d.release k)
  | prefetch {d : Cache} (k : Code) : CacheRun store c d → CacheRun store c (d.prefetch store k)
  | late {d : Cache} {k : Code} {i : Nat} (h : d.find k = some i) :
    CacheRun store c d → CacheRun store c (d.setEntry i { d.entry i with late := true })

namespace CacheRun

variable {store : StoreState} {c d e : Cache}

theorem trans (h : CacheRun store c d) (g : CacheRun store d e) : CacheRun store c e := by
  induction g with
  | refl => exact h
  | pin k _ ih => exact ih.pin k
  | release k _ ih => exact ih.release k
  | prefetch k _ ih => exact ih.prefetch k
  | late found _ ih => exact ih.late found

theorem pins (ks : List Code) (h : CacheRun store c d) :
    CacheRun store c (ks.foldl (Cache.lookupPin store) d) := by
  induction ks generalizing d with
  | nil => exact h
  | cons k ks ih => exact ih (h.pin k)

theorem releases (ks : List Code) (h : CacheRun store c d) :
    CacheRun store c (ks.foldl Cache.release d) := by
  induction ks generalizing d with
  | nil => exact h
  | cons k ks ih => exact ih (h.release k)

theorem prefetches (ks : List Code) (h : CacheRun store c d) :
    CacheRun store c (ks.foldl (Cache.prefetch store) d) := by
  induction ks generalizing d with
  | nil => exact h
  | cons k ks ih => exact ih (h.prefetch k)

end CacheRun

/-- A change whose part in the cache is lookups, releases and late marks, the font port untouched. -/
structure UsesCache (s t : State) : Prop where
  font : t.font = s.font
  cache : CacheRun s.font.store s.cache t.cache

theorem UsesCache.refl (s : State) : UsesCache s s := ⟨rfl, .refl⟩

theorem UsesCache.trans {s t u : State} (h : UsesCache s t) (g : UsesCache t u) : UsesCache s u :=
  ⟨g.font.trans h.font, h.cache.trans (h.font ▸ g.cache)⟩

theorem UsesCache.of_touches {ks : List Piece} {s t : State} (h : Touches ks s t)
    (cache : ks.contains .cache = false := by rfl) (font : ks.contains .font = false := by rfl) :
    UsesCache s t := by
  have same : t.cache = s.cache := h .cache (by
    intro mem; rw [List.contains_iff_mem.mpr mem] at cache; cases cache)
  refine ⟨h .font (by intro mem; rw [List.contains_iff_mem.mpr mem] at font; cases font), ?_⟩
  rw [same]
  exact .refl

theorem UsesCache.ite {s t u : State} {c : Prop} [Decidable c] (h : UsesCache s t)
    (g : UsesCache s u) : UsesCache s (if c then t else u) := by
  split
  · exact h
  · exact g

/-- A change of the line window's own: its use of the cache, the window, the pending list, the scroll, and
the count of lines posted late; all else of scheduler and Compositor stays. -/
structure Windowed (s t : State) : Prop where
  uses : UsesCache s t
  lines : t.lines = { s.lines with
    window := t.lines.window, pending := t.lines.pending, scroll := t.lines.scroll }
  video : t.video = { s.video with postLate := t.video.postLate }

namespace Windowed

theorem refl (s : State) : Windowed s s := ⟨.refl s, rfl, rfl⟩

theorem trans {s t u : State} (h : Windowed s t) (g : Windowed t u) : Windowed s u :=
  ⟨h.uses.trans g.uses, by rw [g.lines, h.lines], by rw [g.video, h.video]⟩

theorem ite {s t u : State} {c : Prop} [Decidable c] (h : Windowed s t) (g : Windowed s u) :
    Windowed s (if c then t else u) := by
  split
  · exact h
  · exact g

theorem foldl {α : Type} {f : State → α → State} (h : ∀ s x, Windowed s (f s x)) (xs : List α)
    (s : State) : Windowed s (xs.foldl f s) := by
  induction xs generalizing s with
  | nil => exact refl s
  | cons x xs ih => exact (h s x).trans (ih _)

end Windowed

/-! ## The operations of the window -/

theorem pin_windowed (s : State) (ks : List Code) : Windowed s (s.pin ks) :=
  ⟨⟨rfl, CacheRun.refl.pins ks⟩, rfl, rfl⟩

theorem unpin_windowed (s : State) (ks : List Code) : Windowed s (s.unpin ks) :=
  ⟨⟨rfl, CacheRun.refl.releases ks⟩, rfl, rfl⟩

theorem prefetch_windowed (s : State) (ks : List Code) : Windowed s (s.prefetch ks) :=
  ⟨⟨rfl, CacheRun.refl.prefetches _⟩, rfl, rfl⟩

theorem mapLines_windowed (s : State) {f : LineScheduler → LineScheduler}
    (h : f s.lines = { s.lines with
      window := (f s.lines).window, pending := (f s.lines).pending
      scroll := (f s.lines).scroll } := by rfl) : Windowed s (s.mapLines f) :=
  ⟨⟨rfl, .refl⟩, h, rfl⟩

theorem postLate_windowed (s : State) (n : Nat) :
    Windowed s { s with video := { s.video with postLate := n } } := ⟨⟨rfl, .refl⟩, rfl, rfl⟩

theorem enterLine_windowed (s : State) (x : PendingLine) (row : Nat) :
    Windowed s (s.enterLine x row) := (mapLines_windowed s).trans (pin_windowed _ _)

theorem dropLines_windowed (s : State) (p : WindowLine → Bool) : Windowed s (s.dropLines p) :=
  (mapLines_windowed s).trans (unpin_windowed _ _)

theorem startScroll_windowed (s : State) (x : Option PendingLine) :
    Windowed s (s.startScroll x) := by
  unfold State.startScroll
  cases x with
  | none => exact mapLines_windowed s
  | some x => exact (mapLines_windowed s).trans (enterLine_windowed _ _ _)

theorem placeStep_windowed {s t : State} (h : s.placeStep = some t) : Windowed s t := by
  have taken := fun rest => mapLines_windowed s (f := fun l => { l with pending := rest })
  unfold State.placeStep at h
  split at h
  · cases h
  · split at h
    · cases h
    · simp only at h
      split at h
      · split at h
        · cases h; exact (taken _).trans (enterLine_windowed _ _ _)
        · split at h
          · split at h
            · cases h; exact (taken _).trans (startScroll_windowed _ _)
            · cases h
          · cases h
      · split at h
        · cases h; exact (taken _).trans (enterLine_windowed _ _ _)
        · split at h
          · cases h
            exact ((taken _).trans (dropLines_windowed _ _)).trans (enterLine_windowed _ _ _)
          · cases h

theorem lingerStep_windowed {s t : State} (h : s.lingerStep = some t) : Windowed s t := by
  unfold State.lingerStep at h
  split at h
  · split at h
    · split at h
      · cases h; exact startScroll_windowed _ _
      · cases h
    · cases h
  · cases h

theorem completeStep_windowed {s t : State} (h : s.completeStep = some t) : Windowed s t := by
  unfold State.completeStep at h
  split at h
  · cases h
  · split at h
    · cases h; exact (dropLines_windowed _ _).trans (mapLines_windowed _)
    · cases h

theorem settleLines_windowed (n : Nat) (s : State) : Windowed s (settleLines n s) := by
  induction n generalizing s with
  | zero => exact .refl s
  | succ n ih =>
    unfold settleLines
    split
    next t h => exact (completeStep_windowed h).trans (ih t)
    next =>
      split
      next t h => exact (placeStep_windowed h).trans (ih t)
      next =>
        split
        next t h => exact (lingerStep_windowed h).trans (ih t)
        next => exact .refl s

theorem settle_windowed (s : State) : Windowed s s.settle := settleLines_windowed _ _

theorem emptyWindow_windowed (s : State) : Windowed s s.emptyWindow :=
  (dropLines_windowed _ _).trans (mapLines_windowed _)

theorem lineEvent_windowed (s : State) (x : Line) (n : Nat) (e : LineEvent) :
    Windowed s (s.lineEvent x n e) := by
  unfold State.lineEvent
  cases e with
  | done => exact mapLines_windowed s
  | start => exact mapLines_windowed s
  | leave =>
    simp only
    split
    · exact (mapLines_windowed s).trans (mapLines_windowed _)
    · exact (mapLines_windowed s).trans (dropLines_windowed _ _)
  | post =>
    simp only
    split
    · exact .refl s
    · exact mapLines_windowed s
  | prefetch => exact prefetch_windowed _ _

theorem takeLineEvent_windowed (s : State) (e : LineEvent) (x : Line × Nat) :
    Windowed s (s.takeLineEvent e x) := by
  have taken : Windowed s (s.lineEvent x.1 x.2 e).settle :=
    (lineEvent_windowed _ _ _ _).trans (settle_windowed _)
  unfold State.takeLineEvent State.countPostLate
  exact .ite (.ite (taken.trans (postLate_windowed _ _)) taken) taken

theorem lineEventsAt_windowed (s : State) (n : Nat) : Windowed s (s.lineEventsAt n) := by
  unfold State.lineEventsAt
  exact .ite (.refl s) (.foldl (fun _ _ => .foldl (fun _ _ => takeLineEvent_windowed _ _ _) _ _) _ _)

theorem countScroll_windowed (s : State) : Windowed s s.countScroll := by
  unfold State.countScroll
  split
  · exact .refl s
  · exact (mapLines_windowed s).trans (settle_windowed _)

/-- A change of the scheduler's own: its use of the cache, and its window, pending list, scroll, rebuild
and score show; title and settings stay. -/
structure Scheduled (s t : State) : Prop where
  uses : UsesCache s t
  settings : t.lines = { s.lines with
    window := t.lines.window, pending := t.lines.pending, scroll := t.lines.scroll
    rebuild := t.lines.rebuild, hinted := t.lines.hinted, scoreShow := t.lines.scoreShow
    stepTwoMade := t.lines.stepTwoMade }

namespace Scheduled

theorem refl (s : State) : Scheduled s s := ⟨.refl s, rfl⟩

theorem trans {s t u : State} (h : Scheduled s t) (g : Scheduled t u) : Scheduled s u :=
  ⟨h.uses.trans g.uses, by rw [g.settings, h.settings]⟩

theorem ite {s t u : State} {c : Prop} [Decidable c] (h : Scheduled s t) (g : Scheduled s u) :
    Scheduled s (if c then t else u) := by
  split
  · exact h
  · exact g

theorem foldl {α : Type} {f : State → α → State} (h : ∀ s x, Scheduled s (f s x)) (xs : List α)
    (s : State) : Scheduled s (xs.foldl f s) := by
  induction xs generalizing s with
  | nil => exact refl s
  | cons x xs ih => exact (h s x).trans (ih _)

theorem title {s t : State} (h : Scheduled s t) : t.lines.title = s.lines.title := by
  rw [h.settings]

theorem titleRows {s t : State} (h : Scheduled s t) : t.lines.titleRows = s.lines.titleRows := by
  rw [h.settings]

theorem layout {s t : State} (h : Scheduled s t) : t.lines.layout = s.lines.layout := by
  rw [h.settings]; rfl

end Scheduled

theorem Windowed.scheduled {s t : State} (h : Windowed s t) : Scheduled s t :=
  ⟨h.uses, by rw [h.lines]⟩

/-! ## The other operations of the scheduler -/

theorem pin_scheduled (s : State) (ks : List Code) : Scheduled s (s.pin ks) :=
  (pin_windowed s ks).scheduled

theorem unpin_scheduled (s : State) (ks : List Code) : Scheduled s (s.unpin ks) :=
  (unpin_windowed s ks).scheduled

theorem prefetch_scheduled (s : State) (ks : List Code) : Scheduled s (s.prefetch ks) :=
  (prefetch_windowed s ks).scheduled

theorem dropLines_scheduled (s : State) (p : WindowLine → Bool) : Scheduled s (s.dropLines p) :=
  (dropLines_windowed s p).scheduled

theorem emptyWindow_scheduled (s : State) : Scheduled s s.emptyWindow :=
  (emptyWindow_windowed s).scheduled

theorem lineEventsAt_scheduled (s : State) (n : Nat) : Scheduled s (s.lineEventsAt n) :=
  (lineEventsAt_windowed s n).scheduled

theorem countScroll_scheduled (s : State) : Scheduled s s.countScroll :=
  (countScroll_windowed s).scheduled

theorem mapLines_scheduled (s : State) {f : LineScheduler → LineScheduler}
    (h : f s.lines = { s.lines with
      window := (f s.lines).window, pending := (f s.lines).pending, scroll := (f s.lines).scroll
      rebuild := (f s.lines).rebuild, hinted := (f s.lines).hinted
      scoreShow := (f s.lines).scoreShow, stepTwoMade := (f s.lines).stepTwoMade } := by rfl) :
    Scheduled s (s.mapLines f) := ⟨⟨rfl, .refl⟩, h⟩

theorem video_scheduled (s : State) (v : Compositor) : Scheduled s { s with video := v } :=
  ⟨⟨rfl, .refl⟩, rfl⟩

theorem requestRebuild_scheduled (s : State) : Scheduled s s.requestRebuild :=
  (dropLines_scheduled _ _).trans (mapLines_scheduled _)

theorem rebuildFrom_scheduled (s : State) (ls : List (Line × Nat)) :
    Scheduled s (s.rebuildFrom ls) :=
  (((unpin_scheduled _ _).trans (mapLines_scheduled _)).trans (pin_scheduled _ _)).trans
    (.foldl (fun _ _ => prefetch_scheduled _ _) _ _)

theorem makeRebuild_scheduled (s : State) : Scheduled s s.makeRebuild := by
  unfold State.makeRebuild
  split
  · split
    · exact mapLines_scheduled s
    · exact rebuildFrom_scheduled _ _
  · exact .refl s

theorem hintTitle_scheduled (s : State) : Scheduled s s.hintTitle := by
  unfold State.hintTitle
  refine .ite (.refl s) ?_
  split
  · exact mapLines_scheduled s
  · exact (mapLines_scheduled s).trans (prefetch_scheduled _ _)

theorem startScoreShow_scheduled (s : State) (h : Option Nat) :
    Scheduled s (s.startScoreShow h) := by
  unfold State.startScoreShow
  split
  · exact .refl s
  · exact .ite (.refl s) ((mapLines_scheduled s).trans (pin_scheduled _ _))

theorem endScoreShow_scheduled (s : State) : Scheduled s s.endScoreShow := by
  unfold State.endScoreShow
  split
  · exact .refl s
  · exact (mapLines_scheduled s).trans (unpin_scheduled _ _)

theorem passScoreShow_scheduled (s : State) : Scheduled s s.passScoreShow := by
  unfold State.passScoreShow
  split
  · exact .ite (endScoreShow_scheduled s) (.refl s)
  · exact .refl s

theorem countLate_scheduled (s : State) (k : Code) : Scheduled s (s.countLate k) := by
  unfold State.countLate
  split
  · exact .refl s
  next i found =>
    simp only
    split
    · exact ⟨⟨rfl, CacheRun.refl.late found⟩, rfl⟩
    · exact .refl s

theorem countClipped_scheduled (s : State) (x : WindowLine) : Scheduled s (s.countClipped x) := by
  unfold State.countClipped
  exact .ite ⟨⟨rfl, .refl⟩, rfl⟩ (.refl s)

theorem countDrawn_scheduled (s : State) (f : OutputFrame) : Scheduled s (s.countDrawn f) := by
  have late := Scheduled.foldl (fun s (g : GlyphBox) => countLate_scheduled s g.code)
    (s.drawnGlyphs f) s
  exact .ite (late.trans (.foldl countClipped_scheduled _ _)) late

theorem latchOverlay_scheduled (s : State) : Scheduled s s.latchOverlay :=
  (countDrawn_scheduled s s.capture).trans (video_scheduled _ _)

theorem frameLatch_scheduled (s : State) : Scheduled s s.frameLatch := by
  unfold State.frameLatch
  exact (((makeRebuild_scheduled s).trans (.ite (.refl _) (countScroll_scheduled _))).trans
    (mapLines_scheduled _)).trans (latchOverlay_scheduled _)

/-! ## The title and what rests on it -/

theorem mapLines_uses (s : State) (f : LineScheduler → LineScheduler) : UsesCache s (s.mapLines f) :=
  .of_touches (mapLines_touches s f)

theorem retitle_uses (s : State) : UsesCache s s.retitle := by
  unfold State.retitle
  refine UsesCache.trans (.ite (.refl s) ?_) (hintTitle_scheduled _).uses
  exact ((mapLines_uses s _).trans (pin_scheduled _ _).uses).trans (unpin_scheduled _ _).uses

theorem relayout_uses (s : State) (f : LineScheduler → LineScheduler) :
    UsesCache s (s.relayout f) := by
  unfold State.relayout
  exact ((mapLines_uses s f).trans (.ite (.refl _) (requestRebuild_scheduled _).uses)).trans
    (retitle_uses _)

theorem testCall_uses (s : State) : UsesCache s s.testCall := by
  unfold State.testCall
  split
  next t h =>
    exact ((UsesCache.of_touches (callHead_touches h)).trans (.of_touches (changed_touches t))).trans
      (retitle_uses _)
  next => exact retitle_uses s

theorem bookChanged_uses (s : State) : UsesCache s s.bookChanged :=
  (UsesCache.of_touches (changed_touches s)).trans (testCall_uses _)

end Sys2Proof.Machine
end

section
/-! The Glyph Cache in order (R124 to R131): every lookup, release, fetch, scan and entry into
maintenance keeps its entries, its recency order and its order of fetches in agreement. -/

namespace Sys2Proof.Machine

/-! ## Lists of entry numbers -/

theorem mem_filter_ne {l : List Nat} {i j : Nat} : j ∈ l.filter (· ≠ i) ↔ j ∈ l ∧ j ≠ i := by
  simp

theorem mem_moveLast {l : List Nat} {i j : Nat} :
    j ∈ l.filter (· ≠ i) ++ [i] ↔ j = i ∨ j ∈ l := by
  by_cases h : j = i <;> simp [h]

theorem nodup_moveLast {l : List Nat} (h : l.Nodup) (i : Nat) :
    (l.filter (· ≠ i) ++ [i]).Nodup := by
  rw [List.nodup_append]
  refine ⟨h.filter _, by simp, fun a ha b hb => ?_⟩
  rw [List.mem_singleton.mp hb]
  exact (mem_filter_ne.mp ha).2

/-! ## The order -/

/-- An entry that is FREE exactly without a code, then bare, and that has a bitmap if RESIDENT or
STALE. -/
structure CacheEntry.Sound (e : CacheEntry) : Prop where
  free_iff : e.state = .free ↔ e.code = none
  bare : e.state = .free → e.bitmap = none ∧ e.pins = 0
  bitmap : e.state = .resident ∨ e.state = .stale → e.bitmap ≠ none

/-- The Glyph Cache in order, its fetch in progress only while the store is READY. -/
structure Cache.Ordered (ready : Prop) (c : Cache) : Prop where
  length : c.entries.length = 640
  codes : ∀ i j k, i < 640 → j < 640 → (c.entry i).code = some k → (c.entry j).code = some k → i = j
  sound : ∀ i, i < 640 → (c.entry i).Sound
  recency : c.recency.Nodup
  mem_recency : ∀ i, i ∈ c.recency ↔ i < 640 ∧ (c.entry i).state ≠ .free
  fetchOrder : c.fetchOrder.Nodup
  mem_fetchOrder : ∀ i, i ∈ c.fetchOrder ↔ i < 640 ∧ (c.entry i).isFetching = true
  inProgress : ∀ i, c.inProgress = some i → i < 640 ∧ (c.entry i).isFetching = true ∧ ready
  prefetches : c.countFetching .prefetch ≤ 64

theorem entry_eq_getElem {c : Cache} {i : Nat} (h : i < c.entries.length) :
    c.entry i = c.entries[i] := by
  simp [Cache.entry, h]

theorem forall_mem_entries_iff {c : Cache} {P : CacheEntry → Prop} :
    (∀ e ∈ c.entries, P e) ↔ ∀ i, i < c.entries.length → P (c.entry i) := by
  simp only [List.forall_mem_iff_forall_getElem]
  exact forall₂_congr fun i hi => by rw [entry_eq_getElem hi]

theorem cacheAgrees_iff (s : State) :
    s.cacheAgrees ↔ s.cache.Ordered (s.font.store = .ready) := by
  have count : (s.cache.entries.filter fun e => e.state = .fetching .prefetch).length =
      s.cache.countFetching .prefetch := List.countP_eq_length_filter.symm
  constructor
  · rintro ⟨len, codes, entries, recency, memR, fetch, memF, progress, limit⟩
    refine ⟨len, codes, fun i hi => ?_, recency, memR, fetch, memF, progress, count ▸ limit⟩
    obtain ⟨free, bare, bitmap⟩ := forall_mem_entries_iff.mp entries i (len.symm ▸ hi)
    exact ⟨free, bare, bitmap⟩
  · rintro ⟨len, codes, sound, recency, memR, fetch, memF, progress, limit⟩
    refine ⟨len, codes, forall_mem_entries_iff.mpr fun i hi => ?_, recency, memR, fetch, memF,
      progress, count ▸ limit⟩
    obtain ⟨free, bare, bitmap⟩ := sound i (len ▸ hi)
    exact ⟨free, bare, bitmap⟩

/-! ## One entry changed -/

theorem CacheEntry.isFetching_iff (e : CacheEntry) :
    e.isFetching = true ↔ ∃ cls, e.state = .fetching cls := by
  unfold CacheEntry.isFetching
  split
  next cls h => simp [h]
  next h => simp only [Bool.false_eq_true, false_iff]; rintro ⟨cls, hc⟩; exact h cls hc

theorem countFetching_set {c : Cache} {i : Nat} (hi : i < c.entries.length) (e : CacheEntry)
    (cls : FetchClass) : (c.setEntry i e).countFetching cls ≤ c.countFetching cls +
      (if e.state = .fetching cls ∧ (c.entry i).state ≠ .fetching cls then 1 else 0) := by
  unfold Cache.countFetching Cache.setEntry
  simp only
  rw [List.countP_set hi, ← entry_eq_getElem hi]
  have positive : (c.entry i).state = .fetching cls →
      0 < c.entries.countP fun e => e.state = .fetching cls := fun h =>
    List.countP_pos_iff.mpr ⟨c.entries[i], List.getElem_mem hi, by simpa [← entry_eq_getElem hi] using h⟩
  by_cases old : (c.entry i).state = .fetching cls <;> by_cases new : e.state = .fetching cls <;>
    simp_all

/-- An entry changed, and the two orders with it: what is left to see is that entry's own part. -/
theorem Cache.Ordered.set {ready : Prop} {c d : Cache} (h : c.Ordered ready) {i : Nat} (hi : i < 640)
    {e : CacheEntry} (entries : d.entries = c.entries.set i e) (sound : e.Sound)
    (code : ∀ k, e.code = some k → (c.entry i).code = some k ∨ c.find k = none)
    (recency : d.recency.Nodup)
    (mem_recency : ∀ j, j ∈ d.recency ↔ if j = i then e.state ≠ .free else j ∈ c.recency)
    (fetchOrder : d.fetchOrder.Nodup)
    (mem_fetchOrder : ∀ j, j ∈ d.fetchOrder ↔ if j = i then e.isFetching = true else j ∈ c.fetchOrder)
    (inProgress : ∀ j, d.inProgress = some j →
      c.inProgress = some j ∧ (j = i → e.isFetching = true))
    (prefetches : e.state = .fetching .prefetch → (c.entry i).state = .fetching .prefetch ∨
      c.countFetching .prefetch < 64) : d.Ordered ready := by
  have hlt : i < c.entries.length := by rw [h.length]; exact hi
  have same : d.entry i = e := by
    rw [Cache.entry, entries]; exact c.entry_setEntry_self i e hlt
  have other : ∀ {j}, j ≠ i → d.entry j = c.entry j := fun {j} hj => by
    rw [Cache.entry, entries]; exact c.entry_setEntry_of_ne i j e hj
  have fresh : ∀ {j k}, j < 640 → j ≠ i → e.code = some k → (c.entry j).code ≠ some k := by
    intro j k hj hne hk held
    rcases code k hk with was | unknown
    · exact hne (h.codes j i k hj hi held was)
    · have hj' : j < c.entries.length := h.length.symm ▸ hj
      have := List.findIdx?_eq_none_iff.mp unknown c.entries[j] (List.getElem_mem hj')
      rw [← entry_eq_getElem hj'] at this
      simp [held] at this
  constructor
  case length => rw [entries, List.length_set, h.length]
  case codes =>
    intro a b k ha hb hak hbk
    by_cases hai : a = i <;> by_cases hbi : b = i
    · rw [hai, hbi]
    · subst hai
      rw [same] at hak
      rw [other hbi] at hbk
      exact absurd hbk (fresh hb hbi hak)
    · subst hbi
      rw [same] at hbk
      rw [other hai] at hak
      exact absurd hak (fresh ha hai hbk)
    · rw [other hai] at hak
      rw [other hbi] at hbk
      exact h.codes a b k ha hb hak hbk
  case sound =>
    intro j hj
    by_cases hji : j = i
    · rw [hji, same]; exact sound
    · rw [other hji]; exact h.sound j hj
  case recency => exact recency
  case mem_recency =>
    intro j
    rw [mem_recency]
    split
    next hj => rw [hj, same]; exact (and_iff_right hi).symm
    next hj => rw [other hj]; exact h.mem_recency j
  case fetchOrder => exact fetchOrder
  case mem_fetchOrder =>
    intro j
    rw [mem_fetchOrder]
    split
    next hj => rw [hj, same]; exact (and_iff_right hi).symm
    next hj => rw [other hj]; exact h.mem_fetchOrder j
  case inProgress =>
    intro j hj
    obtain ⟨was, fetching⟩ := inProgress j hj
    obtain ⟨lt, old, ready⟩ := h.inProgress j was
    by_cases hji : j = i
    · rw [hji, same]; exact ⟨hi, fetching hji, ready⟩
    · rw [other hji]; exact ⟨lt, old, ready⟩
  case prefetches =>
    have le := countFetching_set hlt e .prefetch
    have count : d.countFetching .prefetch = (c.setEntry i e).countFetching .prefetch := by
      unfold Cache.countFetching
      rw [entries]
      rfl
    rw [count]
    have limit := h.prefetches
    by_cases new : e.state = .fetching .prefetch ∧ (c.entry i).state ≠ .fetching .prefetch
    · rw [if_pos new] at le
      have := (prefetches new.1).resolve_left new.2
      omega
    · rw [if_neg new] at le
      omega

theorem set_entry_self {c : Cache} {i : Nat} (h : i < c.entries.length) :
    c.entries.set i (c.entry i) = c.entries := by
  rw [entry_eq_getElem h, List.set_getElem_self]

/-! ## Lookups, releases and prefetches -/

section
variable {ready : Prop} {c : Cache} {i : Nat}

/-- An entry in use stays in use: both orders keep it, or move it to their ends. -/
theorem Cache.Ordered.update (h : c.Ordered ready) (hi : i < 640) {e : CacheEntry} (sound : e.Sound)
    (code : e.code = (c.entry i).code) (inUse : (c.entry i).state ≠ .free)
    (class_ : e.state = .fetching .prefetch → (c.entry i).state = .fetching .prefetch) {d : Cache}
    (entries : d.entries = c.entries.set i e)
    (recency : d.recency = c.recency ∨ d.recency = c.recency.filter (· ≠ i) ++ [i])
    (fetchOrder : (d.fetchOrder = c.fetchOrder ∧ e.isFetching = (c.entry i).isFetching) ∨
      (d.fetchOrder = c.fetchOrder.filter (· ≠ i) ++ [i] ∧ e.isFetching = true))
    (inProgress : d.inProgress = c.inProgress) : d.Ordered ready := by
  have stays : e.state ≠ .free := fun free =>
    inUse ((h.sound i hi).free_iff.mpr (code ▸ sound.free_iff.mp free))
  have recent : i ∈ c.recency := (h.mem_recency i).mpr ⟨hi, inUse⟩
  refine h.set hi entries sound (fun k hk => .inl (code ▸ hk)) ?_ (fun j => ?_) ?_ (fun j => ?_)
    (fun j hj => ⟨inProgress ▸ hj, fun hji => ?_⟩) (fun p => .inl (class_ p))
  · rcases recency with eq | eq <;> rw [eq]
    · exact h.recency
    · exact nodup_moveLast h.recency i
  · by_cases hj : j = i
    · subst hj
      rcases recency with eq | eq <;> simp [eq, stays, recent]
    · rcases recency with eq | eq <;> simp [eq, hj]
  · rcases fetchOrder with ⟨eq, -⟩ | ⟨eq, -⟩ <;> rw [eq]
    · exact h.fetchOrder
    · exact nodup_moveLast h.fetchOrder i
  · by_cases hj : j = i
    · subst hj
      rcases fetchOrder with ⟨eq, same⟩ | ⟨eq, fetching⟩
      · rw [eq, if_pos rfl, same, h.mem_fetchOrder]
        exact and_iff_right hi
      · simp [eq, fetching]
    · rcases fetchOrder with ⟨eq, -⟩ | ⟨eq, -⟩ <;> simp [eq, hj]
  · obtain ⟨-, fetching, -⟩ := h.inProgress i (hji ▸ inProgress ▸ hj)
    rcases fetchOrder with ⟨-, same⟩ | ⟨-, fetching⟩
    · rw [same]; exact fetching
    · exact fetching

/-- The entry a miss takes is neither pinned nor being fetched. -/
theorem victim_spec (h : c.Ordered ready) (hv : c.victim = some i) :
    i < 640 ∧ (c.entry i).isFetching = false := by
  unfold Cache.victim at hv
  split at hv
  next j hj =>
    obtain rfl := Option.some.inj hv
    obtain ⟨lt, free, -⟩ := List.findIdx?_eq_some_iff_getElem.mp hj
    rw [← entry_eq_getElem lt, decide_eq_true_eq] at free
    refine ⟨h.length ▸ lt, ?_⟩
    simp [CacheEntry.isFetching, free]
  next =>
    have mem := List.mem_of_find?_eq_some hv
    have spec := List.find?_some hv
    refine ⟨((h.mem_recency i).mp mem).1, ?_⟩
    simp only [Bool.and_eq_true, Bool.not_eq_true'] at spec
    exact spec.2

/-- A new code in the entry that a miss takes. -/
theorem Cache.Ordered.assigned (h : c.Ordered ready) (hv : c.victim = some i) {k : Code}
    (unknown : c.find k = none) {e : CacheEntry} (sound : e.Sound) (code : e.code = some k) {d : Cache}
    (entries : d.entries = c.entries.set i e)
    (recency : d.recency = c.recency.filter (· ≠ i) ++ [i])
    (fetchOrder : if e.isFetching = true then d.fetchOrder = c.fetchOrder.filter (· ≠ i) ++ [i]
      else d.fetchOrder = c.fetchOrder)
    (inProgress : d.inProgress = c.inProgress)
    (prefetches : e.state = .fetching .prefetch → c.countFetching .prefetch < 64) :
    d.Ordered ready := by
  obtain ⟨hi, idle⟩ := victim_spec h hv
  have inUse : e.state ≠ .free := fun free => by
    have := sound.free_iff.mp free
    rw [code] at this
    cases this
  have waiting : i ∉ c.fetchOrder := fun mem => by
    have := ((h.mem_fetchOrder i).mp mem).2
    rw [idle] at this
    cases this
  refine h.set hi entries sound (fun k' hk => .inr ?_) (recency ▸ nodup_moveLast h.recency i)
    (fun j => ?_) ?_ (fun j => ?_) (fun j hj => ⟨inProgress ▸ hj, fun hji => ?_⟩)
    (fun p => .inr (prefetches p))
  · obtain rfl : k' = k := Option.some.inj (hk.symm.trans code)
    exact unknown
  · rw [recency, mem_moveLast]
    split
    next hj => simp [hj, inUse]
    next hj => simp [hj]
  · split at fetchOrder <;> rw [fetchOrder]
    · exact nodup_moveLast h.fetchOrder i
    · exact h.fetchOrder
  · split at fetchOrder
    next fetching =>
      rw [fetchOrder, mem_moveLast]
      split
      next hj => simp [hj, fetching]
      next hj => simp [hj]
    next still =>
      rw [fetchOrder]
      split
      next hj => simp [hj, still, waiting]
      next hj => rfl
  · obtain ⟨-, fetching, -⟩ := h.inProgress i (hji ▸ inProgress ▸ hj)
    rw [idle] at fetching
    cases fetching

theorem find_inUse (h : c.Ordered ready) {k : Code} (hf : c.find k = some i) :
    i < 640 ∧ (c.entry i).state ≠ .free := by
  obtain ⟨lt, code⟩ := c.find_code i hf
  have hi : i < 640 := h.length ▸ lt
  refine ⟨hi, fun free => ?_⟩
  have := (h.sound i hi).free_iff.mp free
  rw [code] at this
  cases this

/-- An entry in use with its pins and marks changed, its state at most moved on. -/
theorem CacheEntry.Sound.moved {e : CacheEntry} (h : e.Sound) (inUse : e.state ≠ .free)
    {st : CacheState} (hst : st = e.state ∨ ∃ cls, st = .fetching cls) (n : Nat) (b : Bool) :
    CacheEntry.Sound { e with state := st, pins := n, late := b } := by
  have code : e.code ≠ none := fun none => inUse (h.free_iff.mpr none)
  have inUse' : st ≠ .free := by
    rcases hst with rfl | ⟨cls, rfl⟩
    · exact inUse
    · nofun
  refine ⟨iff_of_false inUse' code, fun free => absurd free inUse', fun kept => h.bitmap ?_⟩
  rcases hst with rfl | ⟨cls, rfl⟩
  · exact kept
  · rcases kept with kept | kept <;> cases kept

end

/-! ## Each operation -/

section
variable {ready : Prop} {c : Cache}

theorem fetching_congr {e f : CacheEntry} (h : e.state = f.state) : e.isFetching = f.isFetching := by
  unfold CacheEntry.isFetching
  rw [h]

theorem sound_fetching (k : Code) (n : Nat) (cls : FetchClass) : CacheEntry.Sound
    { CacheEntry.empty with code := some k, pins := n, state := .fetching cls } :=
  ⟨iff_of_false nofun nofun, nofun, by rintro (h | h) <;> cases h⟩

theorem sound_substitute (k : Code) {st : CacheState} (h : st = .resident ∨ st = .stale) :
    CacheEntry.Sound { CacheEntry.empty with
      code := some k, pins := 1, state := st, bitmap := some substituteBitmap
      substitute := true } := by
  have inUse : st ≠ .free := by rcases h with rfl | rfl <;> nofun
  exact ⟨iff_of_false inUse nofun, fun free => absurd free inUse, fun _ => nofun⟩

theorem Cache.Ordered.lookupPin (h : c.Ordered ready) (store : StoreState) (k : Code) :
    (c.lookupPin store k).Ordered ready := by
  unfold Cache.lookupPin
  split
  next i found =>
    obtain ⟨hi, inUse⟩ := find_inUse h found
    have sound := h.sound i hi
    simp only
    split
    next state =>
      exact h.update hi (sound.moved inUse (.inr ⟨.demand, rfl⟩) _ (c.entry i).late) rfl inUse nofun rfl
        (.inr rfl) (.inl ⟨rfl, ((c.entry i).isFetching_iff.mpr ⟨_, state⟩).symm⟩) rfl
    next state =>
      split
      · exact h.update hi (sound.moved inUse (.inr ⟨.demand, rfl⟩) _ (c.entry i).late) rfl inUse nofun
          rfl (.inr rfl) (.inr ⟨rfl, rfl⟩) rfl
      · exact h.update hi (sound.moved inUse (.inl rfl) ((c.entry i).pins + 1) (c.entry i).late) rfl inUse id rfl
          (.inr rfl) (.inl ⟨rfl, fetching_congr rfl⟩) rfl
    next =>
      exact h.update hi (sound.moved inUse (.inl rfl) ((c.entry i).pins + 1) (c.entry i).late) rfl inUse id rfl
        (.inr rfl) (.inl ⟨rfl, fetching_congr rfl⟩) rfl
  next unknown =>
    split
    · exact h
    next i taken =>
      cases store with
      | scanning | ready =>
        exact h.assigned taken unknown (sound_fetching k 1 .demand) rfl rfl rfl rfl rfl nofun
      | absent =>
        exact h.assigned taken unknown (sound_substitute k (.inl rfl)) rfl rfl rfl rfl rfl nofun
      | maintenance | busy _ _ =>
        exact h.assigned taken unknown (sound_substitute k (.inr rfl)) rfl rfl rfl rfl rfl nofun

theorem Cache.Ordered.release (h : c.Ordered ready) (k : Code) : (c.release k).Ordered ready := by
  unfold Cache.release
  split
  · exact h
  next i found =>
    obtain ⟨hi, inUse⟩ := find_inUse h found
    have sound := h.sound i hi
    have hlt : i < c.entries.length := h.length.symm ▸ hi
    simp only
    generalize hn : (c.entry i).pins - 1 = n
    split
    next withdrawn =>
      simp only [Bool.and_eq_true, decide_eq_true_eq, ne_eq] at withdrawn
      obtain ⟨⟨-, fetching⟩, notStarted⟩ := withdrawn
      unfold Cache.withdraw
      rw [c.entry_setEntry_self i _ hlt]
      dsimp only
      split
      · refine h.set hi (e := CacheEntry.empty) (List.set_set ..) ⟨⟨fun _ => rfl, fun _ => rfl⟩,
          fun _ => ⟨rfl, rfl⟩, nofun⟩ nofun (h.recency.filter _) (fun j => ?_)
          (h.fetchOrder.filter _) (fun j => ?_) (fun j hj => ⟨hj, fun hji => ?_⟩) nofun
        · by_cases hj : j = i <;> simp [hj, CacheEntry.empty]
        · by_cases hj : j = i <;> simp [hj, CacheEntry.empty, CacheEntry.isFetching]
        · exact absurd (hji ▸ hj) notStarted
      next b hb =>
        have recent : i ∈ c.recency := (h.mem_recency i).mpr ⟨hi, inUse⟩
        refine h.set hi (e := { c.entry i with pins := n, state := .stale }) (List.set_set ..)
          ⟨iff_of_false nofun fun none => inUse (sound.free_iff.mpr none), nofun, fun _ => ?_⟩
          (fun _ hk => .inl hk) h.recency (fun j => ?_) (h.fetchOrder.filter _) (fun j => ?_)
          (fun j hj => ⟨hj, fun hji => ?_⟩) nofun
        · rw [hb]; nofun
        · by_cases hj : j = i <;> simp [hj, recent]
        · by_cases hj : j = i <;> simp [Cache.dequeue, hj, CacheEntry.isFetching]
        · exact absurd (hji ▸ hj) notStarted
    · exact h.update hi (sound.moved inUse (.inl rfl) n (c.entry i).late) rfl inUse id rfl (.inl rfl)
        (.inl ⟨rfl, fetching_congr rfl⟩) rfl

theorem Cache.Ordered.prefetch (h : c.Ordered ready) (store : StoreState) (k : Code) :
    (c.prefetch store k).Ordered ready := by
  unfold Cache.prefetch
  split
  next i found =>
    obtain ⟨hi, inUse⟩ := find_inUse h found
    have hlt : i < c.entries.length := h.length.symm ▸ hi
    exact h.update hi (h.sound i hi) rfl inUse id (set_entry_self hlt).symm (.inr rfl)
      (.inl ⟨rfl, rfl⟩) rfl
  next unknown =>
    split
    next room =>
      split
      · exact h
      next i taken =>
        simp only [Bool.and_eq_true, decide_eq_true_eq] at room
        exact h.assigned taken unknown (sound_fetching k 0 .prefetch) rfl rfl rfl rfl rfl
          fun _ => room.2
    · exact h

theorem Cache.Ordered.late (h : c.Ordered ready) {k : Code} {i : Nat} (found : c.find k = some i) :
    (c.setEntry i { c.entry i with late := true }).Ordered ready := by
  obtain ⟨hi, inUse⟩ := find_inUse h found
  exact h.update hi ((h.sound i hi).moved inUse (.inl rfl) (c.entry i).pins true) rfl inUse id rfl
    (.inl rfl) (.inl ⟨rfl, fetching_congr rfl⟩) rfl

theorem CacheRun.ordered {store : StoreState} {d : Cache} (run : CacheRun store c d)
    (h : c.Ordered ready) : d.Ordered ready := by
  induction run with
  | refl => exact h
  | pin k _ ih => exact ih.lookupPin store k
  | release k _ ih => exact ih.release k
  | prefetch k _ ih => exact ih.prefetch store k
  | late found _ ih => exact ih.late found

theorem Cache.Ordered.refetch (h : c.Ordered ready) (i : Nat) : (c.refetch i).Ordered ready := by
  unfold Cache.refetch
  split
  next pinned =>
    simp only [Bool.and_eq_true, decide_eq_true_eq] at pinned
    have hi : i < 640 := by
      by_contra out
      have : c.entry i = CacheEntry.empty := by
        rw [Cache.entry, List.getD_eq_default _ _ (by rw [h.length]; omega)]
      rw [this] at pinned
      cases pinned.1
    have inUse : (c.entry i).state ≠ .free := by rw [pinned.1]; nofun
    exact h.update hi ((h.sound i hi).moved inUse (.inr ⟨.demand, rfl⟩) (c.entry i).pins
      (c.entry i).late) rfl inUse nofun rfl (.inl rfl) (.inr ⟨rfl, rfl⟩) rfl
  · exact h

theorem Cache.Ordered.refetchAll (h : c.Ordered ready) : c.refetchAll.Ordered ready := by
  unfold Cache.refetchAll
  generalize c.recency = is
  induction is generalizing c with
  | nil => exact h
  | cons i is ih => exact ih (h.refetch i)

/-- A fetch completed: the entry is RESIDENT, out of the order of fetches (R129). -/
theorem Cache.Ordered.fetched (h : c.Ordered ready) {i : Nat} (hi : i < 640)
    (fetching : (c.entry i).isFetching = true) (found : Option Bitmap) :
    Cache.Ordered ready { (c.setEntry i ((c.entry i).fetched found)).dequeue i with
      inProgress := none } := by
  have inUse : (c.entry i).state ≠ .free := fun free => by
    simp [CacheEntry.isFetching, free] at fetching
  have recent : i ∈ c.recency := (h.mem_recency i).mpr ⟨hi, inUse⟩
  refine h.set hi (e := (c.entry i).fetched found) rfl ?_ (fun _ hk => .inl hk) h.recency
    (fun j => ?_) (h.fetchOrder.filter _) (fun j => ?_) nofun nofun
  · exact ⟨iff_of_false nofun fun none => inUse ((h.sound i hi).free_iff.mpr none), nofun,
      fun _ => nofun⟩
  · by_cases hj : j = i <;> simp [hj, recent, CacheEntry.fetched]
  · by_cases hj : j = i <;> simp [Cache.dequeue, hj, CacheEntry.fetched, CacheEntry.isFetching]

end

/-! ## All entries at once -/

theorem entry_map {c d : Cache} {f : CacheEntry → CacheEntry} (h : d.entries = c.entries.map f)
    {i : Nat} (hi : i < c.entries.length) : d.entry i = f (c.entry i) := by
  rw [entry_eq_getElem hi, entry_eq_getElem (h ▸ (List.length_map f).symm ▸ hi)]
  simp [h]

/-- Every entry changed alike, no fetch being in progress: codes are kept or given up, and no entry
becomes a prefetch. -/
theorem Cache.Ordered.map {ready ready' : Prop} {c d : Cache} (h : c.Ordered ready)
    {f : CacheEntry → CacheEntry} (entries : d.entries = c.entries.map f)
    (sound : ∀ e, e.Sound → (f e).Sound)
    (code : ∀ e k, (f e).code = some k → e.code = some k)
    (recency : d.recency.Nodup)
    (mem_recency : ∀ i, i < 640 → (i ∈ d.recency ↔ i ∈ c.recency ∧ (f (c.entry i)).state ≠ .free))
    (sub : ∀ i ∈ d.recency, i ∈ c.recency)
    (inUse : ∀ e, (f e).state ≠ .free → e.state ≠ .free)
    (fetchOrder : d.fetchOrder.Nodup)
    (mem_fetchOrder : ∀ i, i ∈ d.fetchOrder ↔ i ∈ c.fetchOrder ∧ (f (c.entry i)).isFetching = true)
    (fetching : ∀ e, (f e).isFetching = true → e.isFetching = true)
    (inProgress : d.inProgress = none)
    (prefetches : ∀ e, (f e).state = .fetching .prefetch → e.state = .fetching .prefetch) :
    d.Ordered ready' := by
  have entry : ∀ {i}, i < 640 → d.entry i = f (c.entry i) := fun hi =>
    entry_map entries (h.length.symm ▸ hi)
  constructor
  case length => rw [entries, List.length_map, h.length]
  case codes =>
    intro i j k hi hj hik hjk
    rw [entry hi] at hik
    rw [entry hj] at hjk
    exact h.codes i j k hi hj (code _ k hik) (code _ k hjk)
  case sound => exact fun i hi => entry hi ▸ sound _ (h.sound i hi)
  case recency => exact recency
  case mem_recency =>
    intro i
    constructor
    · intro mem
      have hi := ((h.mem_recency i).mp (sub i mem)).1
      exact ⟨hi, entry hi ▸ ((mem_recency i hi).mp mem).2⟩
    · rintro ⟨hi, used⟩
      rw [entry hi] at used
      exact (mem_recency i hi).mpr ⟨(h.mem_recency i).mpr ⟨hi, inUse _ used⟩, used⟩
  case fetchOrder => exact fetchOrder
  case mem_fetchOrder =>
    intro i
    rw [mem_fetchOrder]
    constructor
    · rintro ⟨mem, still⟩
      have hi := ((h.mem_fetchOrder i).mp mem).1
      exact ⟨hi, entry hi ▸ still⟩
    · rintro ⟨hi, still⟩
      rw [entry hi] at still
      exact ⟨(h.mem_fetchOrder i).mpr ⟨hi, fetching _ still⟩, still⟩
  case inProgress => intro i hi; rw [inProgress] at hi; cases hi
  case prefetches =>
    refine Nat.le_trans ?_ h.prefetches
    unfold Cache.countFetching
    rw [entries, List.countP_map]
    refine List.countP_mono_left fun e _ he => ?_
    simp only [Function.comp, decide_eq_true_eq] at he ⊢
    exact prefetches e he

section
variable {ready ready' : Prop} {c : Cache}

theorem CacheEntry.Sound.substituted {e : CacheEntry} (h : e.Sound) : e.substituted.Sound := by
  unfold CacheEntry.substituted
  split
  next waits =>
    have inUse : e.state ≠ .free := fun free => by simp [free, CacheEntry.isFetching] at waits
    exact ⟨iff_of_false nofun fun none => inUse (h.free_iff.mpr none), nofun, fun _ => nofun⟩
  · exact h

theorem Cache.Ordered.allSubstituted (h : c.Ordered ready) (idle : c.inProgress = none) :
    c.allSubstituted.Ordered ready' := by
  have state : ∀ e : CacheEntry, e.substituted.isFetching = false := fun e => by
    unfold CacheEntry.substituted
    split
    · rfl
    next h => exact Bool.eq_false_iff.mpr fun fetching => h (by rw [fetching, Bool.or_true])
  have free : ∀ e : CacheEntry, e.substituted.state ≠ .free ↔ e.state ≠ .free := fun e => by
    unfold CacheEntry.substituted
    split
    next waits =>
      exact iff_of_true nofun fun free => by simp [free, CacheEntry.isFetching] at waits
    · rfl
  refine h.map (f := CacheEntry.substituted) rfl (fun _ => .substituted) (fun e k hk => ?_) h.recency
    (fun i hi => ?_) (fun _ => id) (fun e => (free e).mp) List.nodup_nil (fun i => ?_)
    (fun e he => ?_) idle (fun e he => ?_)
  · unfold CacheEntry.substituted at hk
    split at hk <;> exact hk
  · rw [free]
    exact (and_iff_left_of_imp fun mem => ((h.mem_recency i).mp mem).2).symm
  · simp only [Cache.allSubstituted, state]
    simp
  · rw [state] at he; cases he
  · have := state e
    simp [CacheEntry.isFetching, he] at this

theorem CacheEntry.Sound.aged {e : CacheEntry} (h : e.Sound) : e.aged.Sound := by
  unfold CacheEntry.aged
  split
  next resident =>
    have inUse : e.state ≠ .free := by rw [resident]; nofun
    exact ⟨iff_of_false nofun fun none => inUse (h.free_iff.mpr none), nofun,
      fun _ => h.bitmap (.inl resident)⟩
  · exact h

theorem Cache.Ordered.aged (h : c.Ordered ready) (idle : c.inProgress = none) :
    Cache.Ordered ready' { c with entries := c.entries.map CacheEntry.aged } := by
  have state : ∀ e : CacheEntry, e.aged.isFetching = e.isFetching ∧
      (e.aged.state ≠ .free ↔ e.state ≠ .free) := fun e => by
    unfold CacheEntry.aged
    split
    next resident => simp [CacheEntry.isFetching, resident]
    · exact ⟨rfl, Iff.rfl⟩
  refine h.map (f := CacheEntry.aged) rfl (fun _ => .aged) (fun e k hk => ?_) h.recency
    (fun i hi => ?_) (fun _ => id) (fun e => (state e).2.mp) h.fetchOrder (fun i => ?_)
    (fun e he => (state e).1 ▸ he) idle (fun e he => ?_)
  · unfold CacheEntry.aged at hk
    split at hk <;> exact hk
  · rw [(state _).2, h.mem_recency]
    tauto
  · rw [(state _).1, h.mem_fetchOrder]
    tauto
  · unfold CacheEntry.aged at he
    split at he
    · cases he
    · exact he

/-- What the entry into MAINTENANCE leaves of an entry, state by state (R136). -/
theorem CacheEntry.atMaintenance_cases (e : CacheEntry) :
    (e.state = .fetching .prefetch ∧ e.atMaintenance = CacheEntry.empty) ∨
    (e.state = .fetching .demand ∧ e.atMaintenance.state = .stale ∧ e.atMaintenance.code = e.code ∧
      e.atMaintenance.bitmap ≠ none) ∨
    (e.isFetching = false ∧ e.atMaintenance = e) := by
  unfold CacheEntry.atMaintenance
  split
  next h => exact .inl ⟨h, rfl⟩
  next h =>
    refine .inr (.inl ⟨h, ?_⟩)
    split
    · exact ⟨rfl, rfl, nofun⟩
    next hb => exact ⟨rfl, rfl, by rw [hb]; nofun⟩
  next h1 h2 =>
    refine .inr (.inr ⟨?_, rfl⟩)
    rw [← Bool.not_eq_true, e.isFetching_iff]
    rintro ⟨cls, hc⟩
    cases cls with
    | demand => exact h2 hc
    | prefetch => exact h1 hc

theorem Cache.Ordered.atMaintenance (h : c.Ordered ready) (idle : c.inProgress = none) :
    c.atMaintenance.Ordered ready' := by
  have state : ∀ e : CacheEntry, e.atMaintenance.isFetching = false := fun e => by
    rcases e.atMaintenance_cases with ⟨-, eq⟩ | ⟨-, stale, -⟩ | ⟨still, eq⟩
    · rw [eq]; rfl
    · simp [CacheEntry.isFetching, stale]
    · rw [eq]; exact still
  have free : ∀ e : CacheEntry, e.atMaintenance.state ≠ .free ↔
      e.state ≠ .free ∧ e.state ≠ .fetching .prefetch := fun e => by
    rcases e.atMaintenance_cases with ⟨was, eq⟩ | ⟨was, stale, -⟩ | ⟨still, eq⟩
    · simp [eq, was, CacheEntry.empty]
    · simp [stale, was]
    · rw [eq]
      refine (and_iff_left fun was => ?_).symm
      simp [CacheEntry.isFetching, was] at still
  refine h.map (f := CacheEntry.atMaintenance) rfl (fun e he => ?_) (fun e k hk => ?_)
    (h.recency.filter _) (fun i hi => ?_) (fun i hi => (List.mem_filter.mp hi).1)
    (fun e he => ((free e).mp he).1) List.nodup_nil (fun i => ?_) (fun e he => ?_) idle
    (fun e he => ?_)
  · rcases e.atMaintenance_cases with ⟨-, eq⟩ | ⟨was, stale, code, bitmap⟩ | ⟨-, eq⟩
    · rw [eq]; exact ⟨iff_of_true rfl rfl, fun _ => ⟨rfl, rfl⟩, nofun⟩
    · refine ⟨iff_of_false (by rw [stale]; nofun) fun none => ?_, fun free => ?_, fun _ => bitmap⟩
      · rw [he.free_iff.mpr (code ▸ none)] at was
        cases was
      · rw [stale] at free; cases free
    · rw [eq]; exact he
  · rcases e.atMaintenance_cases with ⟨-, eq⟩ | ⟨-, -, code, -⟩ | ⟨-, eq⟩
    · rw [eq] at hk; cases hk
    · exact code ▸ hk
    · rwa [eq] at hk
  · rw [free, h.mem_recency]
    simp only [Cache.atMaintenance, List.mem_filter, h.mem_recency, decide_eq_true_eq]
    tauto
  · simp [Cache.atMaintenance, state]
  · rw [state] at he; cases he
  · have := state e
    simp [CacheEntry.isFetching, he] at this

end

end Sys2Proof.Machine
end

section
/-! The Glyph Cache at every step: the blocks that use it through the Line Scheduler, and the Font Port's
own commands. -/

namespace Sys2Proof.Machine

/-! ## What the blocks do with the cache -/

theorem acceptRequest_uses (s : State) (who : Requester) (song : Nat) (tier : Tier)
    (tag : Option Nat) : UsesCache s (s.acceptRequest who song tier tag).1 :=
  (UsesCache.of_touches (book_touches _ _)).trans (bookChanged_uses _)

theorem cancelEntry_uses (s : State) (e : Entry) : UsesCache s (s.cancelEntry e) :=
  (((UsesCache.of_touches (withdrawCall_touches _ _)).trans
    (.of_touches (scrubBound_touches _ _))).trans
    (.of_touches (book_touches _ _))).trans (bookChanged_uses _)

theorem enqueueBlock_uses (p : Port) (song : Nat) (tier : Byte) (tag : OptionalByte) (s : State) :
    UsesCache s (enqueueBlock p song tier tag s).state := by
  unfold enqueueBlock
  split
  · exact .refl s
  · split
    · split
      · exact .refl s
      · exact acceptRequest_uses _ _ _ _ _
    · exact .refl s

theorem cancelBlock_uses (n : Nat) (s : State) : UsesCache s (cancelBlock n s).state := by
  unfold cancelBlock
  split
  · exact .refl s
  · exact .refl s
  · rw [readOk_state]; exact cancelEntry_uses _ _

theorem moveBlock_uses (n m : Nat) (s : State) : UsesCache s (moveBlock n m s).state := by
  unfold moveBlock
  split
  · exact .refl s
  · exact .refl s
  · split
    · exact .refl s
    · exact (UsesCache.of_touches (mapBook_touches _ _)).trans (bookChanged_uses _)

theorem holdBlock_uses (s : State) : UsesCache s (holdBlock s).state := by
  have held := UsesCache.of_touches (mapBook_touches s fun b => { b with held := true })
  unfold holdBlock
  exact .ite ((held.trans (.of_touches (uncall_touches _))).trans (bookChanged_uses _)) held

theorem promoteBlock_uses (n : Nat) (s : State) : UsesCache s (promoteBlock n s).state := by
  unfold promoteBlock
  split
  · exact .refl s
  · exact .refl s
  · split_ifs
    · exact .refl s
    · exact .refl s
    · exact (UsesCache.of_touches (mapBook_touches _ _)).trans (bookChanged_uses _)

theorem panelRequest_uses (s : State) (p : Fin 8) (song : Nat) (tag : Option Nat) :
    UsesCache s (s.panelRequest p song tag).1 := by
  unfold State.panelRequest
  split
  · exact .refl s
  · exact acceptRequest_uses _ _ _ _ _

theorem cancelForPanel_uses (s : State) (p : Fin 8) (n : Nat) :
    UsesCache s (s.cancelForPanel p n).1 := by
  unfold State.cancelForPanel
  split
  · exact .refl s
  · exact .refl s
  · split
    · exact cancelEntry_uses _ _
    · exact .refl s

theorem endCheck_uses (s : State) (i : Fin 4) : UsesCache s (s.endCheck i) := by
  unfold State.endCheck State.completeCheck
  split
  · split
    · exact (UsesCache.of_touches (setSlot_touches s i _)).trans (testCall_uses _)
    · exact .of_touches (faultSlot_touches s i _ _)
  · exact .refl s

theorem setBandsBlock_uses (n g : Nat) (s : State) : UsesCache s (setBandsBlock n g s).state :=
  relayout_uses s _

theorem setStyleBlock_uses (x : Byte) (n : Nat) (s : State) :
    UsesCache s (setStyleBlock x n s).state := by
  unfold setStyleBlock
  split
  · exact .refl s
  · exact .ite (relayout_uses _ _) ((relayout_uses _ _).trans (requestRebuild_scheduled _).uses)

theorem setLineTimingBlock_uses (a b c d : Nat) (s : State) :
    UsesCache s (setLineTimingBlock a b c d s).state := by
  unfold setLineTimingBlock
  exact .ite (mapLines_uses _ _) ((mapLines_uses _ _).trans (requestRebuild_scheduled _).uses)

theorem setPath_uses (s : State) (p : PathState) (f : Option Format) : UsesCache s (s.setPath p f) :=
  .of_touches (setPath_touches s p f)

theorem lockAt_uses (s : State) (f : Format) : UsesCache s (s.lockAt f) :=
  (((UsesCache.of_touches (video_touches _ _)).trans (relayout_uses _ _)).trans
    (setPath_uses _ _ _)).trans (.of_touches (followNext_touches _))

theorem actOnRun_uses (s : State) (c : FrameClass) : UsesCache s (s.actOnRun c) := by
  have moved : UsesCache s (if s.video.runCount < 2 then s
      else match c with
        | .supported f => s.lockAt f
        | .unsupported =>
          if s.video.path = PathState.unsupported then s
          else (s.setPath .unsupported none).followNext) := by
    refine .ite (.refl s) ?_
    cases c with
    | supported f => exact lockAt_uses _ _
    | unsupported =>
      exact .ite (.refl s) ((setPath_uses _ _ _).trans (.of_touches (followNext_touches _)))
  unfold State.actOnRun
  split
  · split
    · exact .ite (.refl s) (setPath_uses _ _ _)
    · exact .refl s
  · exact moved
  · exact moved
  · exact moved

theorem inputFrame_uses (s : State) (m : FrameMeasure) : UsesCache s (s.inputFrame m) := by
  have video := fun v => UsesCache.of_touches (video_touches s v)
  unfold State.inputFrame
  exact .ite ((video _).trans ((UsesCache.of_touches (video_touches _ _)).trans (actOnRun_uses _ _)))
    (video _)

theorem take_uses (s : State) (e : Entry) (i : Fin 4) : UsesCache s (s.take e i) := by
  unfold State.take
  simp only
  refine UsesCache.trans ?_ (bookChanged_uses _)
  refine UsesCache.trans ?_ (.of_touches (raise_touches _ _ _))
  refine UsesCache.trans ?_ (requestRebuild_scheduled _).uses
  refine UsesCache.trans ?_ (emptyWindow_scheduled _).uses
  refine UsesCache.trans ?_ (endScoreShow_scheduled _).uses
  refine UsesCache.trans ?_ (.of_touches (abortTone_touches _))
  refine UsesCache.trans ?_ (.of_touches (setSlot_touches _ _ _))
  exact ⟨rfl, .refl⟩

theorem takeBlock_uses (s : State) : UsesCache s (takeBlock s).state := by
  unfold takeBlock
  split
  · exact .refl s
  · split
    · exact .refl s
    · split
      · exact .refl s
      · rw [readOk_state]; exact take_uses _ _ _

theorem endTurn_uses (s : State) (t : Turn) (r : EndReason) (b : Bool) :
    UsesCache s (s.endTurn t r b) := by
  unfold State.endTurn
  simp only
  refine UsesCache.trans ?_ (testCall_uses _)
  refine UsesCache.trans ?_ (.of_touches (raise_touches _ _ _))
  refine UsesCache.trans ?_ (.of_touches (turn_touches _ _))
  refine UsesCache.trans ?_ (startScoreShow_scheduled _ _).uses
  refine UsesCache.trans ?_ (emptyWindow_scheduled _).uses
  refine UsesCache.trans ?_ (.of_touches (clock_touches _ _))
  refine UsesCache.trans ?_ (.of_touches (scrubSlot_touches _ _))
  exact (UsesCache.of_touches (tallyAllOpen_touches s)).trans (.of_touches (file_touches _ _))

theorem resetBlocks_uses (s : State) : UsesCache s s.resetBlocks := by
  unfold State.resetBlocks
  simp only
  refine UsesCache.trans ?_ (retitle_uses _)
  refine UsesCache.trans ?_ (mapLines_uses _ _)
  have emptied := (emptyWindow_scheduled s).trans (endScoreShow_scheduled _)
  exact ⟨emptied.uses.font, emptied.uses.cache⟩

/-! ## The invariant -/

theorem cacheAgrees_dependsOn : DependsOn [.cache, .font] State.cacheAgrees := by
  intro s t h hs
  have cache : t.cache = s.cache := h .cache (by decide)
  have font : t.font = s.font := h .font (by decide)
  rw [cacheAgrees_iff] at hs ⊢
  rwa [cache, font]

theorem UsesCache.cacheAgrees {s t : State} (h : UsesCache s t) (hs : s.cacheAgrees) :
    t.cacheAgrees := by
  rw [cacheAgrees_iff] at hs ⊢
  rw [h.font]
  exact h.cache.ordered hs

theorem Cache.Ordered.mono {ready ready' : Prop} {c : Cache} (h : c.Ordered ready)
    (imp : ready → ready') : c.Ordered ready' :=
  { h with inProgress := fun i hi =>
      let ⟨lt, fetching, r⟩ := h.inProgress i hi
      ⟨lt, fetching, imp r⟩ }

/-- No fetch is in progress while the store is not READY. -/
theorem Cache.Ordered.idle {ready : Prop} {c : Cache} (h : c.Ordered ready) (hr : ¬ ready) :
    c.inProgress = none := by
  cases hp : c.inProgress with
  | none => rfl
  | some i => exact absurd (h.inProgress i hp).2.2 hr

/-- The font port changed, its store not leaving READY while a fetch may be in progress. -/
theorem font_cacheAgrees {s t : State} (hs : s.cacheAgrees) (cache : t.cache = s.cache)
    (store : s.font.store = .ready → t.font.store = .ready) : t.cacheAgrees := by
  rw [cacheAgrees_iff] at hs ⊢
  rw [cache]
  exact hs.mono store

theorem enterMaintenance_cacheAgrees {s : State} (hs : s.cacheAgrees)
    (idle : s.cache.inProgress = none) : s.enterMaintenance.cacheAgrees :=
  (cacheAgrees_iff _).mpr (((cacheAgrees_iff s).mp hs).atMaintenance idle)

theorem completeFetch_cacheAgrees {s : State} (hs : s.cacheAgrees) {i : Nat}
    (started : i < 640 ∧ (s.cache.entry i).isFetching = true) : (s.completeFetch i).cacheAgrees :=
  (cacheAgrees_iff _).mpr (((cacheAgrees_iff s).mp hs).fetched started.1 started.2 _)

theorem nextFetch_mem {c : Cache} {i : Nat} (h : c.nextFetch = some i) : i ∈ c.fetchOrder := by
  unfold Cache.nextFetch at h
  split at h
  next j hj =>
    obtain rfl := Option.some.inj h
    exact List.mem_of_find?_eq_some hj
  next => exact List.mem_of_find?_eq_some h

theorem startFetch_cacheAgrees {s : State} (hs : s.cacheAgrees) {i : Nat}
    (start : s.fetchToStart = some i) : (s.startFetch i).cacheAgrees := by
  have ordered := (cacheAgrees_iff s).mp hs
  unfold State.fetchToStart at start
  split at start
  next may =>
    simp only [Bool.and_eq_true, decide_eq_true_eq] at may
    obtain ⟨⟨⟨-, ready⟩, -⟩, -⟩ := may
    obtain ⟨lt, fetching⟩ := (ordered.mem_fetchOrder i).mp (nextFetch_mem start)
    have started : ({ s with cache := { s.cache with inProgress := some i } } : State).cacheAgrees := by
      refine (cacheAgrees_iff _).mpr { ordered with inProgress := fun j hj => ?_ }
      obtain rfl := Option.some.inj hj
      exact ⟨lt, fetching, ready⟩
    unfold State.startFetch
    simp only
    split
    · exact completeFetch_cacheAgrees started ⟨lt, fetching⟩
    · exact started
  next => cases start

theorem completeScan_cacheAgrees {s : State} (hs : s.cacheAgrees) (scanning : s.font.store = .scanning) :
    s.completeScan.cacheAgrees := by
  have ordered := (cacheAgrees_iff s).mp hs
  have notReady : s.font.store ≠ .ready := by rw [scanning]; nofun
  have done : ∀ {u : State}, u.cacheAgrees → u.fontDone.testWaking.cacheAgrees := fun {u} hu => by
    refine cacheAgrees_dependsOn.of_touches (testWaking_touches _) rfl ?_
    unfold State.fontDone
    split
    · exact cacheAgrees_dependsOn.of_touches (raise_touches _ _ _) rfl
        (font_cacheAgrees hu rfl id)
    · exact hu
  unfold State.completeScan
  simp only
  split
  · refine done ((cacheAgrees_iff _).mpr ?_)
    exact (ordered.mono fun ready => absurd ready notReady).refetchAll
  · refine done ((cacheAgrees_iff _).mpr ?_)
    exact ordered.allSubstituted (ordered.idle notReady)

theorem flashBlock_cacheAgrees (op : FlashOp) {s : State} (hs : s.cacheAgrees)
    (maintenance : s.font.store = .maintenance) : (flashBlock op s).state.cacheAgrees := by
  unfold flashBlock
  simp only [apply_ite Taken.state]
  split_ifs
  · exact hs
  · exact hs
  · exact font_cacheAgrees hs rfl fun ready => nomatch maintenance.symm.trans ready

theorem refusal_eq_none_iff (x : StoreState) : x.refusal = none ↔ x = .maintenance := by
  cases x <;> simp [StoreState.refusal]

theorem programBlock_cacheAgrees (a : Nat) (d : List Byte) (s : State) (hs : s.cacheAgrees) :
    (programBlock a d s).state.cacheAgrees := by
  unfold programBlock
  simp only
  split
  · exact hs
  next free =>
    split
    · exact hs
    · exact flashBlock_cacheAgrees _ hs ((refusal_eq_none_iff _).mp free)

theorem eraseBlock_cacheAgrees (n : Nat) (s : State) (hs : s.cacheAgrees) :
    (eraseBlock n s).state.cacheAgrees := by
  unfold eraseBlock
  split
  · exact hs
  next free =>
    split
    · exact hs
    · exact flashBlock_cacheAgrees _ hs ((refusal_eq_none_iff _).mp free)

theorem endMaintenance_cacheAgrees {s : State} (hs : s.cacheAgrees)
    (maintenance : s.font.store = .maintenance) : s.endMaintenance.cacheAgrees := by
  have ordered := (cacheAgrees_iff s).mp hs
  exact (cacheAgrees_iff _).mpr (ordered.aged (ordered.idle (by rw [maintenance]; nofun)))

theorem maintBegin_cacheAgrees {s : State} (hs : s.cacheAgrees) (p : Port) :
    (s.maintBegin p).cacheAgrees := by
  have replied : ∀ {u : State} r, u.cacheAgrees → (u.reply p 0x2E r []).cacheAgrees := fun r hu =>
    cacheAgrees_dependsOn.of_touches (reply_touches _ p 0x2E r []) rfl hu
  have begun : (if s.cache.inProgress.isSome then s.mapFont fun f => { f with maintWanted := true }
      else s.enterMaintenance.reply p 0x2E .ok []).cacheAgrees := by
    split
    · exact font_cacheAgrees hs rfl id
    next idle =>
      exact replied _ (enterMaintenance_cacheAgrees hs (by simpa using idle))
  unfold State.maintBegin
  split
  · exact replied _ hs
  · exact replied _ hs
  · exact replied _ hs
  · exact begun
  · exact begun

theorem cacheAgrees_keptByMotion : KeptByMotion State.cacheAgrees where
  clock s c := cacheAgrees_dependsOn.of_touches (clock_touches s c) rfl
  flag s f := cacheAgrees_dependsOn.of_touches (flagTurn_touches s f) rfl
  notices s ps n := cacheAgrees_dependsOn.of_touches (raise_touches s ps n) rfl
  rebuild s := (requestRebuild_scheduled s).uses.cacheAgrees
  lines s n := (lineEventsAt_scheduled s n).uses.cacheAgrees
  tallied s := cacheAgrees_dependsOn.of_touches (tallyAllOpen_touches s) rfl
  passed s n := cacheAgrees_dependsOn.of_touches (tallyPassed_touches s n) rfl
  ends s t r b _ := (endTurn_uses s t r b).cacheAgrees

theorem tickTimers_cacheAgrees {s : State} (hs : s.cacheAgrees) : s.tickTimers.cacheAgrees :=
  font_cacheAgrees hs rfl fun ready => by
    unfold State.tickTimers FontPort.tick
    simp only [ready]

/-! ## Every step -/

/-- Settles O11: the scheduler uses the cache by lookups and releases alone, each of which changes one
entry and its place in the two orders; a scan and an entry into maintenance change all entries while
no fetch is in progress. -/
theorem cacheStaysInOrder : Obligations.CacheStaysInOrder := by
  have client := @clientCommand_keeps _ _ cacheAgrees_dependsOn rfl
  have motion := cacheAgrees_keptByMotion
  refine step_keeps cacheAgrees_dependsOn rfl ?rows ?tick
  case tick => exact fun s hs => motion.tickClock _ (tickTimers_cacheAgrees hs)
  case rows =>
    intro i hi hc s t hs run
    cases i with
    | powerOnReset =>
      obtain rfl := Host.Outcome.next.inj run
      obtain ⟨_, _, _, atReset, _⟩ := invariantsHoldAtReset
      exact font_cacheAgrees (s := State.reset) atReset rfl id
    | sessionReset p =>
      refine client hs run rfl fun u hu => ?_
      rw [readOk_state]
      exact cacheAgrees_dependsOn.of_touches (resetNotices_touches _) rfl
        ((resetBlocks_uses u).cacheAgrees hu)
    | enqueue p song tier tag =>
      exact client hs run rfl fun u => (enqueueBlock_uses _ _ _ _ u).cacheAgrees
    | cancel p n => exact client hs run rfl fun u => (cancelBlock_uses _ u).cacheAgrees
    | move p n m => exact client hs run rfl fun u => (moveBlock_uses _ _ u).cacheAgrees
    | bookHold p => exact client hs run rfl fun u => (holdBlock_uses u).cacheAgrees
    | bookRelease p =>
      refine client hs run rfl fun u => ?_
      rw [readOk_state]
      exact ((UsesCache.of_touches (mapBook_touches _ _)).trans (testCall_uses _)).cacheAgrees
    | promote p n => exact client hs run rfl fun u => (promoteBlock_uses _ u).cacheAgrees
    | request p seq song tag =>
      exact guarded_keeps (adjudicate_keeps cacheAgrees_dependsOn rfl p _
        (panelRequest_uses _ _ _ _).cacheAgrees
        (cacheAgrees_dependsOn.of_touches (goodReply_touches s p) rfl hs)) hs run
    | panelCancel p seq n =>
      exact guarded_keeps (adjudicate_keeps cacheAgrees_dependsOn rfl p _
        (cancelForPanel_uses _ _ _).cacheAgrees
        (cacheAgrees_dependsOn.of_touches (goodReply_touches s p) rfl hs)) hs run
    | takeTurn p => exact client hs run rfl fun u => (takeBlock_uses u).cacheAgrees
    | endTurn p n r => exact client hs run (exec_endTurn p n r s) (motion.endTurnBlock _ _)
    | abortTurn p n => exact client hs run (exec_abortTurn p n s) (motion.abortTurnBlock _)
    | seek p n => exact client hs run rfl (motion.seekBlock _)
    | sync p n => exact client hs run rfl (motion.syncBlock _)
    | checkComplete j =>
      obtain rfl := Host.Outcome.next.inj run
      exact (endCheck_uses s j).cacheAgrees hs
    | scrollComplete =>
      simp only [exec, execScrollComplete] at run
      split at run
      · exact guarded_keeps
          (((countScroll_scheduled s).trans (mapLines_scheduled _)).uses.cacheAgrees hs) hs run
      · obtain rfl := Host.Outcome.next.inj run
        exact hs
    | scoreShowExpiry =>
      obtain rfl := Host.Outcome.next.inj run
      exact (passScoreShow_scheduled s).uses.cacheAgrees hs
    | setBands p n g => exact client hs run rfl fun u => (setBandsBlock_uses _ _ u).cacheAgrees
    | setStyle p x n => exact client hs run rfl fun u => (setStyleBlock_uses _ _ u).cacheAgrees
    | setLineTiming p a b c d =>
      exact client hs run rfl fun u => (setLineTimingBlock_uses _ _ _ _ u).cacheAgrees
    | frameLatch =>
      obtain rfl := Host.Outcome.next.inj run
      exact (frameLatch_scheduled s).uses.cacheAgrees hs
    | inputFrameStart m =>
      obtain rfl := Host.Outcome.next.inj run
      exact (inputFrame_uses s m).cacheAgrees hs
    | glyphFetchStart =>
      simp only [exec, execGlyphFetchStart] at run
      split at run <;> obtain rfl := Host.Outcome.next.inj run
      next start => exact startFetch_cacheAgrees hs start
      next => exact hs
    | glyphFetchComplete =>
      simp only [exec, execGlyphFetchComplete] at run
      split at run <;> obtain rfl := Host.Outcome.next.inj run
      next started =>
        obtain ⟨lt, fetching, -⟩ := ((cacheAgrees_iff s).mp hs).inProgress _ started
        exact completeFetch_cacheAgrees hs ⟨lt, fetching⟩
      next => exact hs
    | fontScanComplete =>
      simp only [exec, execFontScanComplete] at run
      split at run <;> obtain rfl := Host.Outcome.next.inj run
      next scanning => exact completeScan_cacheAgrees hs scanning
      all_goals exact hs
    | fontMaintBegin p =>
      have accepted : (s.accept p maintBeginFrame).cacheAgrees :=
        cacheAgrees_dependsOn.of_touches (accept_touches _ _ _) rfl hs
      simp only [exec, execFontMaintBegin] at run
      split at run
      · split at run <;> obtain rfl := Host.Outcome.next.inj run
        · exact maintBegin_cacheAgrees accepted p
        · exact cacheAgrees_dependsOn.of_touches (reply_touches _ _ _ _ _) rfl accepted
      · obtain rfl := Host.Outcome.next.inj run
        exact hs
    | maintenanceEntry =>
      simp only [exec, execMaintenanceEntry] at run
      split at run <;> obtain rfl := Host.Outcome.next.inj run
      next waited =>
        simp only [Bool.and_eq_true, Option.isNone_iff_eq_none] at waited
        exact cacheAgrees_dependsOn.of_touches (reply_touches _ _ _ _ _) rfl
          (enterMaintenance_cacheAgrees hs waited.2)
      next => exact hs
    | fontWriteEnable p =>
      refine client hs run rfl fun u hu => ?_
      split
      · exact hu
      · exact font_cacheAgrees hu rfl id
    | fontProtect p x =>
      refine client hs run rfl fun u hu => ?_
      split
      · exact hu
      · exact hu
      · exact font_cacheAgrees hu rfl id
    | fontProgram p a d => exact client hs run rfl (programBlock_cacheAgrees _ _)
    | fontErase p n => exact client hs run rfl (eraseBlock_cacheAgrees _)
    | flashOperationDone =>
      simp only [exec, execFlashOperationDone] at run
      split at run <;> obtain rfl := Host.Outcome.next.inj run
      next busy => exact font_cacheAgrees hs rfl fun ready => nomatch busy.symm.trans ready
      all_goals exact hs
    | flashOperationTimeout =>
      obtain rfl := Host.Outcome.next.inj run
      unfold State.timeOutFlash
      split
      next busy =>
        split
        · exact font_cacheAgrees hs rfl fun ready => nomatch busy.symm.trans ready
        · exact hs
      all_goals exact hs
    | fontMaintEnd p =>
      refine client hs run rfl fun u hu => ?_
      split
      · exact hu
      next free => exact endMaintenance_cacheAgrees hu ((refusal_eq_none_iff _).mp free)
    | timebaseTick => exact absurd rfl hi
    | _ => cases hc

end Sys2Proof.Machine
end

section
/-! The room (R2, R20, R43, R63 to R67): the slots' bindings to the Book's entries and the stage, and what
a reservation pass, a call and a change of the Book leave of them. -/

namespace Sys2Proof.Machine

/-! ## Slots found by ticket and state -/

theorem mem_slotNumbers (i : Fin 4) : i ∈ slotNumbers := by
  revert i; decide

theorem boundSlot_some {s : State} {n : Nat} {i : Fin 4} (h : s.boundSlot n = some i) :
    s.slots[i].ticket = some n := by
  simpa using List.find?_some h

theorem boundSlot_eq_none_iff {s : State} {n : Nat} :
    s.boundSlot n = none ↔ ∀ i : Fin 4, s.slots[i].ticket ≠ some n := by
  simp only [State.boundSlot, List.find?_eq_none, decide_eq_true_eq]
  exact ⟨fun h i => h i (mem_slotNumbers i), fun h i _ => h i⟩

/-- The slots are told apart by their tickets. -/
def State.BoundOnce (s : State) : Prop :=
  ∀ (i j : Fin 4) (n : Nat), s.slots[i].ticket = some n → s.slots[j].ticket = some n → i = j

theorem boundSlot_eq_some_iff {s : State} (once : s.BoundOnce) {n : Nat} {i : Fin 4} :
    s.boundSlot n = some i ↔ s.slots[i].ticket = some n := by
  refine ⟨boundSlot_some, fun bound => ?_⟩
  cases h : s.boundSlot n with
  | none => exact absurd bound (boundSlot_eq_none_iff.mp h i)
  | some j => rw [once j i n (boundSlot_some h) bound]

theorem freeSlot_some {s : State} {i : Fin 4} (h : s.freeSlot = some i) :
    s.slots[i].state = .free := by
  simpa using List.find?_some h

theorem freeSlot_eq_none_iff {s : State} :
    s.freeSlot = none ↔ ∀ i : Fin 4, s.slots[i].state ≠ .free := by
  simp only [State.freeSlot, List.find?_eq_none, decide_eq_true_eq]
  exact ⟨fun h i => h i (mem_slotNumbers i), fun h i _ => h i⟩

theorem reclaimable_some {s : State} {i : Fin 4} (h : s.reclaimable = some i) :
    ∃ x ∈ s.book.entries.drop s.depth, s.slots[i].ticket = some x.ticket := by
  obtain ⟨x, mem, bound⟩ := List.exists_of_findSome?_eq_some h
  exact ⟨x, List.mem_reverse.mp mem, boundSlot_some bound⟩

/-! ## One slot changed -/

theorem setSlot_slot_same (s : State) (i : Fin 4) (x : Slot) : (s.setSlot i x).slots[i] = x := by
  rw [setSlot_slot, if_pos rfl]

theorem setSlot_slot_other (s : State) {i k : Fin 4} (h : k ≠ i) (x : Slot) :
    (s.setSlot i x).slots[k] = s.slots[k] := by
  rw [setSlot_slot, if_neg h]

theorem raise_slots (s : State) (ps : List Port) (n : Notice) : (s.raise ps n).slots = s.slots :=
  raise_touches s ps n .slots (by decide)

theorem raise_book' (s : State) (ps : List Port) (n : Notice) : (s.raise ps n).book = s.book :=
  raise_touches s ps n .book (by decide)

theorem bindSlot_slots (s : State) (i : Fin 4) (e : Entry) : (s.bindSlot i e).slots =
    (s.setSlot i { Slot.empty with state := .reserved, ticket := some e.ticket }).slots :=
  raise_slots _ _ _

theorem bindSlot_touches (s : State) (i : Fin 4) (e : Entry) :
    Touches [.slots, .notices] s (s.bindSlot i e) :=
  ((setSlot_touches _ _ _).mono rfl).trans ((raise_touches _ _ _).mono rfl)

/-! ## A reservation pass -/

/-- What a pass makes of a state: slots bound to unbound entries within the depth, and slots of entries
beyond it reclaimed. -/
inductive PassRun (s : State) : State → Prop where
  | refl : PassRun s s
  | bind {t : State} {i : Fin 4} {e : Entry} (h : PassRun s t) (near : e ∈ s.book.entries.take s.depth)
    (unbound : ∀ j : Fin 4, t.slots[j].ticket ≠ some e.ticket) (free : t.slots[i].state = .free) :
    PassRun s (t.bindSlot i e)
  | reclaim {t : State} {i : Fin 4} {e : Entry} (h : PassRun s t)
    (far : e ∈ s.book.entries.drop s.depth) (bound : t.slots[i].ticket = some e.ticket) :
    PassRun s (t.scrubSlot i)

theorem PassRun.touches {s t : State} (h : PassRun s t) : Touches [.slots, .notices] s t := by
  induction h with
  | refl => exact .refl _ _
  | bind _ _ _ _ ih => exact ih.trans (bindSlot_touches _ _ _)
  | reclaim _ _ _ ih => exact ih.trans ((scrubSlot_touches _ _).mono rfl)

theorem PassRun.book {s t : State} (h : PassRun s t) : t.book = s.book :=
  h.touches .book (by decide)

theorem PassRun.depth {s t : State} (h : PassRun s t) : t.depth = s.depth :=
  h.touches .depth (by decide)

theorem passEntry_run {s t : State} (h : PassRun s t) {e : Entry}
    (near : e ∈ s.book.entries.take s.depth) (n : Nat) : PassRun s (State.passEntry (t, n) e).1 := by
  unfold State.passEntry
  simp only
  split
  · exact h
  next unbound =>
    have unbound := boundSlot_eq_none_iff.mp (Option.not_isSome_iff_eq_none.mp unbound)
    split
    next i free => exact h.bind near unbound (freeSlot_some free)
    next =>
      split
      · exact h
      · split
        next i taken =>
          obtain ⟨x, far, bound⟩ := reclaimable_some taken
          rw [h.book, h.depth] at far
          exact h.reclaim far bound
        next => exact h

theorem pass_run (s : State) : PassRun s s.pass := by
  suffices run : ∀ (es : List Entry), (∀ e ∈ es, e ∈ s.book.entries.take s.depth) →
      ∀ (t : State) (n : Nat), PassRun s t → PassRun s (es.foldl State.passEntry (t, n)).1 from
    run _ (fun _ => id) s _ .refl
  intro es
  induction es with
  | nil => exact fun _ _ _ h => h
  | cons e es ih =>
    intro near t n h
    exact ih (fun x hx => near x (List.mem_cons_of_mem _ hx)) _ _
      (passEntry_run h (near e List.mem_cons_self) n)

/-! ## The room -/

/-- A slot that may be bound by a pass or a scrub ends: neither bound nor on stage. -/
def SlotState.unbound (x : SlotState) : Prop := x = .free ∨ x = .scrub

/-- What `roomAgrees` says, part by part. -/
structure Room (s : State) : Prop where
  tickets : s.ticketsDistinct
  depth : 1 ≤ s.depth ∧ s.depth ≤ 3
  unbound : ∀ i : Fin 4, s.slots[i].ticket = none ↔ s.slots[i].state.unbound
  once : s.BoundOnce
  held : ∀ (i : Fin 4) (n : Nat), s.slots[i].ticket = some n →
    (∃ e ∈ s.book.entries, e.ticket = n) ∨ s.onStage n = true
  onStage : ∀ i : Fin 4, s.slots[i].state = .onStage → ∃ t, s.turn = some t ∧ t.slot = i
  turn : ∀ t, s.turn = some t →
    s.slots[t.slot].state = .onStage ∧ s.slots[t.slot].ticket = some t.ticket
  loading : ∀ i j : Fin 4, s.slots[i].state = .loading → s.slots[j].state = .loading → i = j
  called : ∀ (k : Nat) (e : Entry), s.book.entries[k]? = some e → e.state = .called →
    k = 0 ∧ s.turn = none ∧ s.book.held = false ∧
      ∃ i : Fin 4, s.slots[i].ticket = some e.ticket ∧ s.slots[i].state = .ready

theorem roomAgrees_iff (s : State) : s.roomAgrees ↔ Room s :=
  ⟨fun ⟨tickets, low, high, unbound, once, held, onStage, turn, loading, called⟩ =>
    ⟨tickets, ⟨low, high⟩, unbound, once, held, onStage, turn, loading, called⟩,
   fun h => ⟨h.tickets, h.depth.1, h.depth.2, h.unbound, h.once, h.held, h.onStage, h.turn,
    h.loading, h.called⟩⟩

/-- Two states whose slots agree in state and ticket. -/
def SlotsAlike (s t : State) : Prop :=
  ∀ i : Fin 4, t.slots[i].state = s.slots[i].state ∧ t.slots[i].ticket = s.slots[i].ticket

theorem Room.of_slotsAlike {s t : State} (h : Room s) (slots : SlotsAlike s t)
    (book : t.book = s.book) (turn : t.turn = s.turn) (depth : 1 ≤ t.depth ∧ t.depth ≤ 3) :
    Room t where
  tickets := ticketsDistinct_dependsOn s t (fun k hk => by
    rcases List.mem_pair.mp hk with rfl | rfl
    · exact book
    · exact turn) h.tickets
  depth := depth
  unbound i := by rw [(slots i).1, (slots i).2]; exact h.unbound i
  once i j n hi hj := h.once i j n ((slots i).2 ▸ hi) ((slots j).2 ▸ hj)
  held i n hi := by
    rw [book, State.onStage, turn]
    exact h.held i n ((slots i).2 ▸ hi)
  onStage i hi := by rw [turn]; exact h.onStage i ((slots i).1 ▸ hi)
  turn x hx := by
    rw [(slots x.slot).1, (slots x.slot).2]
    exact h.turn x (turn ▸ hx)
  loading i j hi hj := h.loading i j ((slots i).1 ▸ hi) ((slots j).1 ▸ hj)
  called k e he hc := by
    rw [book] at he ⊢
    rw [turn]
    obtain ⟨zero, stage, free, i, bound, ready⟩ := h.called k e he hc
    exact ⟨zero, stage, free, i, (slots i).2.trans bound, (slots i).1.trans ready⟩

theorem room_dependsOn : DependsOn [.book, .turn, .slots, .depth] Room := by
  intro s t same h
  have depth : t.depth = s.depth := same .depth (by decide)
  have slots : t.slots = s.slots := same .slots (by decide)
  exact h.of_slotsAlike (fun i => by rw [slots]; exact ⟨rfl, rfl⟩) (same .book (by decide))
    (same .turn (by decide)) (depth ▸ h.depth)

/-- The turn's ticket stands in no entry, so a slot bound to an entry is not on stage. -/
theorem Room.not_onStage_of_entry {s : State} (h : Room s) {i : Fin 4} {e : Entry}
    (mem : e ∈ s.book.entries) (bound : s.slots[i].ticket = some e.ticket) :
    s.slots[i].state ≠ .onStage := by
  intro stage
  obtain ⟨t, turn, rfl⟩ := h.onStage i stage
  have same : t.ticket = e.ticket := Option.some.inj ((h.turn t turn).2.symm.trans bound)
  have apart := h.tickets.2.2.1 e mem
  rw [State.onStage, turn] at apart
  simp [same] at apart

/-- One slot changed, its ticket kept: a slot off stage and not READY takes another such state, or comes
to be READY. -/
theorem Room.setSlot {s : State} (h : Room s) {i : Fin 4} {x : Slot}
    (ticket : x.ticket = s.slots[i].ticket) (was : ¬ s.slots[i].state.unbound)
    (off : s.slots[i].state ≠ .onStage) (notReady : s.slots[i].state ≠ .ready)
    (bound : ¬ x.state.unbound) (stillOff : x.state ≠ .onStage)
    (loading : x.state = .loading → ∀ j : Fin 4, s.slots[j].state = .loading → j = i) :
    Room (s.setSlot i x) := by
  have tickets : ∀ j : Fin 4, (s.setSlot i x).slots[j].ticket = s.slots[j].ticket := fun j => by
    rw [setSlot_slot]
    split
    next hj => subst hj; exact ticket
    next => rfl
  have other : ∀ {j : Fin 4}, j ≠ i → (s.setSlot i x).slots[j] = s.slots[j] :=
    fun hj => setSlot_slot_other s hj x
  have same : (s.setSlot i x).slots[i] = x := setSlot_slot_same s i x
  refine ⟨?_, h.depth, fun j => ?_, fun j k n hj hk => ?_, fun j n hj => ?_, fun j hj => ?_,
    fun t ht => ?_, fun j k hj hk => ?_, fun k e he hc => ?_⟩
  · exact ticketsDistinct_dependsOn.of_touches (setSlot_touches s i x) rfl h.tickets
  · by_cases hj : j = i
    · subst hj
      rw [tickets, same]
      exact iff_of_false (fun none => was ((h.unbound j).mp none)) bound
    · rw [other hj]; exact h.unbound j
  · exact h.once j k n (tickets j ▸ hj) (tickets k ▸ hk)
  · exact h.held j n (tickets j ▸ hj)
  · by_cases hji : j = i
    · subst hji; rw [same] at hj; exact absurd hj stillOff
    · rw [other hji] at hj; exact h.onStage j hj
  · have ne : t.slot ≠ i := fun eq => off (eq ▸ (h.turn t ht).1)
    rw [other ne]
    exact h.turn t ht
  · by_cases hji : j = i <;> by_cases hki : k = i
    · rw [hji, hki]
    · subst hji
      rw [same] at hj
      rw [other hki] at hk
      exact (loading hj k hk).symm
    · subst hki
      rw [same] at hk
      rw [other hji] at hj
      exact loading hk j hj
    · rw [other hji] at hj
      rw [other hki] at hk
      exact h.loading j k hj hk
  · obtain ⟨zero, stage, free, j, hj, ready⟩ := h.called k e he hc
    have ne : j ≠ i := fun eq => notReady (eq ▸ ready)
    refine ⟨zero, stage, free, j, ?_, ?_⟩ <;> rw [other ne]
    · exact hj
    · exact ready

/-- A slot off stage goes to SCRUB, where it is not the CALLED head's. -/
theorem Room.scrubSlot {s : State} (h : Room s) {i : Fin 4} (off : s.slots[i].state ≠ .onStage)
    (spared : ∀ e, s.book.entries[0]? = some e → e.state = .called →
      s.slots[i].ticket ≠ some e.ticket) : Room (s.scrubSlot i) := by
  have other : ∀ {j : Fin 4}, j ≠ i → (s.scrubSlot i).slots[j] = s.slots[j] :=
    fun hj => setSlot_slot_other s hj _
  have same : (s.scrubSlot i).slots[i] = s.slots[i].toScrub := setSlot_slot_same s i _
  have bound : ∀ {j : Fin 4} {n : Nat}, (s.scrubSlot i).slots[j].ticket = some n →
      j ≠ i ∧ s.slots[j].ticket = some n := fun {j n} hj => by
    by_cases hji : j = i
    · subst hji; rw [same] at hj; cases hj
    · exact ⟨hji, other hji ▸ hj⟩
  refine ⟨?_, h.depth, fun j => ?_, fun j k n hj hk => ?_, fun j n hj => ?_, fun j hj => ?_,
    fun t ht => ?_, fun j k hj hk => ?_, fun k e he hc => ?_⟩
  · exact ticketsDistinct_dependsOn.of_touches (scrubSlot_touches s i) rfl h.tickets
  · by_cases hj : j = i
    · subst hj; rw [same]; exact iff_of_true rfl (.inr rfl)
    · rw [other hj]; exact h.unbound j
  · exact h.once j k n (bound hj).2 (bound hk).2
  · exact h.held j n (bound hj).2
  · by_cases hji : j = i
    · subst hji; rw [same] at hj; cases hj
    · rw [other hji] at hj; exact h.onStage j hj
  · have ne : t.slot ≠ i := fun eq => off (eq ▸ (h.turn t ht).1)
    rw [other ne]
    exact h.turn t ht
  · have loaded : ∀ {j : Fin 4}, (s.scrubSlot i).slots[j].state = .loading →
        s.slots[j].state = .loading := fun {j} hj => by
      by_cases hji : j = i
      · subst hji; rw [same] at hj; cases hj
      · exact other hji ▸ hj
    exact h.loading j k (loaded hj) (loaded hk)
  · obtain ⟨zero, stage, free, j, hj, ready⟩ := h.called k e he hc
    subst zero
    have ne : j ≠ i := fun eq => spared e he hc (eq ▸ hj)
    refine ⟨rfl, stage, free, j, ?_, ?_⟩ <;> rw [other ne]
    · exact hj
    · exact ready

/-- A FREE slot becomes the slot of an entry that has none. -/
theorem Room.bindSlot {s : State} (h : Room s) {i : Fin 4} {e : Entry} (mem : e ∈ s.book.entries)
    (unbound : ∀ j : Fin 4, s.slots[j].ticket ≠ some e.ticket) (free : s.slots[i].state = .free) :
    Room (s.bindSlot i e) := by
  refine room_dependsOn.of_touches (raise_touches _ _ _) rfl ?_
  generalize hx : ({ Slot.empty with state := .reserved, ticket := some e.ticket } : Slot) = x
  have other : ∀ {j : Fin 4}, j ≠ i → (s.setSlot i x).slots[j] = s.slots[j] :=
    fun hj => setSlot_slot_other s hj _
  have same : (s.setSlot i x).slots[i].ticket = some e.ticket ∧
      (s.setSlot i x).slots[i].state = .reserved := by
    rw [setSlot_slot_same, ← hx]; exact ⟨rfl, rfl⟩
  have bound : ∀ {j : Fin 4} {n : Nat}, (s.setSlot i x).slots[j].ticket = some n →
      (j = i ∧ n = e.ticket) ∨ (j ≠ i ∧ s.slots[j].ticket = some n ∧ n ≠ e.ticket) := fun {j n} hj => by
    by_cases hji : j = i
    · subst hji
      rw [same.1] at hj
      exact .inl ⟨rfl, (Option.some.inj hj).symm⟩
    · rw [other hji] at hj
      exact .inr ⟨hji, hj, fun eq => unbound j (eq ▸ hj)⟩
  refine ⟨?_, h.depth, fun j => ?_, fun j k n hj hk => ?_, fun j n hj => ?_, fun j hj => ?_,
    fun t ht => ?_, fun j k hj hk => ?_, fun k x' he hc => ?_⟩
  · exact ticketsDistinct_dependsOn.of_touches (setSlot_touches s i x) rfl h.tickets
  · by_cases hj : j = i
    · subst hj
      rw [same.1, same.2]
      exact iff_of_false nofun (by rintro (h | h) <;> cases h)
    · rw [other hj]; exact h.unbound j
  · rcases bound hj with ⟨rfl, rfl⟩ | ⟨-, hj', nj⟩ <;> rcases bound hk with ⟨rfl, nk⟩ | ⟨-, hk', nk⟩
    · rfl
    · exact absurd rfl nk
    · exact absurd nk nj
    · exact h.once j k n hj' hk'
  · rcases bound hj with ⟨-, rfl⟩ | ⟨-, hj', -⟩
    · exact .inl ⟨e, mem, rfl⟩
    · exact h.held j n hj'
  · by_cases hji : j = i
    · subst hji; rw [same.2] at hj; cases hj
    · rw [other hji] at hj; exact h.onStage j hj
  · have ne : t.slot ≠ i := fun eq => by
      subst eq
      exact nomatch free.symm.trans (h.turn t ht).1
    rw [other ne]
    exact h.turn t ht
  · have loaded : ∀ {j : Fin 4}, (s.setSlot i x).slots[j].state = .loading →
        s.slots[j].state = .loading := fun {j} hj => by
      by_cases hji : j = i
      · subst hji; rw [same.2] at hj; cases hj
      · exact other hji ▸ hj
    exact h.loading j k (loaded hj) (loaded hk)
  · obtain ⟨zero, stage, free', j, hj, ready⟩ := h.called k x' he hc
    have ne : j ≠ i := fun eq => by
      subst eq
      exact nomatch free.symm.trans ready
    refine ⟨zero, stage, free', j, ?_, ?_⟩ <;> rw [other ne]
    · exact hj
    · exact ready

/-- The entries beyond the depth do not hold the head's ticket. -/
theorem Room.head_ticket_ne {s : State} (h : Room s) {x e : Entry}
    (far : x ∈ s.book.entries.drop s.depth) (head : s.book.entries[0]? = some e) :
    x.ticket ≠ e.ticket := by
  obtain ⟨d, hd⟩ : ∃ d, s.depth = d + 1 := ⟨s.depth - 1, by have := h.depth.1; omega⟩
  have nodup := h.tickets.2.1
  cases he : s.book.entries with
  | nil => rw [he] at head; cases head
  | cons y ys =>
    rw [he, hd] at far
    rw [he] at head nodup
    obtain rfl := Option.some.inj head
    rw [List.map_cons, List.nodup_cons] at nodup
    exact fun eq => nodup.1 (eq ▸ List.mem_map_of_mem (List.mem_of_mem_drop far))

theorem PassRun.room {s t : State} (run : PassRun s t) (h : Room s) : Room t := by
  induction run with
  | refl => exact h
  | bind run near unbound free ih =>
    exact ih.bindSlot (run.book ▸ List.mem_of_mem_take near) unbound free
  | reclaim run far bound ih =>
    refine ih.scrubSlot (ih.not_onStage_of_entry (run.book ▸ List.mem_of_mem_drop far) bound)
      fun e head _ same => ?_
    exact h.head_ticket_ne far (run.book ▸ head) (Option.some.inj (bound.symm.trans same))

theorem Room.pass {s : State} (h : Room s) : Room s.pass := (pass_run s).room h

theorem Room.changed {s : State} (h : Room s) : Room s.changed :=
  (room_dependsOn.of_touches (raise_touches _ _ _) rfl h : Room (s.raise _ _)).pass

theorem Room.retitle {s : State} (h : Room s) : Room s.retitle :=
  room_dependsOn.of_touches (retitle_touches s) rfl h

/-- A change of an entry's state alone leaves the tickets. -/
theorem Room.callHead {s t : State} (h : Room s) (call : s.callHead = some t) : Room t := by
  obtain ⟨e, rest, i, stage, free, entries, bound, ready, waiting, rfl⟩ := callHead_cases call
  refine room_dependsOn.of_touches (raise_touches _ _ _) rfl ?_
  refine ⟨?_, h.depth, h.unbound, h.once, fun j n hj => ?_, h.onStage, h.turn, h.loading,
    fun k x he hc => ?_⟩
  · refine ticketsDistinct_of_subperm h.tickets ?_ rfl (.inr rfl)
    rw [Book.tickets, Book.tickets, entries]
    exact .refl _
  · refine (h.held j n hj).imp_left fun ⟨x, mem, same⟩ => ?_
    rw [entries] at mem
    rcases List.mem_cons.mp mem with rfl | mem
    · exact ⟨_, List.mem_cons_self, same⟩
    · exact ⟨x, List.mem_cons_of_mem _ mem, same⟩
  · cases k with
    | zero =>
      obtain rfl := Option.some.inj he
      exact ⟨rfl, stage, free, i, boundSlot_some bound, ready⟩
    | succ k =>
      have := (h.called (k + 1) x (by rw [entries]; exact he) hc).1
      cases this

theorem Room.testCall {s : State} (h : Room s) : Room s.testCall := by
  unfold State.testCall
  split
  next t call => exact (h.callHead call).changed.retitle
  next => exact h.retitle

theorem Room.bookChanged {s : State} (h : Room s) : Room s.bookChanged := h.changed.testCall

end Sys2Proof.Machine
end

section
/-! The room under the commands of the Book and the stage: the CALLED head stays the head, and a turn's
slot is on stage exactly for the turn. -/

namespace Sys2Proof.Machine

/-! ## Running orders whose head alone may be CALLED -/

/-- No entry behind the head is CALLED. -/
def CalledFirst (es : List Entry) : Prop := ∀ e ∈ es.tail, e.state ≠ .called

theorem Room.calledFirst {s : State} (h : Room s) : CalledFirst s.book.entries := by
  intro e mem called
  obtain ⟨k, hk⟩ := List.getElem?_of_mem mem
  rw [List.getElem?_tail] at hk
  exact nomatch (h.called (k + 1) e hk called).1

/-- An entry put into a running order, behind its head if that is CALLED. -/
theorem CalledFirst.insert {ahead behind : List Entry} (h : CalledFirst (ahead ++ behind)) {x : Entry}
    (waiting : x.state ≠ .called)
    (front : ∀ e, (ahead ++ behind).head? = some e → e.state = .called → ahead ≠ []) :
    CalledFirst (ahead ++ x :: behind) ∧ ∀ e, (ahead ++ x :: behind).head? = some e →
      e.state = .called → (ahead ++ behind).head? = some e := by
  cases ahead with
  | nil =>
    have none : ∀ e ∈ behind, e.state ≠ .called := fun e mem called => by
      cases behind with
      | nil => cases mem
      | cons y ys =>
        rcases List.mem_cons.mp mem with rfl | mem
        · exact front e rfl called rfl
        · exact h e mem called
    exact ⟨none, fun e he called => absurd called (Option.some.inj he ▸ waiting)⟩
  | cons y ys =>
    refine ⟨fun e mem => ?_, fun e he _ => he⟩
    rcases List.mem_append.mp mem with mem | mem
    · exact h e (List.mem_append_left _ mem)
    · rcases List.mem_cons.mp mem with rfl | mem
      · exact waiting
      · exact h e (List.mem_append_right _ mem)

theorem CalledFirst.filter {es : List Entry} (h : CalledFirst es) (p : Entry → Bool) :
    CalledFirst (es.filter p) ∧ ∀ e, (es.filter p).head? = some e → e.state = .called →
      es.head? = some e := by
  cases es with
  | nil => exact ⟨nofun, nofun⟩
  | cons x xs =>
    rw [List.filter_cons]
    split
    · exact ⟨fun e mem => h e (List.mem_filter.mp mem).1, fun e he _ => he⟩
    · refine ⟨fun e mem => h e (List.mem_filter.mp (List.mem_of_mem_tail mem)).1,
        fun e he called => absurd called (h e ?_)⟩
      exact (List.mem_filter.mp (List.mem_of_mem_head? he)).1

/-- An entry other than the CALLED head taken out leaves that head. -/
theorem without_head {b : Book} {e x : Entry} (head : b.entries.head? = some x)
    (other : x.ticket ≠ e.ticket) : (b.without e.ticket).head? = some x := by
  cases he : b.entries with
  | nil => rw [he] at head; cases head
  | cons y ys =>
    rw [he] at head
    obtain rfl := Option.some.inj head
    simp [Book.without, he, other]

theorem calledHead_isSome_iff {b : Book} : b.calledHead.isSome = true ↔
    ∃ e, b.entries.head? = some e ∧ e.state = .called := by
  unfold Book.calledHead
  split
  next h => simp [h]
  next x xs h => simp only [h, List.head?_cons, Option.some.injEq, exists_eq_left']; split <;> simp [*]

/-- A new entry stands behind a CALLED head, wherever else its place is. -/
theorem inserted_behind_called {b : Book} {x : Entry} (waiting : x.state ≠ .called)
    (h : CalledFirst b.entries) : CalledFirst (b.inserted x) ∧
      ∀ e, (b.inserted x).head? = some e → e.state = .called → b.entries.head? = some e := by
  have front : ∀ e, b.entries.head? = some e → e.state = .called →
      b.entries.take b.protectedFront ≠ [] := fun e head called => by
    have some_ : b.calledHead.isSome = true := calledHead_isSome_iff.mpr ⟨e, head, called⟩
    have positive : 1 ≤ b.protectedFront := by
      rw [Book.protectedFront, some_]
      exact le_max_left _ _
    cases he : b.entries with
    | nil => rw [he] at head; cases head
    | cons y ys =>
      obtain ⟨n, hn⟩ : ∃ n, b.protectedFront = n + 1 := ⟨_, (Nat.sub_add_cancel positive).symm⟩
      rw [hn]
      nofun
  have placed : ∀ ahead behind, b.entries = ahead ++ behind →
      (∀ e, b.entries.head? = some e → e.state = .called → ahead ≠ []) →
      CalledFirst (ahead ++ x :: behind) ∧ ∀ e, (ahead ++ x :: behind).head? = some e →
        e.state = .called → b.entries.head? = some e := fun ahead behind eq front => by
    rw [eq] at h front ⊢
    exact h.insert waiting front
  unfold Book.inserted
  split
  · exact placed _ _ (List.take_append_drop _ _).symm front
  · refine placed b.entries [] (List.append_nil _).symm fun e head _ => ?_
    rintro nil
    rw [nil] at head
    cases head
  · refine placed _ _ ?_ fun e head called nil => ?_
    · rw [List.append_assoc, List.takeWhile_append_dropWhile, List.take_append_drop]
    · exact front e head called (List.append_eq_nil_iff.mp nil).1

/-! ## The Book changed, the slots as they were -/

theorem Room.of_book {s : State} (h : Room s) (b : Book)
    (tickets : ({ s with book := b } : State).ticketsDistinct)
    (held : ∀ (i : Fin 4) (n : Nat), s.slots[i].ticket = some n →
      (∃ e ∈ b.entries, e.ticket = n) ∨ s.onStage n = true)
    (first : CalledFirst b.entries)
    (head : ∀ e, b.entries.head? = some e → e.state = .called →
      s.book.entries.head? = some e ∧ b.held = s.book.held) :
    Room { s with book := b } :=
  ⟨tickets, h.depth, h.unbound, h.once, held, h.onStage, h.turn, h.loading, fun k e he hc => by
    cases k with
    | zero =>
      obtain ⟨same, flag⟩ := head e (by rw [List.head?_eq_getElem?]; exact he) hc
      obtain ⟨-, stage, free, bound⟩ := h.called 0 e (by rw [← List.head?_eq_getElem?]; exact same) hc
      exact ⟨rfl, stage, flag.trans free, bound⟩
    | succ k =>
      refine absurd hc (first e (List.mem_of_getElem? (i := k) ?_))
      rw [List.getElem?_tail]; exact he⟩

/-- The entries changed to ones of the same tickets, and perhaps more. -/
theorem held_of_subset {s : State} (h : Room s) {es : List Entry}
    (sub : ∀ e ∈ s.book.entries, ∃ x ∈ es, x.ticket = e.ticket) (i : Fin 4) (n : Nat)
    (bound : s.slots[i].ticket = some n) : (∃ e ∈ es, e.ticket = n) ∨ s.onStage n = true :=
  (h.held i n bound).imp_left fun ⟨e, mem, same⟩ =>
    let ⟨x, hx, hxe⟩ := sub e mem
    ⟨x, hx, hxe.trans same⟩

theorem Room.withRequest {s : State} (h : Room s) (room : s.book.entries.length < Config.bookSize)
    (who : Requester) (song : Nat) (tier : Tier) (tag : Option Nat) :
    Room (s.withRequest who song tier tag) := by
  obtain ⟨first, head⟩ := inserted_behind_called (b := s.book)
    (x := s.requestedEntry who song tier tag) nofun h.calledFirst
  refine h.of_book _ (withRequest_ticketsDistinct h.tickets room who song tier tag)
    (held_of_subset h fun e mem => ⟨e, ?_, rfl⟩) first fun e he hc => ⟨head e he hc, rfl⟩
  exact (inserted_perm s.book _).mem_iff.mpr (List.mem_cons_of_mem _ mem)

theorem acceptRequest_room {s : State} (h : Room s) {who : Requester} {song : Nat} {tier : Tier}
    (passed : s.refusal who song tier = none) (tag : Option Nat) :
    Room (s.withRequest who song tier tag) :=
  h.withRequest (room_of_refusal_none passed) who song tier tag

/-- An entry taken out and put in again at another place, behind a CALLED head. -/
theorem Room.reinserted {s : State} (h : Room s) {e x : Entry} (mem : e ∈ s.book.entries)
    (ticket : x.ticket = e.ticket) {es : List Entry}
    (perm : es.Perm (x :: s.book.without e.ticket)) (first : CalledFirst es)
    (head : ∀ y, es.head? = some y → y.state = .called →
      s.book.entries.head? = some y) (f : Book → Book)
    (hf : f s.book = { s.book with entries := es }) : Room (s.mapBook f) := by
  change Room { s with book := f s.book }
  rw [hf]
  refine h.of_book _ ?_ (held_of_subset h fun y hy => ?_) first fun y hy hc => ⟨head y hy hc, rfl⟩
  · exact ticketsDistinct_of_subperm h.tickets
      (reinserted_tickets_subperm h.tickets.2.1 mem ticket perm) rfl (.inr rfl)
  · by_cases same : y.ticket = e.ticket
    · exact ⟨x, perm.mem_iff.mpr List.mem_cons_self, ticket.trans same.symm⟩
    · exact ⟨y, perm.mem_iff.mpr (List.mem_cons_of_mem _ (List.mem_filter.mpr ⟨hy, by simpa using same⟩)),
        rfl⟩

theorem moveTarget_of_called {b : Book} {x : Entry} (head : b.entries.head? = some x)
    (called : x.state = .called) (position : Nat) : 2 ≤ b.moveTarget position := by
  have some_ : b.calledHead.isSome = true := calledHead_isSome_iff.mpr ⟨x, head, called⟩
  have low : 1 ≤ clampNat 1 b.entries.length position := by
    have : b.entries ≠ [] := by rintro nil; rw [nil] at head; cases head
    have : 0 < b.entries.length := List.length_pos_iff.mpr this
    exact (clampNat_mem this position).1
  unfold Book.moveTarget
  simp only [some_, Bool.true_and, decide_eq_true_eq]
  split <;> omega

theorem movedTo_calledFirst {s : State} (h : Room s) {e : Entry}
    (waiting : e.state ≠ .called) (position : Nat) :
    let es := s.book.movedTo e (s.book.moveTarget position)
    CalledFirst es ∧ ∀ y, es.head? = some y → y.state = .called → s.book.entries.head? = some y := by
  obtain ⟨first, kept⟩ := h.calledFirst.filter fun x => x.ticket ≠ e.ticket
  rw [← List.take_append_drop (s.book.moveTarget position - 1) (s.book.entries.filter _)] at first kept
  have moved := first.insert
    (x := { e with
      round := roundBehind ((s.book.without e.ticket).take (s.book.moveTarget position - 1))
      moved := true }) waiting fun y head called => by
    have was := kept y head called
    obtain ⟨n, hn⟩ : ∃ n, s.book.moveTarget position - 1 = n + 1 :=
      ⟨s.book.moveTarget position - 2, by have := moveTarget_of_called was called position; omega⟩
    rw [List.take_append_drop] at head
    rw [hn]
    cases hes : s.book.entries.filter fun x => x.ticket ≠ e.ticket with
    | nil => rw [hes] at head; cases head
    | cons z zs => nofun
  exact ⟨moved.1, fun y hy hc => kept y (moved.2 y hy hc) hc⟩

theorem Room.moved {s : State} (h : Room s) {n : Nat} {e : Entry} (holder : s.holder n = .entry e)
    (waiting : e.state ≠ .called) (position : Nat) :
    Room (s.mapBook fun b => { b with entries := b.movedTo e (s.book.moveTarget position) }) := by
  have mem := (holder_entry holder).1
  obtain ⟨round, perm⟩ := movedTo_perm s.book e (s.book.moveTarget position)
  obtain ⟨first, head⟩ := movedTo_calledFirst h waiting position
  exact h.reinserted mem (by rfl) perm first head _ rfl

theorem Room.promoted {s : State} (h : Room s) {n : Nat} {e : Entry} (holder : s.holder n = .entry e)
    (waiting : e.state ≠ .called) : Room (s.mapBook fun b => b.promoted e) := by
  have mem := (holder_entry holder).1
  obtain ⟨first, kept⟩ := h.calledFirst.filter fun x => x.ticket ≠ e.ticket
  obtain ⟨first', head⟩ := inserted_behind_called
    (b := { s.book with entries := s.book.without e.ticket })
    (x := { e with tier := .priority }) waiting first
  exact h.reinserted mem (by rfl) (promoted_perm s.book e) first'
    (fun y hy hc => kept y (head y hy hc) hc) _ rfl

/-- A setting of the Book that leaves entries, counter and hold flag. -/
theorem Room.mapBook {s : State} (h : Room s) (f : Book → Book)
    (entries : (f s.book).entries = s.book.entries)
    (next : (f s.book).nextTicket = s.book.nextTicket) (held : (f s.book).held = s.book.held) :
    Room (s.mapBook f) := by
  refine h.of_book (f s.book) (mapBook_ticketsDistinct h.tickets f entries next) ?_ ?_
    fun e he _ => ⟨?_, held⟩
  · rw [entries]; exact h.held
  · rw [entries]; exact h.calledFirst
  · rwa [entries] at he

theorem Room.released {s : State} (h : Room s) : Room (s.mapBook fun b => { b with held := false }) := by
  refine h.of_book _ (mapBook_ticketsDistinct h.tickets (fun b => { b with held := false }) rfl rfl)
    h.held h.calledFirst fun e he hc => ⟨he, ?_⟩
  exact (h.called 0 e (by rw [← List.head?_eq_getElem?]; exact he) hc).2.2.1.symm

/-- The Book held: its head, if CALLED, is un-called (R21, R22). -/
theorem Room.holdBlock {s : State} (h : Room s) :
    (s.book.calledHead.isSome = true →
      Room (s.mapBook fun b => { b with held := true }).uncall) ∧
    (s.book.calledHead.isSome = false → Room (s.mapBook fun b => { b with held := true })) := by
  constructor
  · intro called
    obtain ⟨e, head, -⟩ := calledHead_isSome_iff.mp called
    obtain ⟨rest, entries⟩ : ∃ rest, s.book.entries = e :: rest := by
      cases he : s.book.entries with
      | nil => rw [he] at head; cases head
      | cons x xs => rw [he] at head; exact ⟨xs, by rw [Option.some.inj head]⟩
    have uncalled : (s.mapBook fun b => { b with held := true }).uncall =
        ({ s with book := { s.book with
          held := true, entries := { e with state := .waiting } :: rest } } : State).raise [.playback]
          (.callWithdrawn e.ticket) := by
      simp only [State.uncall, State.mapBook, entries]
    rw [uncalled]
    refine room_dependsOn.of_touches (raise_touches _ _ _) rfl ?_
    refine h.of_book _ ?_ (held_of_subset h fun x mem => ?_) (fun x mem => ?_) fun x hx hc => ?_
    · refine ticketsDistinct_of_subperm h.tickets ?_ rfl (.inr rfl)
      rw [Book.tickets, Book.tickets, entries]
      exact .refl _
    · rw [entries] at mem
      rcases List.mem_cons.mp mem with rfl | mem
      · exact ⟨_, List.mem_cons_self, rfl⟩
      · exact ⟨x, List.mem_cons_of_mem _ mem, rfl⟩
    · exact h.calledFirst x (by rw [entries]; exact mem)
    · obtain rfl := Option.some.inj hx
      cases hc
  · intro free
    refine h.of_book _ (mapBook_ticketsDistinct h.tickets (fun b => { b with held := true }) rfl rfl)
      h.held h.calledFirst fun e he hc => ?_
    have called : s.book.calledHead.isSome = true := calledHead_isSome_iff.mpr ⟨e, he, hc⟩
    rw [free] at called
    cases called

/-! ## A cancel -/

/-- The entry of a ticket, WAITING again. -/
def Book.waitingAgain (b : Book) (n : Nat) : Book :=
  { b with entries := b.entries.map fun e =>
      if e.ticket = n then { e with state := .waiting } else e }

theorem waitingAgain_ticket (n : Nat) (e : Entry) :
    (if e.ticket = n then { e with state := .waiting } else e : Entry).ticket = e.ticket := by
  split <;> rfl

theorem waitingAgain_tickets (b : Book) (n : Nat) : (b.waitingAgain n).tickets = b.tickets := by
  rw [Book.tickets, Book.tickets, Book.waitingAgain, List.map_map]
  exact List.map_congr_left fun e _ => waitingAgain_ticket n e

theorem Room.waitingAgain {s : State} (h : Room s) (n : Nat) :
    Room { s with book := s.book.waitingAgain n } := by
  refine h.of_book _ ?_ (held_of_subset h fun e mem => ⟨_, List.mem_map_of_mem mem,
    waitingAgain_ticket n e⟩) ?_ ?_
  · refine ticketsDistinct_of_subperm h.tickets ?_ rfl (.inr rfl)
    rw [waitingAgain_tickets]
  · intro e mem
    rw [Book.waitingAgain, ← List.map_tail] at mem
    obtain ⟨x, hx, rfl⟩ := List.mem_map.mp mem
    split
    · nofun
    · exact h.calledFirst x hx
  · intro e he hc
    rw [Book.waitingAgain, List.head?_map] at he
    obtain ⟨x, hx, rfl⟩ := Option.map_eq_some_iff.mp he
    split at hc
    · cases hc
    next other => rw [if_neg other]; exact ⟨hx, rfl⟩

theorem scrubBound_book (s : State) (n : Nat) (b : Book) :
    ({ s with book := b } : State).scrubBound n = { s.scrubBound n with book := b } := by
  unfold State.scrubBound
  cases h : s.boundSlot n with
  | none =>
    have h' : ({ s with book := b } : State).boundSlot n = none := h
    rw [h']
  | some i =>
    have h' : ({ s with book := b } : State).boundSlot n = some i := h
    rw [h']
    rfl

theorem scrubBound_slot (s : State) {n : Nat} {i : Fin 4} (once : s.BoundOnce) :
    (s.scrubBound n).slots[i] =
      if s.slots[i].ticket = some n then s.slots[i].toScrub else s.slots[i] := by
  unfold State.scrubBound
  split
  next j bound =>
    rw [State.scrubSlot, setSlot_slot]
    by_cases hi : i = j
    · subst hi; rw [if_pos rfl, if_pos (boundSlot_some bound)]
    · rw [if_neg hi, if_neg fun h => hi (once i j n h (boundSlot_some bound))]
  next none => rw [if_neg (boundSlot_eq_none_iff.mp none i)]

theorem Room.scrubBound {s : State} (h : Room s) {e : Entry} (mem : e ∈ s.book.entries)
    (waiting : ∀ x, s.book.entries[0]? = some x → x.state = .called → x.ticket ≠ e.ticket) :
    Room (s.scrubBound e.ticket) := by
  unfold State.scrubBound
  split
  next i bound =>
    have bound := boundSlot_some bound
    exact h.scrubSlot (h.not_onStage_of_entry mem bound) fun x head called same =>
      waiting x head called (Option.some.inj (same.symm.trans bound))
  next => exact h

/-- An entry leaves the Book, its slot scrubbed (R16). -/
theorem Room.cancelled {s : State} (h : Room s) {e : Entry} (mem : e ∈ s.book.entries) :
    Room { s.scrubBound e.ticket with
      book := { (s.scrubBound e.ticket).book with entries := (s.scrubBound e.ticket).book.without e.ticket } } := by
  have book : (s.scrubBound e.ticket).book = s.book := scrubBound_touches s _ .book (by decide)
  have waiting : Room ({ s with book := s.book.waitingAgain e.ticket } : State) := h.waitingAgain _
  have scrubbed : Room { s.scrubBound e.ticket with book := s.book.waitingAgain e.ticket } := by
    rw [← scrubBound_book]
    obtain ⟨x, hx, same⟩ : ∃ x ∈ (s.book.waitingAgain e.ticket).entries, x.ticket = e.ticket :=
      ⟨_, List.mem_map_of_mem mem, waitingAgain_ticket _ e⟩
    have spared : ∀ y, (s.book.waitingAgain e.ticket).entries[0]? = some y → y.state = .called →
        y.ticket ≠ x.ticket := fun y head called eq => by
      rw [Book.waitingAgain, List.getElem?_map] at head
      obtain ⟨z, -, rfl⟩ := Option.map_eq_some_iff.mp head
      rw [same, waitingAgain_ticket] at eq
      rw [if_pos eq] at called
      cases called
    have scrubbed := waiting.scrubBound hx spared
    rwa [same] at scrubbed
  rw [book]
  obtain ⟨first, head⟩ := h.calledFirst.filter fun x => x.ticket ≠ e.ticket
  refine scrubbed.of_book { s.book with entries := s.book.without e.ticket } ?_ (fun i n bound => ?_)
    first fun x hx hc => ⟨?_, rfl⟩
  · refine ticketsDistinct_of_subperm (s := s) h.tickets (without_tickets_subperm _ _) rfl (.inr ?_)
    rw [scrubBound_touches s _ .turn (by decide)]
  · change (s.scrubBound e.ticket).slots[i].ticket = some n at bound
    rw [scrubBound_slot s h.once] at bound
    split at bound
    · cases bound
    next other =>
      rcases h.held i n bound with ⟨x, hx, rfl⟩ | stage
      · refine .inl ⟨x, List.mem_filter.mpr ⟨hx, ?_⟩, rfl⟩
        exact decide_eq_true fun eq => other (eq ▸ bound)
      · refine .inr ?_
        change State.onStage (s.scrubBound e.ticket) n = true
        rw [State.onStage, scrubBound_touches s _ .turn (by decide)]
        exact stage
  · have was := head x hx hc
    have other : x.ticket ≠ e.ticket := by
      have := (List.mem_filter.mp (List.mem_of_mem_head? hx)).2
      simpa using this
    rw [Book.waitingAgain, List.head?_map, was, Option.map_some, if_neg other]

end Sys2Proof.Machine
end

section
/-! The title band's content (R118), the room where a turn starts and ends, and that every step keeps
both in order. -/

namespace Sys2Proof.Machine

/-! ## The choice of the title -/

theorem readyHead_eq_some_iff {s : State} (once : s.BoundOnce) {e : Entry} {i : Fin 4} :
    s.readyHead = some (e, i) ↔ s.book.entries.head? = some e ∧
      s.slots[i].ticket = some e.ticket ∧ s.slots[i].state = .ready := by
  unfold State.readyHead
  split
  next h => simp [h]
  next x xs h =>
    rw [h, List.head?_cons, Option.some.injEq]
    split
    next j bound =>
      have bound := boundSlot_some bound
      split
      next ready =>
        rw [Option.some.injEq, Prod.mk.injEq]
        constructor
        · rintro ⟨rfl, rfl⟩; exact ⟨rfl, bound, ready⟩
        · rintro ⟨rfl, same, -⟩; exact ⟨rfl, once _ _ _ bound same⟩
      next busy =>
        refine iff_of_false nofun ?_
        rintro ⟨rfl, same, ready⟩
        obtain rfl := once _ _ _ bound same
        exact busy ready
    next none =>
      refine iff_of_false nofun ?_
      rintro ⟨rfl, same, -⟩
      exact boundSlot_eq_none_iff.mp none i same

/-- The title band as the stage and the Book call for it. -/
def State.Titled (s : State) : Prop :=
  s.lines.title = s.titleChoice ∧ s.lines.titleRows = s.titleShown

theorem titleChoice_of_turn {s : State} {t : Turn} (h : s.turn = some t) :
    s.titleChoice = .stage t.slot := by
  simp [State.titleChoice, h]

theorem titleChoice_of_ready {s : State} {e : Entry} {i : Fin 4} (h : s.turn = none)
    (ready : s.readyHead = some (e, i)) : s.titleChoice = .nextUp i := by
  simp [State.titleChoice, h, ready]

theorem titleChoice_of_none {s : State} (h : s.turn = none) (ready : s.readyHead = none) :
    s.titleChoice = .none := by
  simp [State.titleChoice, h, ready]

theorem Titled.titleAgrees {s : State} (once : s.BoundOnce) (h : s.Titled) : s.titleAgrees := by
  obtain ⟨title, rows⟩ := h
  have listed : ∀ i : Fin 4, s.titleLists i =
      (s.slots[i].track.map fun t => [t.title, t.artist]).getD [] := fun i => by
    unfold State.titleLists
    cases s.slots[i].track <;> rfl
  refine ⟨fun t ht => ?_, fun stage e head i bound ready => ?_, fun stage idle => ?_, fun none => ?_,
    fun i shown => ?_⟩
  · rw [title, titleChoice_of_turn ht]
  · rw [title, titleChoice_of_ready stage ((readyHead_eq_some_iff once).mpr ⟨head, bound, ready⟩)]
  · rw [title, titleChoice_of_none stage]
    cases hr : s.readyHead with
    | none => rfl
    | some x =>
      obtain ⟨head, bound, ready⟩ := (readyHead_eq_some_iff once).mp hr
      exact absurd ready (idle x.1 head x.2 bound)
  · rw [title] at none
    rw [rows, State.titleShown, none]
  · rw [title] at shown
    rw [rows, State.titleShown]
    rcases shown with shown | shown <;> rw [shown] <;> exact congrArg (List.take _) (listed i)

/-- A retitle shows what the state calls for. -/
theorem retitle_titled (s : State) : s.retitle.lines.title = s.titleChoice ∧
    s.retitle.lines.titleRows = s.titleShown := by
  unfold State.retitle
  simp only
  rw [(hintTitle_scheduled _).title, (hintTitle_scheduled _).titleRows]
  split
  next same =>
    simp only [Bool.and_eq_true, decide_eq_true_eq] at same
    exact ⟨same.1.symm, same.2.symm⟩
  next => exact ⟨rfl, rfl⟩

theorem retitle_layout (s : State) : s.retitle.lines.layout = s.lines.layout := by
  unfold State.retitle
  simp only
  rw [(hintTitle_scheduled _).layout]
  split <;> rfl

theorem retitle_choice (s : State) : s.retitle.titleChoice = s.titleChoice ∧
    s.retitle.titleShown = s.titleShown := by
  have turn : s.retitle.turn = s.turn := retitle_touches s .turn (by decide)
  have book : s.retitle.book = s.book := retitle_touches s .book (by decide)
  have slots : s.retitle.slots = s.slots := retitle_touches s .slots (by decide)
  have choice : s.retitle.titleChoice = s.titleChoice := by
    simp only [State.titleChoice, State.readyHead, State.boundSlot, turn, book, slots]
  refine ⟨choice, ?_⟩
  simp only [State.titleShown, choice, State.titleLists, slots, retitle_layout]

theorem retitle_titleAgrees {s : State} (h : Room s) : s.retitle.titleAgrees := by
  refine Titled.titleAgrees h.retitle.once ?_
  obtain ⟨title, rows⟩ := retitle_titled s
  obtain ⟨choice, shown⟩ := retitle_choice s
  exact ⟨title.trans choice.symm, rows.trans shown.symm⟩

/-! ## Room and title together -/

/-- The room in order, and the title band with it. -/
def InOrder (s : State) : Prop := Room s ∧ s.titleAgrees

theorem Room.retitled {s : State} (h : Room s) : InOrder s.retitle :=
  ⟨h.retitle, retitle_titleAgrees h⟩

theorem Room.testedCall {s : State} (h : Room s) : InOrder s.testCall := by
  refine ⟨h.testCall, ?_⟩
  unfold State.testCall
  split
  next t call => exact retitle_titleAgrees (h.callHead call).changed
  next => exact retitle_titleAgrees h

theorem Room.inOrder_bookChanged {s : State} (h : Room s) : InOrder s.bookChanged :=
  h.changed.testedCall

theorem Room.relayout {s : State} (h : Room s) (f : LineScheduler → LineScheduler) :
    InOrder (s.relayout f) := by
  unfold State.relayout
  refine Room.retitled (room_dependsOn.of_touches (ls := [.lines, .cache]) ?_ rfl h)
  exact (mapLines_touches' _ _).trans (.ite (.refl _ _) (requestRebuild_touches _))

/-- A slot whose song the title band shows. -/
def State.TitleSlot (s : State) (i : Fin 4) : Prop :=
  (∃ t, s.turn = some t ∧ t.slot = i) ∨
    ∃ e, s.book.entries.head? = some e ∧ s.slots[i].ticket = some e.ticket ∧
      s.slots[i].state = .ready

/-- What the title band rests on is as before. -/
structure TitleSame (s t : State) : Prop where
  turn : t.turn.map (·.slot) = s.turn.map (·.slot)
  head : t.book.entries.head?.map (·.ticket) = s.book.entries.head?.map (·.ticket)
  slots : ∀ i : Fin 4, (t.slots[i].ticket = s.slots[i].ticket ∧ t.slots[i].state = s.slots[i].state ∧
    t.slots[i].track = s.slots[i].track) ∨ (¬ s.TitleSlot i ∧ ¬ t.TitleSlot i)
  title : t.lines.title = s.lines.title
  titleRows : t.lines.titleRows = s.lines.titleRows
  layout : t.lines.layout = s.lines.layout

theorem TitleSame.refl (s : State) : TitleSame s s :=
  ⟨rfl, rfl, fun _ => .inl ⟨rfl, rfl, rfl⟩, rfl, rfl, rfl⟩

theorem turn_slot_iff {s t : State} (turn : t.turn.map (·.slot) = s.turn.map (·.slot)) {i : Fin 4} :
    (∃ x, t.turn = some x ∧ x.slot = i) ↔ ∃ x, s.turn = some x ∧ x.slot = i := by
  have as : ∀ u : State, (∃ x, u.turn = some x ∧ x.slot = i) ↔ u.turn.map (·.slot) = some i :=
    fun u => by simp [Option.map_eq_some_iff]
  rw [as, as, turn]

theorem head_ticket_iff {s t : State}
    (head : t.book.entries.head?.map (·.ticket) = s.book.entries.head?.map (·.ticket)) {n : Nat} :
    (∃ e, t.book.entries.head? = some e ∧ n = e.ticket) ↔
      ∃ e, s.book.entries.head? = some e ∧ n = e.ticket := by
  have as : ∀ u : State, (∃ e, u.book.entries.head? = some e ∧ n = e.ticket) ↔
      u.book.entries.head?.map (·.ticket) = some n :=
    fun u => by simp [eq_comm]
  rw [as, as, head]

theorem TitleSame.titleSlot_iff {s t : State} (h : TitleSame s t) (i : Fin 4) :
    t.TitleSlot i ↔ s.TitleSlot i := by
  rcases h.slots i with ⟨ticket, state, -⟩ | ⟨off, off'⟩
  · unfold State.TitleSlot
    rw [turn_slot_iff h.turn, ticket, state]
    refine or_congr_right ?_
    cases hn : s.slots[i].ticket with
    | none => exact iff_of_false (fun ⟨e, _, x, _⟩ => nomatch x) fun ⟨e, _, x, _⟩ => nomatch x
    | some n =>
      have := head_ticket_iff h.head (n := n)
      simp only [Option.some.injEq]
      constructor
      · rintro ⟨e, he, hn, ready⟩
        obtain ⟨e', he', hn'⟩ := this.mp ⟨e, he, hn⟩
        exact ⟨e', he', hn', ready⟩
      · rintro ⟨e, he, hn, ready⟩
        obtain ⟨e', he', hn'⟩ := this.mpr ⟨e, he, hn⟩
        exact ⟨e', he', hn', ready⟩
  · exact iff_of_false off' off

theorem TitleSame.trans {s t u : State} (h : TitleSame s t) (g : TitleSame t u) : TitleSame s u where
  turn := g.turn.trans h.turn
  head := g.head.trans h.head
  slots i := by
    rcases g.slots i with ⟨ticket, state, track⟩ | ⟨off, off'⟩
    · rcases h.slots i with ⟨ticket', state', track'⟩ | ⟨off, off'⟩
      · exact .inl ⟨ticket.trans ticket', state.trans state', track.trans track'⟩
      · exact .inr ⟨off, fun on => off' ((g.titleSlot_iff i).mp on)⟩
    · exact .inr ⟨fun on => off ((h.titleSlot_iff i).mpr on), off'⟩
  title := g.title.trans h.title
  titleRows := g.titleRows.trans h.titleRows
  layout := g.layout.trans h.layout

theorem TitleSame.titleAgrees {s t : State} (h : TitleSame s t) (hs : s.titleAgrees) :
    t.titleAgrees := by
  obtain ⟨onStage, nextUp, idle, noRows, rows⟩ := hs
  have empty : t.turn = none ↔ s.turn = none := by
    have := h.turn
    cases ht : t.turn <;> cases hs : s.turn <;> simp_all
  have shownReady : ∀ {u v : State}, TitleSame u v → ∀ {e : Entry} {i : Fin 4},
      v.book.entries.head? = some e → v.slots[i].ticket = some e.ticket →
      v.slots[i].state = .ready → ∃ x, u.book.entries.head? = some x ∧
        u.slots[i].ticket = some x.ticket ∧ u.slots[i].state = .ready := by
    intro u v h e i head bound ready
    rcases h.slots i with ⟨ticket, state, -⟩ | ⟨-, off⟩
    · obtain ⟨x, hx, same⟩ := (head_ticket_iff h.head).mp ⟨e, head, rfl⟩
      exact ⟨x, hx, by rw [← ticket, bound, same], state ▸ ready⟩
    · exact absurd (.inr ⟨e, head, bound, ready⟩) off
  have titleSlot : ∀ i : Fin 4, s.lines.title = .stage i ∨ s.lines.title = .nextUp i →
      s.TitleSlot i := by
    intro i shown
    cases hs : s.turn with
    | some x =>
      rw [onStage x hs] at shown
      rcases shown with shown | shown
      · exact .inl ⟨x, hs, TitleContent.stage.inj shown⟩
      · cases shown
    | none =>
      by_contra off
      have off' : ∀ e, s.book.entries.head? = some e → s.slots[i].ticket = some e.ticket →
          s.slots[i].state ≠ .ready := fun e he bound ready => off (.inr ⟨e, he, bound, ready⟩)
      by_cases other : ∃ e j, s.book.entries.head? = some e ∧
          s.slots[(j : Fin 4)].ticket = some e.ticket ∧ s.slots[j].state = .ready
      · obtain ⟨e, j, he, bound, ready⟩ := other
        rw [nextUp hs e he j bound ready] at shown
        rcases shown with shown | shown
        · cases shown
        · obtain rfl := TitleContent.nextUp.inj shown
          exact off' e he bound ready
      · rw [idle hs fun e he j bound ready => other ⟨e, j, he, bound, ready⟩] at shown
        rcases shown with shown | shown <;> cases shown
  refine ⟨fun x hx => ?_, fun stage e head i bound ready => ?_, fun stage quiet => ?_, fun none => ?_,
    fun i shown => ?_⟩
  · obtain ⟨y, hy, same⟩ := (turn_slot_iff h.turn).mp ⟨x, hx, rfl⟩
    rw [h.title, onStage y hy, same]
  · obtain ⟨x, hx, bound', ready'⟩ := shownReady h head bound ready
    rw [h.title, nextUp (empty.mp stage) x hx i bound' ready']
  · rw [h.title]
    refine idle (empty.mp stage) fun e head i bound ready => ?_
    have on : t.TitleSlot i := (h.titleSlot_iff i).mpr (.inr ⟨e, head, bound, ready⟩)
    rcases on with ⟨x, hx, -⟩ | ⟨x, hx, bound', ready'⟩
    · rw [stage] at hx; cases hx
    · exact quiet x hx i bound' ready'
  · rw [h.titleRows]
    exact noRows (h.title ▸ none)
  · rw [h.title] at shown
    rcases h.slots i with ⟨-, -, track⟩ | ⟨off, -⟩
    · rw [h.titleRows, h.layout, track]
      exact rows i shown
    · exact absurd (titleSlot i shown) off

theorem TitleSame.of_dependsOn {s t : State} (turn : t.turn = s.turn) (book : t.book = s.book)
    (slots : t.slots = s.slots) (lines : t.lines = s.lines) : TitleSame s t :=
  ⟨by rw [turn], by rw [book], fun i => .inl (by rw [slots]; exact ⟨rfl, rfl, rfl⟩), by rw [lines],
    by rw [lines], by rw [lines]⟩

theorem titleAgrees_dependsOn : DependsOn [.turn, .book, .slots, .lines] State.titleAgrees :=
  fun _ _ same hs => (TitleSame.of_dependsOn (same .turn (by decide)) (same .book (by decide))
    (same .slots (by decide)) (same .lines (by decide))).titleAgrees hs

theorem inOrder_dependsOn : DependsOn [.book, .turn, .slots, .depth, .lines] InOrder := by
  intro s t same hs
  refine ⟨room_dependsOn s t (fun k hk => same k ?_) hs.1,
    titleAgrees_dependsOn s t (fun k hk => same k ?_) hs.2⟩
  · simp only [List.mem_cons, List.not_mem_nil, or_false] at hk ⊢
    tauto
  · simp only [List.mem_cons, List.not_mem_nil, or_false] at hk ⊢
    tauto

/-- A slot that is neither READY nor on stage is not the title's. -/
theorem Room.not_titleSlot {s : State} (h : Room s) {i : Fin 4} (off : s.slots[i].state ≠ .onStage)
    (busy : s.slots[i].state ≠ .ready) : ¬ s.TitleSlot i := by
  rintro (⟨t, turn, rfl⟩ | ⟨e, -, -, ready⟩)
  · exact off (h.turn t turn).1
  · exact busy ready

/-- One slot changed that the title band does not rest on, before and after. -/
theorem titleSame_setSlot {s : State} {i : Fin 4} (x : Slot) (off : ¬ s.TitleSlot i)
    (off' : ¬ (s.setSlot i x).TitleSlot i) : TitleSame s (s.setSlot i x) := by
  refine ⟨rfl, rfl, fun j => ?_, rfl, rfl, rfl⟩
  by_cases hj : j = i
  · subst hj; exact .inr ⟨off, off'⟩
  · rw [setSlot_slot_other s hj]; exact .inl ⟨rfl, rfl, rfl⟩

theorem titleSame_of_touches {ks : List Piece} {s t : State} (h : Touches ks s t)
    (disjoint : ([Piece.turn, .book, .slots, .lines].any fun k => ks.contains k) = false := by rfl) :
    TitleSame s t := by
  have same : ∀ k ∈ [Piece.turn, .book, .slots, .lines], k.same s t := fun k hk => h k fun mem =>
    List.any_eq_false.mp disjoint k hk (List.contains_iff_mem.mpr mem)
  exact .of_dependsOn (same .turn (by decide)) (same .book (by decide)) (same .slots (by decide))
    (same .lines (by decide))

/-- A pass leaves the slot of the head, and the turn's. -/
theorem PassRun.titleSame {s t : State} (run : PassRun s t) (h : Room s) : TitleSame s t := by
  induction run with
  | refl => exact .refl s
  | @bind u i e run near unbound free ih =>
    have room := run.room h
    have bound : ¬ (u.setSlot i { Slot.empty with
        state := .reserved, ticket := some e.ticket }).TitleSlot i := by
      refine (not_or.mpr ⟨fun ⟨x, turn, slot⟩ => ?_, fun ⟨x, _, _, ready⟩ => ?_⟩)
      · subst slot; exact nomatch free.symm.trans (room.turn x turn).1
      · rw [setSlot_slot_same] at ready; cases ready
    refine (ih.trans (titleSame_setSlot _ (room.not_titleSlot ?_ ?_) bound)).trans
      (titleSame_of_touches (raise_touches _ _ _))
    · rw [free]; nofun
    · rw [free]; nofun
  | @reclaim u i e run far bound ih =>
    have room := run.room h
    have off := room.not_onStage_of_entry (run.book ▸ List.mem_of_mem_drop far) bound
    refine ih.trans (titleSame_setSlot _ (not_or.mpr ⟨?_, ?_⟩) (not_or.mpr ⟨?_, ?_⟩))
    · rintro ⟨x, turn, rfl⟩
      exact off (room.turn x turn).1
    · rintro ⟨x, head, same, -⟩
      refine h.head_ticket_ne far (e := x) ?_ (Option.some.inj (bound.symm.trans same))
      rw [← List.head?_eq_getElem?, ← run.book]
      exact head
    · rintro ⟨x, turn, rfl⟩
      exact off (room.turn x turn).1
    · rintro ⟨x, -, same, -⟩
      rw [setSlot_slot_same] at same
      cases same

theorem InOrder.pass {s : State} (h : InOrder s) : InOrder s.pass :=
  ⟨h.1.pass, ((pass_run s).titleSame h.1).titleAgrees h.2⟩

/-- One slot changed off stage, its ticket kept, neither READY before nor after. -/
theorem InOrder.setSlot {s : State} (h : InOrder s) {i : Fin 4} {x : Slot}
    (ticket : x.ticket = s.slots[i].ticket) (was : ¬ s.slots[i].state.unbound)
    (off : s.slots[i].state ≠ .onStage) (notReady : s.slots[i].state ≠ .ready)
    (bound : ¬ x.state.unbound) (stillOff : x.state ≠ .onStage) (still : x.state ≠ .ready)
    (loading : x.state = .loading → ∀ j : Fin 4, s.slots[j].state = .loading → j = i) :
    InOrder (s.setSlot i x) := by
  have room := h.1.setSlot ticket was off notReady bound stillOff loading
  refine ⟨room, (titleSame_setSlot x (h.1.not_titleSlot off notReady)
    (room.not_titleSlot ?_ ?_)).titleAgrees h.2⟩
  · rw [setSlot_slot_same]; exact stillOff
  · rw [setSlot_slot_same]; exact still

theorem InOrder.faultSlot {s : State} (h : InOrder s) {i : Fin 4}
    (working : s.slots[i].state = .loading ∨ s.slots[i].state = .checking) (r : FaultReason)
    (n : Option Nat) : InOrder (s.faultSlot i r n) := by
  refine inOrder_dependsOn.of_touches (raise_touches _ _ _) rfl (h.setSlot (by rfl) ?_ ?_ ?_ ?_ nofun nofun
    nofun)
  · rintro (state | state) <;> rw [state] at working <;> rcases working with w | w <;> cases w
  · intro state; rw [state] at working; rcases working with w | w <;> cases w
  · intro state; rw [state] at working; rcases working with w | w <;> cases w
  · rintro (state | state) <;> cases state

/-! ## The turn -/

/-- A CALLED head taken to the stage: it leaves the Book, and its slot goes ON_STAGE. -/
theorem Room.taken {s v : State} (h : Room s) {e : Entry} {rest : List Entry} {i : Fin 4} {t : Turn}
    (stage : s.turn = none) (entries : s.book.entries = e :: rest)
    (bound : s.slots[i].ticket = some e.ticket) (tickets : v.ticketsDistinct)
    (depth : v.depth = s.depth) (turn : v.turn = some t) (slot : t.slot = i)
    (ticket : t.ticket = e.ticket) (left : v.book.entries = rest)
    (staged : v.slots[i].state = .onStage ∧ v.slots[i].ticket = s.slots[i].ticket)
    (others : ∀ j : Fin 4, j ≠ i → v.slots[j] = s.slots[j]) : Room v := by
  subst slot
  have same : ∀ j : Fin 4, v.slots[j].ticket = s.slots[j].ticket := fun j => by
    by_cases hj : j = t.slot
    · rw [hj]; exact staged.2
    · rw [others j hj]
  have was : ∀ {j : Fin 4}, v.slots[j].state ≠ .onStage → j ≠ t.slot := fun hj eq =>
    hj (eq ▸ staged.1)
  refine ⟨tickets, depth ▸ h.depth, fun j => ?_, fun j k n hj hk => ?_, fun j n hj => ?_,
    fun j hj => ?_, fun x hx => ?_, fun j k hj hk => ?_, fun k x he hc => ?_⟩
  · by_cases hj : j = t.slot
    · rw [same, hj, bound, staged.1]
      exact iff_of_false nofun (by rintro (h | h) <;> cases h)
    · rw [others j hj]; exact h.unbound j
  · exact h.once j k n (same j ▸ hj) (same k ▸ hk)
  · rw [same] at hj
    rcases h.held j n hj with ⟨x, mem, rfl⟩ | off
    · rw [entries] at mem
      rcases List.mem_cons.mp mem with rfl | mem
      · exact .inr (onStage_iff.mpr ⟨t, turn, ticket⟩)
      · exact .inl ⟨x, left ▸ mem, rfl⟩
    · rw [State.onStage, stage] at off; cases off
  · by_cases hji : j = t.slot
    · exact ⟨t, turn, hji.symm⟩
    · rw [others j hji] at hj
      obtain ⟨x, hx, -⟩ := h.onStage j hj
      rw [stage] at hx; cases hx
  · obtain rfl := Option.some.inj (turn.symm.trans hx)
    exact ⟨staged.1, by rw [staged.2, bound, ticket]⟩
  · have nj : j ≠ t.slot := was (by rw [hj]; nofun)
    have nk : k ≠ t.slot := was (by rw [hk]; nofun)
    rw [others j nj] at hj
    rw [others k nk] at hk
    exact h.loading j k hj hk
  · refine absurd hc (h.calledFirst x ?_)
    rw [entries, List.tail_cons, ← left]
    exact List.mem_of_getElem? he

theorem abortTone_keeps (s : State) : s.abortTone.slots = s.slots ∧ s.abortTone.book = s.book ∧
    s.abortTone.turn = s.turn ∧ s.abortTone.depth = s.depth :=
  have h := abortTone_touches s
  ⟨h .slots (by decide), h .book (by decide), h .turn (by decide), h .depth (by decide)⟩

theorem takeBlock_of_called {s : State} (stage : s.turn = none) {e : Entry}
    (called : s.book.calledHead = some e) {i : Fin 4} (bound : s.boundSlot e.ticket = some i) :
    takeBlock s = readOk (s.take e i) (be16 e.ticket ++ be24 e.songId ++ be8 i.val) := by
  simp [Sys2Proof.Machine.takeBlock, stage, called, bound]

theorem InOrder.takeBlock {s : State} (h : InOrder s) : InOrder (takeBlock s).state := by
  have tickets := takeBlock_ticketsDistinct s h.1.tickets
  cases stage : s.turn with
  | some t => simpa [Sys2Proof.Machine.takeBlock, stage] using h
  | none =>
    cases called : s.book.calledHead with
    | none => simpa [Sys2Proof.Machine.takeBlock, stage, called] using h
    | some e =>
      cases bound : s.boundSlot e.ticket with
      | none => simpa [Sys2Proof.Machine.takeBlock, stage, called, bound] using h
      | some i =>
        rw [takeBlock_of_called stage called bound, readOk_state] at tickets ⊢
        obtain ⟨rest, entries, -⟩ := calledHead_eq_some called
        unfold State.take at tickets ⊢
        simp only at tickets ⊢
        generalize hv : State.raise _ consoleVenue (.turnStarted e.ticket i) = v at tickets ⊢
        let w : State := State.setSlot { s with
          book := { s.book with entries := s.book.entries.drop 1, lowest := s.book.rotatedBy e }
          turn := some (e.turn i s.sessionTime)
          clock := s.clock.cue s.slots[i].track
          voice := s.voice.mapChannels Channel.turnStart } i { s.slots[i] with state := .onStage }
        have touched : Touches [.voice, .notices, .lines, .cache] w v := by
          rw [← hv]
          exact (((((abortTone_touches _).mono rfl).trans ((endScoreShow_touches _).mono rfl)).trans
            ((emptyWindow_touches _).mono rfl)).trans ((requestRebuild_touches _).mono rfl)).trans
            ((raise_touches _ _ _).mono rfl)
        have slots : v.slots = w.slots := touched .slots (by decide)
        have turn : v.turn = w.turn := touched .turn (by decide)
        have book : v.book = w.book := touched .book (by decide)
        have staged : ∀ k : Fin 4, v.slots[k] =
            if k = i then { s.slots[i] with state := .onStage } else s.slots[k] := fun k => by
          rw [slots]; exact setSlot_slot _ _ _ _
        have distinct : v.ticketsDistinct := by
          refine ticketsDistinct_of_subperm tickets ?_ ?_ (.inr ?_)
          · rw [tickets_of_order (bookChanged_book v).1]
          · rw [(bookChanged_book v).2]
          · rw [bookChanged_touches v .turn (by decide)]
        refine (h.1.taken stage entries (boundSlot_some bound) distinct (touched .depth (by decide))
          turn rfl rfl ?_ ?_ fun j hj => ?_).inOrder_bookChanged
        · rw [book]
          exact (congrArg (List.drop 1) entries)
        · rw [staged, if_pos rfl]; exact ⟨rfl, rfl⟩
        · rw [staged, if_neg hj]

/-- A turn ended: its slot goes to SCRUB and the stage is EMPTY. -/
theorem Room.ended {s v : State} (h : Room s) {t : Turn} (stage : s.turn = some t)
    (depth : v.depth = s.depth) (turn : v.turn = none) (book : v.book = s.book)
    (scrubbed : v.slots[t.slot].state = .scrub ∧ v.slots[t.slot].ticket = none)
    (others : ∀ j : Fin 4, j ≠ t.slot →
      v.slots[j].state = s.slots[j].state ∧ v.slots[j].ticket = s.slots[j].ticket) : Room v := by
  have bound : ∀ {j : Fin 4} {n : Nat}, v.slots[j].ticket = some n →
      j ≠ t.slot ∧ s.slots[j].ticket = some n := fun {j n} hj => by
    have ne : j ≠ t.slot := fun eq => by
      subst eq; exact nomatch scrubbed.2.symm.trans hj
    exact ⟨ne, (others j ne).2 ▸ hj⟩
  have loaded : ∀ {j : Fin 4} {x : SlotState}, v.slots[j].state = x → x ≠ .scrub →
      j ≠ t.slot ∧ s.slots[j].state = x := fun {j x} hj hx => by
    have ne : j ≠ t.slot := fun eq => by
      subst eq; exact hx (hj.symm.trans scrubbed.1)
    exact ⟨ne, (others j ne).1 ▸ hj⟩
  refine ⟨?_, depth ▸ h.depth, fun j => ?_, fun j k n hj hk => ?_, fun j n hj => ?_,
    fun j hj => ?_, fun x hx => ?_, fun j k hj hk => ?_, fun k x he hc => ?_⟩
  · refine ticketsDistinct_of_subperm h.tickets ?_ (by rw [book]) (.inl (by rw [turn]; rfl))
    rw [book]
  · by_cases hj : j = t.slot
    · rw [hj]; exact iff_of_true scrubbed.2 (.inr scrubbed.1)
    · rw [(others j hj).1, (others j hj).2]; exact h.unbound j
  · exact h.once j k n (bound hj).2 (bound hk).2
  · obtain ⟨ne, hj⟩ := bound hj
    rcases h.held j n hj with inBook | onStage
    · exact .inl (book ▸ inBook)
    · obtain ⟨x, hx, rfl⟩ := onStage_iff.mp onStage
      obtain rfl := Option.some.inj (stage.symm.trans hx)
      exact absurd (h.once _ _ _ hj (h.turn t stage).2) ne
  · obtain ⟨ne, hj⟩ := loaded hj nofun
    obtain ⟨x, hx, slot⟩ := h.onStage j hj
    obtain rfl := Option.some.inj (stage.symm.trans hx)
    exact absurd slot.symm ne
  · rw [turn] at hx; cases hx
  · exact h.loading j k (loaded hj nofun).2 (loaded hk nofun).2
  · rw [book] at he
    obtain ⟨-, empty, -⟩ := h.called k x he hc
    rw [stage] at empty; cases empty

end Sys2Proof.Machine
end

section
/-! Every step keeps the room and the title band in order. -/

namespace Sys2Proof.Machine

theorem tallyAllOpen_marking (s : State) : Marking s s.tallyAllOpen :=
  foldl_marking (fun s m => OnlyMic.ite (tallyOpen_onlyMic s m) (.refl m s)) _ s

theorem tallyPassed_marking (s : State) (time : Nat) : Marking s (s.tallyPassed time) :=
  foldl_marking (fun s m => OnlyMic.ite
    (OnlyMic.foldl (fun s _ => OnlyMic.ite (.refl m s) (tally_onlyMic s m _)) _ s) (.refl m s)) _ s

theorem tallyAtLatency_marking (s : State) : Marking s s.tallyAtLatency :=
  foldl_marking (fun s m => OnlyMic.ite (tallyOpen_onlyMic s m) (.refl m s)) _ s

/-- Marks and channels do not matter to the room and the title. -/
theorem Marking.inOrder {s u : State} (h : Marking s u) (hs : InOrder s) : InOrder u := by
  have book : u.book = s.book := h.touches .book (by decide)
  have lines : u.lines = s.lines := h.touches .lines (by decide)
  have depth : u.depth = s.depth := h.touches .depth (by decide)
  refine ⟨hs.1.of_slotsAlike (fun i => by rw [h.slots]; exact ⟨rfl, rfl⟩) book h.turn
    (depth ▸ hs.1.depth), TitleSame.titleAgrees ?_ hs.2⟩
  exact ⟨by rw [h.turn], by rw [book], fun i => .inl (by rw [h.slots]; exact ⟨rfl, rfl, rfl⟩),
    by rw [lines], by rw [lines], by rw [lines]⟩

theorem flagTurn_inOrder {s : State} (hs : InOrder s) (f : TurnFlags → TurnFlags) :
    InOrder (s.flagTurn f) := by
  unfold State.flagTurn
  split
  · exact hs
  next t turn =>
    obtain ⟨h, title⟩ := hs
    have room : Room ({ s with turn := some { t with flags := f t.flags } } : State) :=
      { h with
        tickets := ticketsDistinct_of_subperm h.tickets (.refl _) rfl (.inr (by rw [turn]; rfl))
        held := fun i n hi => by
          have := h.held i n hi
          rwa [State.onStage, turn] at this
        onStage := fun i hi => by
          obtain ⟨x, hx, slot⟩ := h.onStage i hi
          obtain rfl := Option.some.inj (turn.symm.trans hx)
          exact ⟨_, rfl, slot⟩
        turn := fun x hx => by
          obtain rfl := Option.some.inj hx
          exact h.turn t turn
        called := fun k e he hc => by
          have := (h.called k e he hc).2.1
          rw [turn] at this; cases this }
    refine ⟨room, TitleSame.titleAgrees (s := s) ?_ title⟩
    exact ⟨by rw [turn]; rfl, rfl, fun _ => .inl ⟨rfl, rfl, rfl⟩, rfl, rfl, rfl⟩

/-- The scheduler's own changes leave title, rows and layout. -/
theorem Scheduled.inOrder {s t : State} (h : Scheduled s t)
    (touches : Touches [.lines, .cache, .video] s t) (hs : InOrder s) : InOrder t := by
  refine ⟨room_dependsOn.of_touches touches rfl hs.1, TitleSame.titleAgrees ?_ hs.2⟩
  have slots : t.slots = s.slots := touches .slots (by decide)
  exact ⟨by rw [touches .turn (by decide)], by rw [touches .book (by decide)],
    fun i => .inl (by rw [slots]; exact ⟨rfl, rfl, rfl⟩), h.title, h.titleRows, h.layout⟩

theorem endTurn_inOrder {s : State} (h : Room s) {t : Turn} (stage : s.turn = some t) (r : EndReason)
    (b : Bool) : InOrder (s.endTurn t r b) := by
  unfold State.endTurn
  simp only
  generalize hf : s.tallyAllOpen.file _ = f
  have filed : Touches [.ring, .best, .notices] s.tallyAllOpen f := hf ▸ file_touches _ _
  have marking := tallyAllOpen_marking s
  generalize hv : State.raise _ _ (.turnEnded t.ticket r) = v
  have touched : Touches [.clock, .lines, .cache, .turn, .notices] (f.scrubSlot t.slot) v := by
    rw [← hv]
    exact (((((clock_touches _ _).mono rfl).trans ((emptyWindow_touches _).mono rfl)).trans
      ((startScoreShow_touches _ _).mono rfl)).trans ((turn_touches _ _).mono rfl)).trans
      ((raise_touches _ _ _).mono rfl)
  have slots : v.slots = (f.scrubSlot t.slot).slots := touched .slots (by decide)
  have scrubbed : Touches [.slots] f (f.scrubSlot t.slot) := scrubSlot_touches _ _
  have book : v.book = s.book := (touched .book (by decide)).trans
    ((scrubbed .book (by decide)).trans ((filed .book (by decide)).trans
      (marking.touches .book (by decide))))
  have depth : v.depth = s.depth := (touched .depth (by decide)).trans
    ((scrubbed .depth (by decide)).trans ((filed .depth (by decide)).trans
      (marking.touches .depth (by decide))))
  have turn : v.turn = none := by
    rw [← hv, raise_touches _ _ _ .turn (by decide)]
  have slotsFiled : f.slots = s.tallyAllOpen.slots := filed .slots (by decide)
  refine (h.ended stage depth turn book ?_ fun j hj => ?_).testedCall
  · rw [slots]
    have := setSlot_slot_same f t.slot f.slots[t.slot].toScrub
    rw [State.scrubSlot, this]
    exact ⟨rfl, rfl⟩
  · rw [slots, State.scrubSlot, setSlot_slot_other f hj, slotsFiled, marking.slots]
    exact ⟨rfl, rfl⟩

theorem inOrder_keptByMotion : KeptByMotion InOrder where
  clock s c := inOrder_dependsOn.of_touches (clock_touches s c) rfl
  flag _ f hs := flagTurn_inOrder hs f
  notices s ps n := inOrder_dependsOn.of_touches (raise_touches s ps n) rfl
  rebuild s := (requestRebuild_scheduled s).inOrder ((requestRebuild_touches s).mono rfl)
  lines s n := (lineEventsAt_scheduled s n).inOrder (lineEventsAt_touches s n)
  tallied s := (tallyAllOpen_marking s).inOrder
  passed s n := (tallyPassed_marking s n).inOrder
  ends _ _ r b stage hs := endTurn_inOrder hs.1 stage r b

/-! ## The commands of the Book -/

theorem InOrder.accepted {s : State} (h : InOrder s) {who : Requester} {song : Nat} {tier : Tier}
    (passed : s.refusal who song tier = none) (tag : Option Nat) :
    InOrder (s.acceptRequest who song tier tag).1 := by
  rw [acceptRequest_state]
  exact (acceptRequest_room h.1 passed tag).inOrder_bookChanged

theorem InOrder.enqueueBlock {s : State} (h : InOrder s) (p : Port) (song : Nat) (tier : Byte)
    (tag : OptionalByte) : InOrder (enqueueBlock p song tier tag s).state := by
  unfold Sys2Proof.Machine.enqueueBlock
  split
  · exact h
  · split
    · split
      · exact h
      next passed => exact h.accepted passed _
    · exact h

theorem InOrder.cancelEntry {s : State} (h : InOrder s) {e : Entry} (mem : e ∈ s.book.entries) :
    InOrder (s.cancelEntry e) := by
  have withdrawn : Touches [.notices] s (s.withdrawCall e) := withdrawCall_touches s e
  have room : Room (s.withdrawCall e) := room_dependsOn.of_touches withdrawn rfl h.1
  have book : (s.withdrawCall e).book = s.book := withdrawn .book (by decide)
  unfold State.cancelEntry
  exact (room.cancelled (e := e) (by rwa [book])).inOrder_bookChanged

theorem InOrder.cancelBlock {s : State} (h : InOrder s) (n : Nat) :
    InOrder (cancelBlock n s).state := by
  unfold Sys2Proof.Machine.cancelBlock
  split
  · exact h
  · exact h
  next e holder =>
    rw [readOk_state]
    exact h.cancelEntry (holder_entry holder).1

theorem InOrder.moveBlock {s : State} (h : InOrder s) (n position : Nat) :
    InOrder (moveBlock n position s).state := by
  unfold Sys2Proof.Machine.moveBlock
  split
  · exact h
  · exact h
  next e holder =>
    split
    · exact h
    next waiting => exact (h.1.moved holder waiting position).inOrder_bookChanged

theorem InOrder.promoteBlock {s : State} (h : InOrder s) (n : Nat) :
    InOrder (promoteBlock n s).state := by
  unfold Sys2Proof.Machine.promoteBlock
  split
  · exact h
  · exact h
  next e holder =>
    split_ifs with refused
    · exact h
    · exact h
    · rw [readOk_state]
      refine (h.1.promoted holder fun called => refused ?_).inOrder_bookChanged
      rw [called]; rfl

/-- A setting of the Book that leaves entries, counter and hold flag. -/
theorem InOrder.mapBook {s : State} (h : InOrder s) (f : Book → Book)
    (entries : (f s.book).entries = s.book.entries)
    (next : (f s.book).nextTicket = s.book.nextTicket)
    (held : (f s.book).held = s.book.held) : InOrder (s.mapBook f) := by
  refine ⟨h.1.mapBook f entries next held, TitleSame.titleAgrees ?_ h.2⟩
  refine ⟨rfl, ?_, fun _ => .inl ⟨rfl, rfl, rfl⟩, rfl, rfl, rfl⟩
  change (f s.book).entries.head?.map _ = _
  rw [entries]

theorem InOrder.holdBlock {s : State} (h : InOrder s) : InOrder (holdBlock s).state := by
  obtain ⟨uncalled, held⟩ := h.1.holdBlock
  unfold Sys2Proof.Machine.holdBlock
  simp only [readOk_state]
  split
  next called => exact (uncalled called).inOrder_bookChanged
  next free =>
    refine ⟨held (by simpa using free), TitleSame.titleAgrees ?_ h.2⟩
    exact ⟨rfl, rfl, fun _ => .inl ⟨rfl, rfl, rfl⟩, rfl, rfl, rfl⟩

theorem InOrder.panelRequest {s : State} (h : InOrder s) (p : Fin 8) (song : Nat) (tag : Option Nat) :
    InOrder (s.panelRequest p song tag).1 := by
  unfold State.panelRequest
  split
  · exact h
  next passed => exact h.accepted passed _

theorem InOrder.cancelForPanel {s : State} (h : InOrder s) (p : Fin 8) (n : Nat) :
    InOrder (s.cancelForPanel p n).1 := by
  unfold State.cancelForPanel
  split
  · exact h
  · exact h
  next e holder =>
    split
    · exact h.cancelEntry (holder_entry holder).1
    · exact h

/-! ## The slots -/

theorem loadingSlot_eq_none_iff {s : State} :
    s.loadingSlot = none ↔ ∀ i : Fin 4, s.slots[i].state ≠ .loading := by
  simp only [State.loadingSlot, List.find?_eq_none, decide_eq_true_eq]
  exact ⟨fun h i => h i (mem_slotNumbers i), fun h i _ => h i⟩

theorem InOrder.loadBeginBlock {s : State} (h : InOrder s) (i : Byte) (n : Nat) :
    InOrder (loadBeginBlock i n s).state := by
  unfold Sys2Proof.Machine.loadBeginBlock
  split
  · exact h
  next i _ =>
    simp only [apply_ite Taken.state]
    split_ifs with stale busy
    · exact h
    · exact h
    · have reserved : s.slots[i].state = .reserved := by
        rw [Bool.or_eq_true, not_or] at stale
        exact not_not.mp fun other => stale.1 (decide_eq_true other)
      have free := loadingSlot_eq_none_iff.mp (Option.not_isSome_iff_eq_none.mp busy)
      rw [readOk_state]
      refine h.setSlot (by rfl) ?_ ?_ ?_ ?_ nofun nofun fun _ j loading => absurd loading (free j)
      · rw [reserved]; rintro (h | h) <;> cases h
      · rw [reserved]; nofun
      · rw [reserved]; nofun
      · rintro (h | h) <;> cases h

/-- A slot in LOADING changed, to CHECKING or still in LOADING. -/
theorem InOrder.loadingSlot {s : State} (h : InOrder s) {i : Fin 4} (loading : s.slots[i].state = .loading)
    {x : Slot} (ticket : x.ticket = s.slots[i].ticket) (state : x.state = .loading ∨ x.state = .checking) :
    InOrder (s.setSlot i x) := by
  refine h.setSlot ticket ?_ ?_ ?_ ?_ ?_ ?_ fun _ j hj => h.1.loading j i hj loading
  · rw [loading]; rintro (h | h) <;> cases h
  · rw [loading]; nofun
  · rw [loading]; nofun
  all_goals rcases state with state | state <;> rw [state]
  · rintro (h | h) <;> cases h
  · rintro (h | h) <;> cases h
  all_goals nofun

theorem InOrder.loadDataBlock {s : State} (h : InOrder s) (i : Byte) (n : Nat) (data : List Byte) :
    InOrder (loadDataBlock i n data s).state := by
  unfold Sys2Proof.Machine.loadDataBlock
  split
  · exact h
  next i _ =>
    simp only [apply_ite Taken.state]
    split_ifs with range stale order full
    · exact h
    · exact h
    · exact h
    · exact h.faultSlot (.inl (not_not.mp stale)) _ _
    · have loading := not_not.mp stale
      exact h.loadingSlot loading (by rfl) (.inl loading)

theorem InOrder.loadEndBlock {s : State} (h : InOrder s) (i : Byte) (n m : Nat) :
    InOrder (loadEndBlock i n m s).state := by
  unfold Sys2Proof.Machine.loadEndBlock
  split
  · exact h
  next i _ =>
    simp only [apply_ite Taken.state]
    split_ifs with stale length sum
    · exact h
    · exact h.faultSlot (.inl (not_not.mp stale)) _ _
    · exact h.faultSlot (.inl (not_not.mp stale)) _ _
    · exact h.loadingSlot (not_not.mp stale) (by rfl) (.inr rfl)

theorem slotDue_state {s : State} {x : SlotState} {i : Fin 4} (h : s.slotDue x i = true) :
    s.slots[i].state = x := by
  simp only [State.slotDue, Bool.and_eq_true, decide_eq_true_eq] at h
  exact h.1

theorem InOrder.endStall {s : State} (h : InOrder s) (i : Fin 4) : InOrder (s.endStall i) := by
  unfold State.endStall
  split
  next due => exact h.faultSlot (.inl (slotDue_state due)) _ _
  next => exact h

theorem InOrder.endCheck {s : State} (h : InOrder s) (i : Fin 4) : InOrder (s.endCheck i) := by
  unfold State.endCheck State.completeCheck
  split
  next due =>
    have checking := slotDue_state due
    split
    · refine Room.testedCall (h.1.setSlot (by rfl) ?_ ?_ ?_ ?_ nofun nofun)
      · rw [checking]; rintro (h | h) <;> cases h
      · rw [checking]; nofun
      · rw [checking]; nofun
      · rintro (h | h) <;> cases h
    · exact h.faultSlot (.inr checking) _ _
  next => exact h

/-- A slot in SCRUB becomes FREE. -/
theorem Room.freed {s : State} (h : Room s) {i : Fin 4} (scrub : s.slots[i].state = .scrub) :
    Room (s.setSlot i Slot.empty) := by
  have ticket : s.slots[i].ticket = none := (h.unbound i).mpr (.inr scrub)
  have same : ∀ j : Fin 4, (s.setSlot i Slot.empty).slots[j].ticket = s.slots[j].ticket := fun j => by
    rw [setSlot_slot]
    split
    next hj => subst hj; exact ticket.symm
    next => rfl
  have state : ∀ {j : Fin 4} {x : SlotState}, x ≠ .free → x ≠ .scrub →
      ((s.setSlot i Slot.empty).slots[j].state = x ↔ s.slots[j].state = x) := fun {j x} hf hs => by
    rw [setSlot_slot]
    split
    next hj =>
      subst hj
      exact iff_of_false (fun eq => hf eq.symm) fun eq => hs (eq.symm.trans scrub)
    next => rfl
  refine ⟨ticketsDistinct_dependsOn.of_touches (setSlot_touches s i _) rfl h.tickets, h.depth,
    fun j => ?_, fun j k n hj hk => h.once j k n (same j ▸ hj) (same k ▸ hk),
    fun j n hj => h.held j n (same j ▸ hj), fun j hj => h.onStage j ((state (x := .onStage) nofun nofun).mp hj),
    fun t ht => ⟨(state (x := .onStage) nofun nofun).mpr (h.turn t ht).1, (same _).trans (h.turn t ht).2⟩,
    fun j k hj hk => h.loading j k ((state (x := .loading) nofun nofun).mp hj)
      ((state (x := .loading) nofun nofun).mp hk),
    fun k e he hc => ?_⟩
  · rw [setSlot_slot]
    split
    next => exact iff_of_true rfl (.inl rfl)
    next => exact h.unbound j
  · obtain ⟨zero, stage, free, j, bound, ready⟩ := h.called k e he hc
    exact ⟨zero, stage, free, j, (same j).trans bound, (state (x := .ready) nofun nofun).mpr ready⟩

theorem InOrder.endScrub {s : State} (h : InOrder s) (i : Fin 4) : InOrder (s.endScrub i) := by
  unfold State.endScrub
  split
  next due =>
    have scrub := slotDue_state due
    have room := h.1.freed scrub
    refine InOrder.pass ⟨room, (titleSame_setSlot _ (h.1.not_titleSlot ?_ ?_)
      (room.not_titleSlot ?_ ?_)).titleAgrees h.2⟩
    · rw [scrub]; nofun
    · rw [scrub]; nofun
    · rw [setSlot_slot_same]; nofun
    · rw [setSlot_slot_same]; nofun
  next => exact h

theorem InOrder.scrubFault {s : State} (h : InOrder s) {i : Fin 4} (fault : s.slots[i].state = .fault) :
    InOrder (s.scrubSlot i) := by
  have room : Room (s.scrubSlot i) := by
    refine h.1.scrubSlot (by rw [fault]; nofun) fun e head called bound => ?_
    obtain ⟨-, -, -, j, bound', ready⟩ := h.1.called 0 e head called
    obtain rfl := h.1.once _ _ _ bound bound'
    rw [fault] at ready; cases ready
  refine ⟨room, (titleSame_setSlot _ (h.1.not_titleSlot ?_ ?_)
    (room.not_titleSlot ?_ ?_)).titleAgrees h.2⟩
  · rw [fault]; nofun
  · rw [fault]; nofun
  · rw [State.scrubSlot, setSlot_slot_same]; nofun
  · rw [State.scrubSlot, setSlot_slot_same]; nofun

theorem InOrder.withDepth {s : State} (h : InOrder s) {n : Nat} (hn : 1 ≤ n ∧ n ≤ 3) :
    InOrder { s with depth := n } :=
  ⟨h.1.of_slotsAlike (fun _ => ⟨rfl, rfl⟩) rfl rfl hn, titleAgrees_dependsOn.of_touches
    (depth_touches s n) rfl h.2⟩

/-! ## Resets and the tick -/

theorem Room.empty {s : State} (turn : s.turn = none) (entries : s.book.entries = [])
    (next : s.book.nextTicket = 1) (depth : 1 ≤ s.depth ∧ s.depth ≤ 3)
    (slots : ∀ i : Fin 4, s.slots[i].ticket = none ∧ s.slots[i].state.unbound) : Room s := by
  have idle : ∀ {i : Fin 4} {x : SlotState}, s.slots[i].state = x → ¬ x.unbound → False :=
    fun {i x} hi hx => hx (hi ▸ (slots i).2)
  refine ⟨ticketsDistinct_of_empty entries next, depth, fun i => iff_of_true (slots i).1 (slots i).2,
    fun i _ n hi _ => ?_, fun i n hi => ?_, fun i hi => ?_, fun t ht => ?_, fun i _ hi _ => ?_,
    fun k e he _ => ?_⟩
  · rw [(slots i).1] at hi; cases hi
  · rw [(slots i).1] at hi; cases hi
  · exact (idle hi (by rintro (h | h) <;> cases h)).elim
  · rw [turn] at ht; cases ht
  · exact (idle hi (by rintro (h | h) <;> cases h)).elim
  · rw [entries] at he; cases he

theorem sessionReset_unbound {x : Slot} (h : x.ticket = none ↔ x.state.unbound) :
    x.sessionReset.ticket = none ∧ x.sessionReset.state.unbound := by
  unfold Slot.sessionReset
  split
  next idle =>
    simp only [Bool.or_eq_true, decide_eq_true_eq] at idle
    exact ⟨h.mpr idle, idle⟩
  next => exact ⟨rfl, .inr rfl⟩

theorem resetBlocks_inOrder {s : State} (h : Room s) : InOrder s.resetBlocks := by
  have emptied : Touches [.lines, .cache] s s.emptyWindow.endScoreShow :=
    (emptyWindow_touches _).trans (endScoreShow_touches _)
  have slots : s.emptyWindow.endScoreShow.slots = s.slots := emptied .slots (by decide)
  have depth : s.emptyWindow.endScoreShow.depth = s.depth := emptied .depth (by decide)
  unfold State.resetBlocks
  simp only
  refine Room.retitled (room_dependsOn.of_touches (mapLines_touches _ _) rfl ?_)
  refine Room.empty rfl rfl rfl (depth ▸ h.depth) fun i => ?_
  have each : (s.emptyWindow.endScoreShow.slots.map Slot.sessionReset)[i] =
      s.slots[i].sessionReset := by
    rw [slots]; exact Vector.getElem_map ..
  change (s.emptyWindow.endScoreShow.slots.map Slot.sessionReset)[i].ticket = none ∧
    (s.emptyWindow.endScoreShow.slots.map Slot.sessionReset)[i].state.unbound
  rw [each]
  exact sessionReset_unbound (h.unbound i)

theorem tickTimers_inOrder {s : State} (h : InOrder s) : InOrder s.tickTimers := by
  have slots : ∀ i : Fin 4, s.tickTimers.slots[i] = s.slots[i].tick := fun i =>
    Vector.getElem_map ..
  refine ⟨h.1.of_slotsAlike (fun i => by rw [slots]; exact ⟨rfl, rfl⟩) rfl rfl h.1.depth,
    TitleSame.titleAgrees ?_ h.2⟩
  exact ⟨rfl, rfl, fun i => .inl (by rw [slots]; exact ⟨rfl, rfl, rfl⟩), rfl, rfl, rfl⟩

/-! ## Every step -/

theorem roomStaysInOrder_iff (s : State) : s.roomAgrees ∧ s.titleAgrees ↔ InOrder s :=
  and_congr_left' (roomAgrees_iff s)

theorem relayout_inOrder {s : State} (h : InOrder s) (f : LineScheduler → LineScheduler) :
    InOrder (s.relayout f) := h.1.relayout f

theorem requestRebuild_inOrder {s : State} (h : InOrder s) : InOrder s.requestRebuild :=
  (requestRebuild_scheduled s).inOrder ((requestRebuild_touches s).mono rfl) h

/-- Settings of the lines that leave the title and its layout. -/
theorem mapLines_inOrder {s : State} (h : InOrder s) {f : LineScheduler → LineScheduler}
    (title : (f s.lines).title = s.lines.title)
    (rows : (f s.lines).titleRows = s.lines.titleRows)
    (layout : (f s.lines).layout = s.lines.layout) : InOrder (s.mapLines f) :=
  ⟨room_dependsOn.of_touches (mapLines_touches s f) rfl h.1,
    TitleSame.titleAgrees (s := s) (t := s.mapLines f)
      ⟨rfl, rfl, fun _ => .inl ⟨rfl, rfl, rfl⟩, title, rows, layout⟩ h.2⟩

theorem mapClock_flagTurn_inOrder {s : State} (h : InOrder s) (c : Prop) [Decidable c]
    (f : Clock → Clock) (g : TurnFlags → TurnFlags) :
    InOrder (if c then s.mapClock f else (s.mapClock f).flagTurn g) := by
  have set := inOrder_dependsOn.of_touches (mapClock_touches s f) rfl h
  split
  · exact set
  · exact flagTurn_inOrder set g

theorem setChannel_inOrder {s : State} (h : InOrder s) (m : Fin 4) (c : Channel) :
    InOrder (s.setChannel m c) := inOrder_dependsOn.of_touches (setChannel_touches s m c) rfl h

theorem enableMic_inOrder {s : State} (h : InOrder s) (m : Fin 4) (x : Bool) :
    InOrder (s.enableMic m x) := by
  unfold State.enableMic
  simp only
  split
  · exact setChannel_inOrder h m _
  · split
    · exact setChannel_inOrder h m _
    · exact setChannel_inOrder ((tallyOpen_onlyMic s m).marking.inOrder h) m _

theorem changePart_inOrder {s : State} (h : InOrder s) (m : Fin 4) (x : Part) :
    InOrder (s.changePart m x) := by
  have tallied := (tallyOpen_onlyMic s m).marking.inOrder h
  unfold State.changePart
  simp only
  split
  · exact flagTurn_inOrder (setChannel_inOrder (setChannel_inOrder tallied m _) m _) _
  · exact setChannel_inOrder (setChannel_inOrder tallied m _) m _

theorem setScoringBlock_inOrder {s : State} (h : InOrder s) (g : Scoring) :
    InOrder (setScoringBlock g s).state := by
  have set : InOrder { s with voice := { s.voice with scoring := g.clamped } } :=
    inOrder_dependsOn.of_touches (voice_touches s _) rfl h
  unfold setScoringBlock
  simp only
  split
  · exact h
  · split
    · exact (tallyAtLatency_marking _).inOrder set
    · exact set

theorem countToneFrame_inOrder {s : State} (h : InOrder s) (ps : Vector (Option Int) 4) :
    InOrder (s.countToneFrame ps) :=
  inOrder_dependsOn.of_touches (countToneFrame_touches s ps) rfl h

theorem completeFrame_inOrder {s : State} (h : InOrder s) : InOrder s.completeFrame := by
  unfold State.completeFrame
  refine countToneFrame_inOrder ?_ _
  refine (foldl_marking (fun s m => completeChannel_onlyMic s m _) _ _).inOrder ?_
  exact inOrder_dependsOn.of_touches (voice_touches s _) rfl h

theorem settleFrame_inOrder {s : State} (h : InOrder s) : InOrder s.settleFrame := by
  unfold State.settleFrame
  split
  · exact completeFrame_inOrder h
  · exact h

theorem takeSamples_inOrder {s : State} (h : InOrder s) (x : Samples) : InOrder (s.takeSamples x) := by
  have taken : Touches [.voice] s.settleFrame (s.takeSamples x) :=
    ((voice_touches _ _).trans (beginTone_touches _)).trans (enterSamples_touches _ _)
  exact inOrder_dependsOn.of_touches taken rfl (settleFrame_inOrder h)

theorem restoreAudio_inOrder {s : State} (h : InOrder s) (x : Samples) :
    InOrder (s.restoreAudio x) := by
  refine takeSamples_inOrder (inOrder_dependsOn.of_touches (ls := [.voice, .notices]) ?_ rfl h) x
  exact ((voice_touches s _).mono rfl).trans (setAudio_touches _ _)

theorem missAudio_inOrder {s : State} (h : InOrder s) : InOrder s.missAudio := by
  unfold State.missAudio
  split
  · refine inOrder_dependsOn.of_touches (ls := [.voice, .notices]) ?_ rfl (settleFrame_inOrder h)
    exact (((voice_touches _ _).mono rfl).trans (setAudio_touches _ _)).trans (abortTone_touches _)
  · exact h

theorem lockAt_inOrder {s : State} (h : InOrder s) (f : Format) : InOrder (s.lockAt f) := by
  unfold State.lockAt
  refine inOrder_dependsOn.of_touches (followNext_touches _) rfl
    (inOrder_dependsOn.of_touches (setPath_touches _ _ _) rfl (relayout_inOrder ?_ _))
  exact inOrder_dependsOn.of_touches (video_touches s _) rfl h

theorem actOnRun_inOrder {s : State} (h : InOrder s) (c : FrameClass) : InOrder (s.actOnRun c) := by
  have path : ∀ p f, InOrder (s.setPath p f) := fun p f =>
    inOrder_dependsOn.of_touches (setPath_touches s p f) rfl h
  have moved : InOrder (if s.video.runCount < 2 then s
      else match c with
        | .supported f => s.lockAt f
        | .unsupported =>
          if s.video.path = PathState.unsupported then s
          else (s.setPath .unsupported none).followNext) := by
    split
    · exact h
    · cases c with
      | supported f => exact lockAt_inOrder h f
      | unsupported =>
        dsimp only
        split
        · exact h
        · exact inOrder_dependsOn.of_touches (followNext_touches _) rfl (path _ _)
  unfold State.actOnRun
  split
  · split
    · split
      · exact h
      · exact path _ _
    · exact h
  · exact moved
  · exact moved
  · exact moved

theorem inputFrame_inOrder {s : State} (h : InOrder s) (m : FrameMeasure) :
    InOrder (s.inputFrame m) := by
  have video : ∀ {u : State} v, InOrder u → InOrder { u with video := v } := fun v hu =>
    inOrder_dependsOn.of_touches (video_touches _ v) rfl hu
  unfold State.inputFrame
  simp only
  split
  · exact actOnRun_inOrder (video _ (video _ h)) _
  · exact video _ h

/-- Settles O10: a pass binds FREE slots to entries without one and reclaims beyond the depth, so never
the head's; a call, a take and the end of a turn move the head's ticket with its slot; and whatever
changes the head, its slot or the stage ends by choosing the title band again. -/
theorem roomStaysInOrder : Obligations.RoomStaysInOrder := by
  have client := @clientCommand_keeps _ _ inOrder_dependsOn rfl
  have motion := inOrder_keptByMotion
  intro s t room title run
  refine (roomStaysInOrder_iff t).mpr
    (step_keeps inOrder_dependsOn rfl ?rows ?tick s t ((roomStaysInOrder_iff s).mp ⟨room, title⟩) run)
  case tick => exact fun s hs => motion.tickClock _ (tickTimers_inOrder hs)
  case rows =>
    intro i hi hc s t hs run
    cases i with
    | powerOnReset =>
      obtain rfl := Host.Outcome.next.inj run
      obtain ⟨_, atReset, titled, _⟩ := invariantsHoldAtReset
      have reset : InOrder State.reset := (roomStaysInOrder_iff _).mp ⟨atReset, titled⟩
      refine inOrder_dependsOn State.reset _ (fun k hk => ?_) reset
      simp only [List.mem_cons, List.not_mem_nil, or_false] at hk
      rcases hk with rfl | rfl | rfl | rfl | rfl <;> rfl
    | sessionReset p =>
      refine client hs run rfl fun u hu => ?_
      rw [readOk_state]
      exact inOrder_dependsOn.of_touches (resetNotices_touches _) rfl (resetBlocks_inOrder hu.1)
    | enqueue p song tier tag => exact client hs run rfl fun u hu => hu.enqueueBlock _ _ _ _
    | cancel p n => exact client hs run rfl fun u hu => hu.cancelBlock _
    | move p n m => exact client hs run rfl fun u hu => hu.moveBlock _ _
    | bookHold p => exact client hs run rfl fun u hu => hu.holdBlock
    | bookRelease p =>
      refine client hs run rfl fun u hu => ?_
      rw [readOk_state]
      exact hu.1.released.testedCall
    | promote p n => exact client hs run rfl fun u hu => hu.promoteBlock _
    | setOrderMode p m r =>
      refine client hs run rfl fun u hu => ?_
      split
      · dsimp only [readOk_state]
        refine hu.mapBook _ ?_ ?_ ?_ <;> rfl
      · exact hu
    | setRotation p o =>
      refine client hs run rfl fun u hu => ?_
      split
      · dsimp only [readOk_state]
        refine hu.mapBook _ ?_ ?_ ?_ <;> rfl
      · exact hu
    | setOriginMask p m =>
      refine client hs run rfl fun u hu => ?_
      split
      · dsimp only [readOk_state]
        refine hu.mapBook _ ?_ ?_ ?_ <;> rfl
      · exact hu
    | setCap p o c =>
      refine client hs run rfl fun u hu => ?_
      split
      · dsimp only [readOk_state]
        refine hu.mapBook _ ?_ ?_ ?_ <;> rfl
      · exact hu
    | setQuota p q w =>
      refine client hs run rfl fun u hu => ?_
      dsimp only
      refine hu.mapBook _ ?_ ?_ ?_ <;> rfl
    | setDuplicatePolicy p x =>
      refine client hs run rfl fun u hu => ?_
      split
      · dsimp only [readOk_state]
        refine hu.mapBook _ ?_ ?_ ?_ <;> rfl
      · exact hu
    | request p seq song tag =>
      exact guarded_keeps (adjudicate_keeps inOrder_dependsOn rfl p _
        (fun hu => hu.panelRequest _ _ _)
        (inOrder_dependsOn.of_touches (goodReply_touches s p) rfl hs)) hs run
    | panelCancel p seq n =>
      exact guarded_keeps (adjudicate_keeps inOrder_dependsOn rfl p _
        (fun hu => hu.cancelForPanel _ _)
        (inOrder_dependsOn.of_touches (goodReply_touches s p) rfl hs)) hs run
    | takeTurn p => exact client hs run rfl fun u hu => hu.takeBlock
    | endTurn p n r => exact client hs run (exec_endTurn p n r s) (motion.endTurnBlock _ _)
    | abortTurn p n => exact client hs run (exec_abortTurn p n s) (motion.abortTurnBlock _)
    | seek p n => exact client hs run rfl (motion.seekBlock _)
    | sync p n => exact client hs run rfl (motion.syncBlock _)
    | loadBegin p i n => exact client hs run rfl fun u hu => hu.loadBeginBlock _ _
    | loadData p i n d => exact client hs run rfl fun u hu => hu.loadDataBlock _ _ _
    | loadEnd p i n m => exact client hs run rfl fun u hu => hu.loadEndBlock _ _ _
    | setLookahead p n =>
      exact client hs run rfl fun u hu => (hu.withDepth (clampNat_mem (by decide) _)).pass
    | retryStage p n =>
      refine client hs run rfl fun u hu => ?_
      split
      · exact hu
      · exact hu
      · split
        · split
          next fault => rw [readOk_state]; exact hu.scrubFault fault
          next => exact hu
        · exact hu
    | stallTimerExpiry j =>
      obtain rfl := Host.Outcome.next.inj run
      exact hs.endStall j
    | checkComplete j =>
      obtain rfl := Host.Outcome.next.inj run
      exact hs.endCheck j
    | scrubComplete j =>
      obtain rfl := Host.Outcome.next.inj run
      exact hs.endScrub j
    | setTempo p n =>
      refine client hs run rfl fun u hu => ?_
      unfold setTempoBlock
      simp only
      split
      · exact hu
      · exact mapClock_flagTurn_inOrder hu _ _ _
    | setKey p n =>
      refine client hs run rfl fun u hu => ?_
      unfold setKeyBlock
      simp only
      split
      · exact hu
      · exact mapClock_flagTurn_inOrder hu _ _ _
    | scrollComplete =>
      simp only [exec, execScrollComplete] at run
      split at run
      · refine guarded_keeps (((countScroll_scheduled s).trans (mapLines_scheduled _)).inOrder ?_ hs) hs
          run
        exact ((countScroll_touches s).trans (mapLines_touches' _ _)).mono rfl
      · obtain rfl := Host.Outcome.next.inj run
        exact hs
    | scoreShowExpiry =>
      obtain rfl := Host.Outcome.next.inj run
      exact (passScoreShow_scheduled s).inOrder ((passScoreShow_touches s).mono rfl) hs
    | setBands p n g => exact client hs run rfl fun u hu => relayout_inOrder hu _
    | setStyle p x n =>
      refine client hs run rfl fun u hu => ?_
      unfold setStyleBlock
      split
      · exact hu
      · simp only
        split
        · exact relayout_inOrder hu _
        · exact requestRebuild_inOrder (relayout_inOrder hu _)
    | setLineTiming p a b c d =>
      refine client hs run rfl fun u hu => ?_
      unfold setLineTimingBlock
      simp only
      split
      · exact mapLines_inOrder hu rfl rfl rfl
      · exact requestRebuild_inOrder (mapLines_inOrder hu rfl rfl rfl)
    | setLyricColours p x a b c =>
      refine client hs run rfl fun u hu => ?_
      dsimp only [readOk_state]
      refine mapLines_inOrder hu ?_ ?_ ?_ <;> rfl
    | setScoreHold p n =>
      refine client hs run rfl fun u hu => ?_
      dsimp only [readOk_state]
      refine mapLines_inOrder hu ?_ ?_ ?_ <;> rfl
    | frameLatch =>
      obtain rfl := Host.Outcome.next.inj run
      exact (frameLatch_scheduled s).inOrder (frameLatch_touches s) hs
    | inputFrameStart m =>
      obtain rfl := Host.Outcome.next.inj run
      exact inputFrame_inOrder hs m
    | setMicEnable p m x =>
      refine client hs run rfl fun u hu => ?_
      split
      · exact enableMic_inOrder hu _ _
      · exact hu
    | setPart p m x =>
      refine client hs run rfl fun u hu => ?_
      split
      · rw [readOk_state]
        split
        · exact setChannel_inOrder hu _ _
        · exact changePart_inOrder hu _ _
      · exact hu
    | setScoring p gate tol grace latency fold wp wn cost =>
      refine client hs run rfl fun u hu => ?_
      split
      · exact hu
      · exact setScoringBlock_inOrder hu _
    | audioLossTimeout =>
      obtain rfl := Host.Outcome.next.inj run
      exact missAudio_inOrder hs
    | audioRestored w =>
      simp only [exec, execAudioRestored] at run
      split at run <;> obtain rfl := Host.Outcome.next.inj run
      · exact restoreAudio_inOrder hs _
      · exact hs
    | tdmFrame w =>
      simp only [exec, execTdmFrame] at run
      split at run <;> obtain rfl := Host.Outcome.next.inj run
      · exact takeSamples_inOrder hs _
      · exact restoreAudio_inOrder hs _
    | voiceFrameComplete =>
      simp only [exec, execVoiceFrameComplete] at run
      split at run <;> obtain rfl := Host.Outcome.next.inj run
      · exact completeFrame_inOrder hs
      · exact hs
    | toneCheckEnd =>
      simp only [exec, execToneCheckEnd] at run
      split at run <;> obtain rfl := Host.Outcome.next.inj run
      · exact completeFrame_inOrder hs
      · exact hs
    | timebaseTick => exact absurd rfl hi
    | _ => cases hc

end Sys2Proof.Machine
end

section
/-! A client command run by its block, said once for all commands, and the scores and results. -/

namespace Sys2Proof.Machine

/-! ## The run of a client command -/

/-- A command whose block, on the state that has accepted the frame, comes to a state, a result code and
data, runs to that state with this reply. -/
theorem runs_block {i : Instr} {p : Port} {f : Frame} {s v : State} {ks : List Piece} {r : ResultCode}
    {d : List Byte} {block : State → Taken} (hf : frameOf i = some (p, f))
    (he : exec i s = clientCommand i s block) (hc : s.canTake i = true)
    (taken : block (s.accept p f) = ⟨v, r, d⟩) (touches : Touches ks (s.accept p f) v)
    (links : Piece.links ∉ ks) : Runs i ks r d s (v.reply p f.code r d) := by
  have state : (block (s.accept p f)).state = v := by rw [taken]
  have runs := runs_of block hf he hc (by rwa [state]) links
  rwa [taken] at runs

/-- A command whose block changes nothing and gives a result code and data. -/
theorem runs_unchanged {i : Instr} {p : Port} {f : Frame} {s : State} {r : ResultCode} {d : List Byte}
    {block : State → Taken} (hf : frameOf i = some (p, f))
    (he : exec i s = clientCommand i s block) (hc : s.canTake i = true)
    (taken : block (s.accept p f) = ⟨s.accept p f, r, d⟩) : ∃ u, Runs i [] r d s u :=
  ⟨_, runs_block hf he hc taken (Touches.refl _ _) (by decide)⟩

theorem accept_port_notices (s : State) (p : Port) (f : Frame) (q : Port) :
    ((s.accept p f).port q).notices = (s.port q).notices := accept_touches s p f .notices (by decide) q

theorem reply_notices (s : State) (p : Port) (c : Byte) (r : ResultCode) (d : List Byte) (q : Port) :
    ((s.reply p c r d).port q).notices = (s.port q).notices :=
  reply_touches s p c r d .notices (by decide) q

theorem reply_shows {s : State} {p : Port} {c : Byte} {r : ResultCode} {d : List Byte} {q : Port}
    {n : Notice} : (s.reply p c r d).shows q n ↔ s.shows q n := by
  rw [State.shows, State.shows, reply_notices]

/-- A raise to one port leaves the other ports' notices. -/
theorem raise_elsewhere (s : State) (p : Port) (n : Notice) {q : Port} (h : q ≠ p) :
    (s.raise [p] n).port q = s.port q := port_setPort_other s _ h

/-! ## RESULT-TAKE, the loss of a record, BEST-CLEAR (R178, R182, R184) -/

theorem resultTakeBlock_of_held {s : State} {n : Nat} (nonzero : n ≠ 0)
    (held : ∃ r ∈ s.ring, r.ticket = n) : resultTakeBlock n s =
      ⟨{ s with ring := s.ring.map (fun (r : ResultRecord) =>
        if r.ticket = n then { r with collected := true } else r) }, .ok, be16 n⟩ := by
  have any : s.ring.any (fun r => r.ticket = n) = true := by simpa using held
  rw [resultTakeBlock, if_pos (by simp [nonzero, any])]; rfl

theorem resultTakeBlock_of_not_held {s : State} {n : Nat}
    (free : ¬ (n ≠ 0 ∧ ∃ r ∈ s.ring, r.ticket = n)) : resultTakeBlock n s = ⟨s, .notFound, []⟩ := by
  rw [resultTakeBlock, if_neg fun h => free ?_]
  · rfl
  · simpa using h

theorem collected_of_ticket (r : ResultRecord) (n : Nat) :
    (if r.ticket = n then { r with collected := true } else r) =
      { r with collected := r.collected || decide (r.ticket = n) } := by
  split <;> simp [*]

theorem loseRecord_of_collected {s : State} {r : ResultRecord} (h : r.collected = true) :
    s.loseRecord r = s := by rw [State.loseRecord, if_pos h]

theorem loseRecord_shows {s : State} {r : ResultRecord} (h : ¬ r.collected = true) :
    (s.loseRecord r).shows .venue (.resultOverwritten r.ticket) := by
  rw [State.loseRecord, if_neg h]
  exact raise_shows _ _ _ _ (.head _)

/-- The record lost for a new one of a ticket: that of its ticket, or else the oldest of a full ring. -/
theorem makeRoom_of_loss {s : State} {n : Nat} {old : ResultRecord}
    (loss : (s.ring.find? fun r => r.ticket = n) = some old ∨
      ((∀ r ∈ s.ring, r.ticket ≠ n) ∧ 16 ≤ s.ring.length ∧ s.ring.head? = some old)) :
    ∃ ring, s.makeRoom n = { s with ring := ring }.loseRecord old ∧
      ∀ r ∈ ring, r ∈ s.ring ∧ r.ticket ≠ n := by
  rcases loss with found | ⟨fresh, full, oldest⟩
  · refine ⟨s.ring.filter fun r => r.ticket ≠ n, ?_, fun r hr => ?_⟩
    · rw [State.makeRoom, found]
    · simpa using hr
  · obtain ⟨rest, ring⟩ := List.head?_eq_some_iff.mp oldest
    refine ⟨rest, ?_, fun r hr => ?_⟩
    · have none : (s.ring.find? fun r => r.ticket = n) = none := by simpa using fresh
      rw [State.makeRoom, none]
      simp only [ring]
      rw [if_pos (by rwa [← ring])]
    · have mem : r ∈ s.ring := ring ▸ .tail _ hr
      exact ⟨mem, fresh r mem⟩

/-- Settles O57: RESULT-TAKE by its block on both outcomes; the record lost by `makeRoom_of_loss`, its
notice by `loseRecord`. -/
theorem resultsAreTakenAndCleared : Obligations.ResultsAreTakenAndCleared := by
  refine ⟨fun s p n hc => ?take, fun s t old loss => ?lost, fun s p hc => ?clear⟩
  case take =>
    split
    next held =>
      have nonzero : n.toNat ≠ 0 := fun zero => held.1 (BitVec.eq_of_toNat_eq zero)
      refine ⟨_, runs_block rfl rfl hc (resultTakeBlock_of_held nonzero held.2) (ring_touches _ _)
        (by decide), List.length_map .., fun k r hk => ?_⟩
      rw [← collected_of_ticket]
      exact (List.getElem?_map ..).trans (by rw [show (s.accept p _).ring[k]? = some r from hk]; rfl)
    next free =>
      refine runs_unchanged rfl rfl hc (resultTakeBlock_of_not_held fun held => free ⟨?_, held.2⟩)
      rintro rfl
      exact held.1 rfl
  case lost =>
    obtain ⟨ring, room, kept⟩ := makeRoom_of_loss loss
    rw [room, loseRecord_ring]
    refine ⟨?_, kept⟩
    split
    next collected => rw [loseRecord_of_collected collected]
    next uncollected => exact loseRecord_shows uncollected
  case clear =>
    exact ⟨_, runs_block rfl rfl hc rfl (best_touches _ _) (by decide), rfl⟩

/-! ## Rounding (R175, R177) -/

/-- `(2 × n + m) / (2 × m)` is `n / m` rounded half up. -/
theorem half_up_bounds (n : Nat) {m : Nat} (h : 0 < m) :
    2 * m * ((2 * n + m) / (2 * m)) ≤ 2 * n + m ∧ 2 * n + m < 2 * m * ((2 * n + m) / (2 * m) + 1) :=
  ⟨Nat.mul_div_le .., Nat.lt_mul_div_succ _ (by omega)⟩

/-- A quotient of at most `k` is rounded to at most `k`. -/
theorem half_up_le {n m k : Nat} (h : 0 < m) (le : n ≤ k * m) : (2 * n + m) / (2 * m) ≤ k := by
  have whole : (k + 1) * (2 * m) = 2 * (k * m) + 2 * m := by ring
  rw [← Nat.lt_succ_iff, Nat.div_lt_iff_lt_mul (by omega), Nat.succ_eq_add_one, whole]
  omega

theorem baseScore_eq (wp wn a h n k : Nat) : baseScore wp wn a h n k =
    (2 * (10000 * (wp * h * n + wn * k * a)) + (wp + wn) * a * n) / (2 * ((wp + wn) * a * n)) := by
  unfold baseScore
  simp only
  congr 2
  omega

theorem weighted_le {wp wn a h n k : Nat} (hits : h ≤ a) (kept : k ≤ n) :
    wp * h * n + wn * k * a ≤ (wp + wn) * a * n :=
  calc wp * h * n + wn * k * a ≤ wp * a * n + wn * n * a :=
        Nat.add_le_add (Nat.mul_le_mul_right n (Nat.mul_le_mul_left wp hits))
          (Nat.mul_le_mul_right a (Nat.mul_le_mul_left wn kept))
    _ = (wp + wn) * a * n := by ring

theorem finalScore_eq_none {g : Scoring} {c : Channel} (h : c.judged = 0 ∨ c.notes = 0) :
    finalScore g c = none := if_pos (by simpa using h)

theorem finalScore_eq_some {g : Scoring} {c : Channel} (judged : c.judged ≠ 0) (notes : c.notes ≠ 0) :
    finalScore g c = some (baseScore g.pitchWeight g.noteWeight c.judged c.hits c.notes c.kept -
      min (c.strays * g.strayCost) 2000) := if_neg (by simp [judged, notes])

theorem headlineOf_eq_none_iff {xs : List Nat} : headlineOf xs = none ↔ xs = [] := by
  cases xs <;> simp [headlineOf]

theorem headlineOf_eq_some {xs : List Nat} {h : Nat} (some : headlineOf xs = some h) :
    0 < xs.length ∧ h = (2 * xs.sum + xs.length) / (2 * xs.length) := by
  unfold headlineOf at some
  split at some
  · cases some
  · exact ⟨Nat.pos_of_ne_zero ‹_›, (Option.some.inj some).symm⟩

/-! ## The offer (R183) -/

theorem offer_of_not_offered {r : ResultRecord} (h : r.reason ≠ .complete ∨ r.headline = none)
    (best : List BestEntry) : r.offer best = best := by
  unfold ResultRecord.offer
  split
  next reason headline => rcases h with h | h <;> simp_all
  next => rfl

theorem offer_of_offered {r : ResultRecord} {h : Nat} (reason : r.reason = .complete)
    (headline : r.headline = some h) (best : List BestEntry) : r.offer best = offerBest best
      { ticket := r.ticket, songId := r.songId, origin := r.origin, tag := r.tag, headline := h
        endedAt := r.endedAt } := by
  rw [ResultRecord.offer, reason, headline]

/-- A full list of others, none of its entries below the copy: the copy is not entered. -/
theorem offerBest_of_full {best : List BestEntry} {x : BestEntry}
    (full : (best.filter fun y => y.ticket ≠ x.ticket).length = 5)
    (last : ∀ y, (best.filter fun y => y.ticket ≠ x.ticket).getLast? = some y →
      x.headline ≤ y.headline) :
    offerBest best x = best.filter fun y => y.ticket ≠ x.ticket := by
  unfold offerBest
  simp only
  rw [if_neg (by rw [full]; decide)]
  split
  next y hy => rw [if_neg (Nat.not_lt.mpr (last y hy))]
  next => rfl

/-- With room, or a last entry below the copy, the copy enters the first four others. -/
theorem offerBest_of_room {best : List BestEntry} {x : BestEntry} (short : best.length ≤ 5)
    (room : ¬ ((best.filter fun y => y.ticket ≠ x.ticket).length = 5 ∧
      ∀ y, (best.filter fun y => y.ticket ≠ x.ticket).getLast? = some y → x.headline ≤ y.headline)) :
    offerBest best x = enterBest ((best.filter fun y => y.ticket ≠ x.ticket).take 4) x := by
  have length : (best.filter fun y => y.ticket ≠ x.ticket).length ≤ 5 :=
    (List.length_filter_le _ _).trans short
  unfold offerBest
  simp only
  generalize best.filter (fun y => y.ticket ≠ x.ticket) = others at *
  split
  next few =>
    have few : others.length < 5 := few
    rw [List.take_of_length_le (by omega)]
  next many =>
    have many : ¬ others.length < 5 := many
    have full : others.length = 5 := by omega
    have : ∃ y, others.getLast? = some y ∧ y.headline < x.headline := by
      by_contra none
      exact room ⟨full, fun y hy => Nat.le_of_not_lt fun lower => none ⟨y, hy, lower⟩⟩
    obtain ⟨y, last, lower⟩ := this
    rw [last]
    simp only
    rw [if_pos lower, List.dropLast_eq_take, full]

/-- Settles O56: the scores by rounding half up, a weighted sum of hits and kept notes being at most the
whole; the offer by where `enterBest` splits a descending list. -/
theorem scoresAndBestListAreExact : Obligations.ScoresAndBestListAreExact := by
  refine ⟨⟨fun g c hits kept weight => ⟨finalScore_eq_none, fun judged notes => ?score⟩,
    fun xs => ⟨headlineOf_eq_none_iff, fun h some => ?headline⟩⟩, fun r best short desc =>
    ⟨fun h => offer_of_not_offered h best, fun h reason headline => ?offer⟩⟩
  case score =>
    have whole : 0 < (g.pitchWeight + g.noteWeight) * c.judged * c.notes :=
      Nat.mul_pos (Nat.mul_pos weight (Nat.pos_of_ne_zero judged)) (Nat.pos_of_ne_zero notes)
    obtain ⟨low, high⟩ := half_up_bounds (10000 *
      (g.pitchWeight * c.hits * c.notes + g.noteWeight * c.kept * c.judged)) whole
    have bound := half_up_le whole (Nat.mul_le_mul_left 10000
      (weighted_le (wp := g.pitchWeight) (wn := g.noteWeight) hits kept))
    rw [← baseScore_eq] at low high bound
    refine ⟨_, _, finalScore_eq_some judged notes, bound, ?_, ?_, ?_⟩ <;> omega
  case headline =>
    obtain ⟨scored, rfl⟩ := headlineOf_eq_some some
    obtain ⟨low, high⟩ := half_up_bounds xs.sum scored
    refine ⟨low, high, fun each => half_up_le scored ?_⟩
    have := List.sum_le_card_nsmul xs 10000 each
    rwa [smul_eq_mul, Nat.mul_comm] at this
  case offer =>
    intro others copy
    rw [offer_of_offered reason headline]
    split
    next full => exact offerBest_of_full full.1 full.2
    next room =>
      rw [offerBest_of_room short room]
      obtain ⟨ahead, behind, split, entered, above, below⟩ := enterBest_split (others.take 4) copy
        ((desc.sublist List.filter_sublist).sublist (List.take_sublist _ _))
      exact ⟨ahead, behind, entered, split.symm, above, below⟩

end Sys2Proof.Machine
end

section
/-! Notices at the ports: what is taken, what the mask decides (R189 to R191). -/

namespace Sys2Proof.Machine

/-- What a command that its port can take comes to. -/
theorem exec_taken {i : Instr} {p : Port} {f : Frame} {s v : State} {r : ResultCode} {d : List Byte}
    {block : State → Taken} (hf : frameOf i = some (p, f))
    (he : exec i s = clientCommand i s block) (hc : s.canTake i = true)
    (taken : block (s.accept p f) = ⟨v, r, d⟩) : exec i s = .next (v.reply p f.code r d) := by
  simp only [State.canTake, hf, Bool.and_eq_true] at hc
  rw [he, clientCommand_eq hf, command_taken block hc.1 hc.2, taken]

theorem Runs.data {i : Instr} {ks : List Piece} {r : ResultCode} {d d' : List Byte} {s u : State}
    (h : Runs i ks r d s u) (eq : d = d') : Runs i ks r d' s u := eq ▸ h

theorem accept_port (s : State) (p : Port) (f : Frame) : (s.accept p f).port p = (s.port p).accept f :=
  port_setPort_same _ _ _

theorem accept_port_other (s : State) {p q : Port} (f : Frame) (h : q ≠ p) :
    (s.accept p f).port q = s.port q := port_setPort_other _ _ h

theorem reply_port (s : State) (p : Port) (c : Byte) (r : ResultCode) (d : List Byte) :
    (s.reply p c r d).port p = (s.port p).answer { code := c, result := r, data := d } :=
  port_setPort_same _ _ _

theorem reply_port_other (s : State) {p q : Port} (c : Byte) (r : ResultCode) (d : List Byte)
    (h : q ≠ p) : (s.reply p c r d).port q = s.port q := port_setPort_other _ _ h

/-! ## Sets of flags as numbers (R194) -/

theorem flagByte_testBit (bs : List Bool) (n : Nat) : (flagByte bs).testBit n = bs.getD n false := by
  induction bs generalizing n with
  | nil => simp [flagByte]
  | cons b bs ih =>
    have value : flagByte (b :: bs) = 2 * flagByte bs + b.toNat := by
      cases b <;> simp [flagByte, Nat.add_comm]
    rw [value]
    cases n with
    | zero => cases b <;> simp [Nat.testBit_zero, Nat.add_mod]
    | succ n =>
      have half : (2 * flagByte bs + b.toNat) / 2 = flagByte bs := by
        have := b.toNat_lt
        omega
      rw [Nat.testBit_succ, half, ih, List.getD_cons_succ]

theorem classes_eq : classes = List.finRange 16 := by decide

theorem pendingSet_testBit (q : PortState) (n : Nat) :
    q.pendingSet.testBit n = true ↔ ∃ h : n < 16, q.notices[n] ≠ none := by
  rw [PortState.pendingSet, flagByte_testBit, classes_eq]
  by_cases h : n < 16
  · simp [List.getD_eq_getElem?_getD, h, Option.isSome_iff_ne_none]
  · simp [List.getD_eq_getElem?_getD, h]

/-- The pending set is made from the notices alone. -/
theorem pendingSet_congr {q r : PortState} (h : r.notices = q.notices) : r.pendingSet = q.pendingSet := by
  unfold PortState.pendingSet; rw [h]

/-! ## The class taken (R190) -/

theorem takeable_iff (q : PortState) (c : Fin 16) :
    q.takeable c = true ↔ q.notices[c] ≠ none ∧ q.mask.getLsb c = false := by
  rw [PortState.takeable, Bool.and_eq_true, Option.isSome_iff_ne_none, Bool.not_eq_true']

theorem not_takeable_iff (q : PortState) (c : Fin 16) :
    ¬ q.takeable c = true ↔ q.notices[c] = none ∨ q.mask.getLsb c = true := by
  rw [takeable_iff, not_and_or, not_not, Bool.not_eq_false]

theorem topClass_eq_none {q : PortState} (h : ∀ c, ¬ q.takeable c = true) : q.topClass = none :=
  List.find?_eq_none.mpr fun c _ => h c

/-- A search through a list sorted by a key finds the element of least key that fits. -/
theorem find?_eq_some_iff_of_sorted {α : Type} {key : α → Nat} {l : List α} {p : α → Bool} {a : α}
    (sorted : l.Pairwise fun x y => key x < key y) :
    l.find? p = some a ↔ a ∈ l ∧ p a = true ∧ ∀ b ∈ l, key b < key a → ¬ p b = true := by
  rw [List.find?_eq_some_iff_append]
  constructor
  · rintro ⟨fits, before, behind, rfl, none⟩
    refine ⟨by simp, fits, fun b mem less => ?_⟩
    rw [List.pairwise_append, List.pairwise_cons] at sorted
    rcases List.mem_append.mp mem with mem | mem
    · simpa using none b mem
    · rcases List.mem_cons.mp mem with rfl | mem
      · exact absurd less (lt_irrefl _)
      · exact absurd less (lt_asymm (sorted.2.1.1 b mem))
  · rintro ⟨mem, fits, below⟩
    obtain ⟨before, behind, rfl⟩ := List.append_of_mem mem
    refine ⟨fits, before, behind, rfl, fun b hb => ?_⟩
    rw [List.pairwise_append] at sorted
    simpa using below b (List.mem_append_left _ hb) (sorted.2.2 b hb a (.head _))

/-- A search through the numbers below `n` finds the least that fits. -/
theorem find?_finRange_eq_some_iff {n : Nat} {p : Fin n → Bool} {i : Fin n} :
    (List.finRange n).find? p = some i ↔ p i = true ∧ ∀ j, j < i → ¬ p j = true := by
  rw [find?_eq_some_iff_of_sorted (key := Fin.val) (List.pairwise_lt_finRange n)]
  simp [List.mem_finRange]

/-- The first takeable class in priority order is the one taken. -/
theorem topClass_eq_some {q : PortState} {c : Fin 16} (takeable : q.takeable c = true)
    (above : ∀ d, d < c → ¬ q.takeable d = true) : q.topClass = some c := by
  rw [PortState.topClass, classes_eq]
  exact find?_finRange_eq_some_iff.mpr ⟨takeable, above⟩

theorem attention_iff (q : PortState) :
    q.attention = true ↔ ∃ c : Fin 16, q.notices[c] ≠ none ∧ q.mask.getLsb c = false := by
  simp only [PortState.attention, List.any_eq_true, takeable_iff, classes_eq, List.mem_finRange, true_and]

/-- A frame's acceptance leaves what can be taken. -/
theorem accept_takeable (q : PortState) (f : Frame) (c : Fin 16) : (q.accept f).takeable c = q.takeable c := by
  unfold PortState.takeable; rw [accept_notices, accept_mask]

theorem noticeTakeBlock_of_none {s : State} {p : Port} (h : (s.port p).topClass = none) :
    noticeTakeBlock p s = ⟨s, .ok, 16 :: (s.port p).noticeSets⟩ := by
  rw [noticeTakeBlock, h]; rfl

theorem noticeTakeBlock_of_some {s : State} {p : Port} {c : Fin 16} {n : Notice}
    (h : (s.port p).topClass = some c) (summary : (s.port p).notices[c] = some n) :
    noticeTakeBlock p s = ⟨s.setPort p ((s.port p).clearClass c), .ok,
      BitVec.ofNat 8 c :: (n.summary ++ ((s.port p).clearClass c).noticeSets)⟩ := by
  rw [noticeTakeBlock, h]
  simp only
  rw [summary]; rfl

/-- Settles O58: the class taken is the first takeable one, of which the mask decides; the sets are
read bit by bit from their bytes. -/
theorem noticesAreTakenInPriority : Obligations.NoticesAreTakenInPriority := by
  refine ⟨fun s p hc => ⟨fun nothing => ?none, fun c n pending unmasked above => ?some⟩,
    fun s p m hc => ?mask, fun q => ⟨attention_iff q, pendingSet_testBit q⟩⟩
  case none =>
    have top : ((s.accept p ⟨0x49, []⟩).port p).topClass = none := by
      rw [accept_port]
      exact topClass_eq_none fun c => by rw [accept_takeable, not_takeable_iff]; exact nothing c
    obtain ⟨u, runs⟩ := runs_unchanged rfl rfl hc (noticeTakeBlock_of_none top)
    rw [accept_port, PortState.noticeSets, pendingSet_congr (accept_notices _ _), accept_mask] at runs
    exact ⟨u, runs⟩
  case some =>
    have accepted : ((s.accept p ⟨0x49, []⟩).port p).notices = (s.port p).notices := by
      rw [accept_port, accept_notices]
    have top : ((s.accept p ⟨0x49, []⟩).port p).topClass = some c := by
      rw [accept_port]
      refine topClass_eq_some ?_ fun d hd => ?_
      · rw [accept_takeable, takeable_iff, pending]; exact ⟨nofun, unmasked⟩
      · rw [accept_takeable, not_takeable_iff]; exact above d hd
    have runs := runs_block (ks := [.notices]) rfl rfl hc
      (noticeTakeBlock_of_some top (by rw [accepted]; exact pending)) (clearClass_notices_only _ p c)
      (by decide)
    refine ⟨_, runs.data ?sets, ?_, fun r hr => ?_⟩
    case sets =>
      rw [PortState.noticeSets, reply_port, port_setPort_same, List.append_assoc]
      congr 4
      change BitVec.toNat (PortState.mask ((s.accept p _).port p)) = _
      rw [accept_port, accept_mask]
    · rw [reply_port, port_setPort_same]
      exact congrArg (fun v => Vector.set v c none c.isLt) accepted
    · rw [reply_port_other _ _ _ _ hr, port_setPort_other _ _ hr, accept_port_other _ _ hr]
  case mask =>
    refine ⟨_, exec_taken rfl rfl hc rfl, ?_, ?_, fun r hr => ?_⟩
    · refine (accept_touches s p ⟨0x4A, be16 m.toNat⟩).trans (Touches.trans ?_ (reply_touches _ _ _ _ _))
      exact mapPort_links _ _ _ rfl
    · rw [reply_port, State.mapPort, port_setPort_same, accept_port]
      unfold PortState.accept
      split <;> rfl
    · rw [reply_port_other _ _ _ _ hr, State.mapPort, port_setPort_other _ _ hr,
        accept_port_other _ _ hr]

end Sys2Proof.Machine
end

section
/-! The places of new entries (R5, R7, R8). -/

namespace Sys2Proof.Machine

theorem tier_eq_normal_iff {x : Entry} : x.tier = .normal ↔ x.tier ≠ .priority := by
  cases x.tier <;> simp

/-- The priority front ends with the last PRIORITY entry; without one it is empty. -/
theorem priorityFront_spec (es : List Entry) :
    (priorityFront es = 0 ∧ ∀ x ∈ es, x.tier = .normal) ∨
      ∃ xs x behind, es = xs ++ [x] ++ behind ∧ x.tier = .priority ∧
        (∀ y ∈ behind, y.tier = .normal) ∧ priorityFront es = xs.length + 1 := by
  induction es with
  | nil => exact .inl ⟨rfl, nofun⟩
  | cons e es ih =>
    rcases ih with ⟨zero, normal⟩ | ⟨xs, x, behind, rfl, priority, normal, front⟩
    · by_cases he : e.tier = .priority
      · exact .inr ⟨[], e, es, rfl, he, normal, by simp [priorityFront, zero, he]⟩
      · refine .inl ⟨by simp [priorityFront, zero, he], fun x hx => ?_⟩
        rcases List.mem_cons.mp hx with rfl | hx
        · exact tier_eq_normal_iff.mpr he
        · exact normal x hx
    · refine .inr ⟨e :: xs, x, behind, rfl, priority, normal, ?_⟩
      simp only [priorityFront, front]
      exact if_pos (Nat.succ_ne_zero _)

/-- What ends the protected front, if it is not empty (R7). -/
def Book.FrontEnds (b : Book) (front : List Entry) : Prop :=
  (∃ xs x, front = xs ++ [x] ∧ x.tier = .priority) ∨
    ((∀ x ∈ b.entries, x.tier = .normal) ∧ ((∃ x, front = [x] ∧ x.state = .called) ∨
      (front = [] ∧ ∀ x, b.entries.head? = some x → x.state = .waiting)))

/-- The protected front and what stands behind it, all of it NORMAL (R7). -/
theorem protectedFront_spec (b : Book) : ∃ front behind, b.entries = front ++ behind ∧
    b.protectedFront = front.length ∧ (∀ x ∈ behind, x.tier = .normal) ∧ b.FrontEnds front := by
  rcases priorityFront_spec b.entries with ⟨zero, normal⟩ | ⟨xs, x, behind, entries, priority, normal, length⟩
  · by_cases called : b.calledHead.isSome = true
    · obtain ⟨x, head, state⟩ := calledHead_isSome_iff.mp called
      obtain ⟨behind, entries⟩ := List.head?_eq_some_iff.mp head
      refine ⟨[x], behind, entries, by simp [Book.protectedFront, called, zero],
        fun y hy => normal y (entries ▸ .tail _ hy), .inr ⟨normal, .inl ⟨x, rfl, state⟩⟩⟩
    · refine ⟨[], b.entries, rfl, by simp [Book.protectedFront, called, zero], normal,
        .inr ⟨normal, .inr ⟨rfl, fun x head => ?_⟩⟩⟩
      cases state : x.state with
      | waiting => rfl
      | called => exact absurd (calledHead_isSome_iff.mpr ⟨x, head, state⟩) called
  · refine ⟨xs ++ [x], behind, entries, ?_, normal, .inl ⟨xs, x, rfl, priority⟩⟩
    rw [Book.protectedFront, length, List.length_append]
    split <;> simp

/-- Settles O16: the place is the end of the protected front. -/
theorem priorityInsertionPlace : Obligations.PriorityInsertionPlace := by
  intro b e priority
  obtain ⟨front, behind, entries, length, normal, ends⟩ := protectedFront_spec b
  refine ⟨front, behind, entries, ?_, normal, ends⟩
  rw [Book.inserted, priority]
  simp only
  rw [length, entries, List.take_left, List.drop_left]

/-- The rank of R8, its lowest origin in range, as an integer remainder. -/
theorem rank_eq {b : Book} (lowest : b.lowest < 10) (o : Nat) :
    (b.rank o : Int) = ((o : Int) - b.lowest - 1) % 10 := by
  unfold Book.rank
  omega

theorem stopsBefore_iff {b : Book} (lowest : b.lowest < 10) (e x : Entry) :
    b.stopsBefore e x = true ↔ e.round < x.round ∨ (x.round = e.round ∧
      ((e.origin : Int) - b.lowest - 1) % 10 < ((x.origin : Int) - b.lowest - 1) % 10) := by
  rw [← rank_eq lowest, ← rank_eq lowest]
  simp [Book.stopsBefore]

/-- Settles O17: fair insertion stops at the first entry behind the protected front that it is to stand
before. -/
theorem fairInsertionPlace : Obligations.FairInsertionPlace := by
  intro b e mode tier lowest rank stops
  obtain ⟨front, behind, entries, length, normal, ends⟩ := protectedFront_spec b
  have split := List.takeWhile_append_dropWhile (p := fun x => !b.stopsBefore e x) (l := behind)
  refine ⟨front, behind.takeWhile fun x => !b.stopsBefore e x,
    behind.dropWhile fun x => !b.stopsBefore e x, ?_, ?_, ?_, ?_, fun x hx => ?_, fun x hx => ?_⟩
  · rw [List.append_assoc, split, entries]
  · rw [Book.inserted, tier, mode]
    simp only
    rw [length, entries, List.take_left, List.drop_left]
  · rw [split]; exact normal
  · rcases ends with priority | ⟨-, called | empty⟩
    · exact .inl priority
    · exact .inr (.inl called)
    · exact .inr (.inr empty)
  · have passed := List.mem_takeWhile_imp hx
    rw [Bool.not_eq_true', ← Bool.not_eq_true, stopsBefore_iff lowest] at passed
    exact passed
  · have stopped := List.head?_dropWhile_not (fun x => !b.stopsBefore e x) behind
    rw [hx] at stopped
    have stopped : b.stopsBefore e x = true := by simpa using stopped
    exact (stopsBefore_iff lowest e x).mp stopped

end Sys2Proof.Machine
end

section
/-! Calling, told by what the head and its slot are (R20, R23), what a reservation pass leaves of a slot
(R64, R65), and BOOK-HOLD, BOOK-RELEASE and the venue's policies (R8 to R13, R22). -/

namespace Sys2Proof.Machine

/-! ## The call (R20) -/

/-- The head called, with its notice. -/
def State.withCalled (s : State) (e : Entry) (rest : List Entry) (i : Fin 4) : State :=
  { s with book := { s.book with entries := { e with state := .called } :: rest } }.raise [.playback]
    (.call e.ticket i)

theorem withCalled_touches (s : State) (e : Entry) (rest : List Entry) (i : Fin 4) :
    Touches [.book, .notices] s (s.withCalled e rest i) :=
  ((book_touches _ _).mono rfl).trans ((raise_touches _ _ _).mono rfl)

theorem withCalled_book (s : State) (e : Entry) (rest : List Entry) (i : Fin 4) :
    (s.withCalled e rest i).book =
      { s.book with entries := { e with state := .called } :: rest } := raise_book _ _ _

/-- The calling condition, all of it. -/
structure State.Calls (s : State) (e : Entry) (rest : List Entry) (i : Fin 4) : Prop where
  stage : s.turn = none
  free : s.book.held = false
  head : s.book.entries = e :: rest
  waiting : e.state = .waiting
  bound : s.boundSlot e.ticket = some i
  ready : s.slots[i].state = .ready

theorem State.Calls.callHead {s : State} {e : Entry} {rest : List Entry} {i : Fin 4}
    (h : s.Calls e rest i) : s.callHead = some (s.withCalled e rest i) := by
  have ready : s.readyHead = some (e, i) := by
    rw [State.readyHead, h.head]
    simp only
    rw [h.bound]
    exact if_pos h.ready
  rw [State.callHead, if_neg (by rw [h.stage, h.free]; decide), h.head, ready]
  exact if_pos h.waiting

theorem State.Calls.testCall {s : State} {e : Entry} {rest : List Entry} {i : Fin 4}
    (h : s.Calls e rest i) : s.testCall = (s.withCalled e rest i).changed.retitle := by
  rw [State.testCall, h.callHead]

theorem State.Calls.testCall_book {s : State} {e : Entry} {rest : List Entry} {i : Fin 4}
    (h : s.Calls e rest i) :
    s.testCall.book = { s.book with entries := { e with state := .called } :: rest } := by
  rw [h.testCall, retitle_book, changed_book, withCalled_book]

theorem State.Calls.testCall_shows_call {s : State} {e : Entry} {rest : List Entry} {i : Fin 4}
    (h : s.Calls e rest i) : s.testCall.shows .playback (.call e.ticket i) := by
  rw [h.testCall]
  refine (keeps_touches (c := 1) (retitle_touches _) (by decide)).shows rfl ?_
  exact (keeps_changed (c := 1) (by decide) (by decide) _).shows rfl (raise_shows _ _ _ _ (.head _))

theorem State.Calls.testCall_shows_queue {s : State} {e : Entry} {rest : List Entry} {i : Fin 4}
    (h : s.Calls e rest i) {p : Port} (hp : p ∈ consoleVenue) :
    s.testCall.shows p (.queueChanged s.book.entries.length) := by
  have length : s.book.entries.length = (s.withCalled e rest i).book.entries.length := by
    rw [withCalled_book, h.head]; rfl
  rw [h.testCall, length]
  exact (keeps_touches (c := 9) (retitle_touches _) (by decide)).shows rfl (changed_shows _ p hp)

/-- Why nothing can be called. -/
def State.NoCall (s : State) : Prop :=
  s.turn ≠ none ∨ s.book.held = true ∨ ∀ e rest, s.book.entries = e :: rest →
    e.state = .called ∨ ∀ i, s.boundSlot e.ticket = some i → s.slots[i].state ≠ .ready

theorem State.NoCall.callHead {s : State} (h : s.NoCall) : s.callHead = none := by
  cases call : s.callHead with
  | none => rfl
  | some t =>
    obtain ⟨e, rest, i, stage, free, head, bound, ready, waiting, -⟩ := callHead_cases call
    rcases h with turn | held | idle
    · exact absurd stage turn
    · rw [free] at held; cases held
    · rcases idle e rest head with called | busy
      · rw [waiting] at called; cases called
      · exact absurd ready (busy i bound)

theorem State.NoCall.testCall {s : State} (h : s.NoCall) : s.testCall = s.retitle := by
  rw [State.testCall, h.callHead]

/-! ## Notices at a port that a raise does not name -/

theorem raise_port_other (s : State) {ps : List Port} (n : Notice) {p : Port} (h : p ∉ ps) :
    (s.raise ps n).port p = s.port p := by
  induction ps generalizing s with
  | nil => rfl
  | cons q ps ih =>
    rw [List.mem_cons, not_or] at h
    exact (ih _ h.2).trans (port_setPort_other s _ h.1)

/-- QUEUE_CHANGED does not go to the playback port (R23). -/
theorem changed_playback (s : State) :
    (s.changed.port .playback).notices[(9 : Fin 16)] = (s.port .playback).notices[(9 : Fin 16)] := by
  rw [State.changed, keeps_pass (c := 9) (by decide) _ .playback, raise_port_other _ _ (by decide)]

theorem retitle_playback (s : State) (c : Fin 16) :
    (s.retitle.port .playback).notices[c] = (s.port .playback).notices[c] :=
  keeps_touches (retitle_touches s) (by decide) .playback

theorem testCall_playback (s : State) :
    (s.testCall.port .playback).notices[(9 : Fin 16)] = (s.port .playback).notices[(9 : Fin 16)] := by
  unfold State.testCall
  split
  next t call =>
    obtain ⟨e, rest, i, -, -, -, -, -, -, rfl⟩ := callHead_cases call
    rw [retitle_playback, changed_playback]
    exact keeps_raise (c := 9) _ _ _ (by change (9 : Fin 16) ≠ 1; decide) .playback
  next => exact retitle_playback s 9

theorem bookChanged_playback (s : State) :
    (s.bookChanged.port .playback).notices[(9 : Fin 16)] = (s.port .playback).notices[(9 : Fin 16)] :=
  (testCall_playback _).trans (changed_playback s)

/-! ## What a pass leaves of a slot (R64, R65) -/

theorem pass_of_depth_zero {s : State} (h : s.depth = 0) : s.pass = s := by
  rw [State.pass, h, List.take_zero]; rfl

/-- A slot that is not FREE and not bound to an entry behind the head stays as it is. -/
theorem pass_slot {s : State} {i : Fin 4} (busy : s.slots[i].state ≠ .free)
    (near : ∀ e ∈ s.book.entries.tail, s.slots[i].ticket ≠ some e.ticket) :
    s.pass.slots[i] = s.slots[i] := by
  by_cases depth : s.depth = 0
  · rw [pass_of_depth_zero depth]
  have tail : ∀ e ∈ s.book.entries.drop s.depth, e ∈ s.book.entries.tail := fun e he => by
    rw [← List.drop_one]
    exact List.drop_subset_drop_left _ (Nat.one_le_iff_ne_zero.mpr depth) he
  suffices kept : ∀ t, PassRun s t → t.slots[i] = s.slots[i] from kept _ (pass_run s)
  intro t run
  induction run with
  | refl => rfl
  | @bind t j e _ _ _ free ih =>
    rw [bindSlot_slots, setSlot_slot_other, ih]
    rintro rfl
    exact busy (ih ▸ free)
  | @reclaim t j e _ far bound ih =>
    rw [State.scrubSlot, setSlot_slot_other, ih]
    rintro rfl
    exact near e (tail e far) (ih ▸ bound)

/-- A pass puts a slot into RESERVED or SCRUB, or leaves it. -/
theorem pass_slot_cases (s : State) (i : Fin 4) : s.pass.slots[i] = s.slots[i] ∨
    s.pass.slots[i].state = .reserved ∨ s.pass.slots[i].state = .scrub := by
  suffices kept : ∀ t, PassRun s t → t.slots[i] = s.slots[i] ∨ t.slots[i].state = .reserved ∨
      t.slots[i].state = .scrub from kept _ (pass_run s)
  intro t run
  induction run with
  | refl => exact .inl rfl
  | @bind t j e _ _ _ _ ih =>
    rw [bindSlot_slots]
    by_cases h : i = j
    · subst h; rw [setSlot_slot_same]; exact .inr (.inl rfl)
    · rwa [setSlot_slot_other _ h]
  | @reclaim t j e _ _ _ ih =>
    rw [State.scrubSlot]
    by_cases h : i = j
    · subst h; rw [setSlot_slot_same]; exact .inr (.inr rfl)
    · rwa [setSlot_slot_other _ h]

theorem boundSlot_eq_some_iff_first {s : State} {n : Nat} {i : Fin 4} : s.boundSlot n = some i ↔
    s.slots[i].ticket = some n ∧ ∀ j, j < i → s.slots[j].ticket ≠ some n := by
  have order : slotNumbers = List.finRange 4 := by decide
  rw [State.boundSlot, order, find?_finRange_eq_some_iff]
  simp only [decide_eq_true_eq, ne_eq]

/-- The slot found for the head's ticket is found for it after a pass: a pass binds to a ticket only where
no slot is bound to it, and reclaims no slot of the head. -/
theorem pass_boundSlot {s : State} {e : Entry} {rest : List Entry} {i : Fin 4}
    (head : s.book.entries = e :: rest) (others : ∀ x ∈ rest, x.ticket ≠ e.ticket)
    (bound : s.boundSlot e.ticket = some i) (busy : s.slots[i].state ≠ .free) :
    s.pass.boundSlot e.ticket = some i := by
  have near : ∀ x ∈ s.book.entries.tail, s.slots[i].ticket ≠ some x.ticket := fun x hx => by
    rw [head] at hx
    rw [boundSlot_some bound]
    exact fun same => others x hx (Option.some.inj same).symm
  by_cases depth : s.depth = 0
  · rwa [pass_of_depth_zero depth]
  have kept := pass_slot busy near
  obtain ⟨ticket, first⟩ := boundSlot_eq_some_iff_first.mp bound
  refine boundSlot_eq_some_iff_first.mpr ⟨kept ▸ ticket, ?_⟩
  suffices run : ∀ t, PassRun s t → t.slots[i] = s.slots[i] ∧ ∀ j, j < i →
      t.slots[j].ticket ≠ some e.ticket from (run _ (pass_run s)).2
  intro t run
  induction run with
  | refl => exact ⟨rfl, first⟩
  | @bind t k x _ _ unbound free ih =>
    have other : k ≠ i := by rintro rfl; exact busy (ih.1 ▸ free)
    refine ⟨?_, fun j hj => ?_⟩
    · rw [bindSlot_slots, setSlot_slot_other _ other.symm, ih.1]
    · rw [bindSlot_slots, setSlot_slot]
      split
      · intro same
        have same := Option.some.inj same
        exact unbound i (by rw [ih.1, ticket, same])
      · exact ih.2 j hj
  | @reclaim t k x _ far boundx ih =>
    have behind : x ∈ s.book.entries.tail := by
      rw [← List.drop_one]
      exact List.drop_subset_drop_left _ (Nat.one_le_iff_ne_zero.mpr depth) far
    have other : k ≠ i := by rintro rfl; exact near x behind (ih.1 ▸ boundx)
    refine ⟨?_, fun j hj => ?_⟩
    · rw [State.scrubSlot, setSlot_slot_other _ other.symm, ih.1]
    · rw [State.scrubSlot, setSlot_slot]
      split
      · exact nofun
      · exact ih.2 j hj

end Sys2Proof.Machine
end

section
/-! BOOK-HOLD, BOOK-RELEASE and the venue's policies (R8 to R13, R22). -/

namespace Sys2Proof.Machine

/-- The pieces a change of the Book with the call it may bring about touches. -/
def changePieces : List Piece := [.book, .slots, .lines, .cache, .notices]

theorem uncall_touches_book (s : State) : Touches [.book, .notices] s s.uncall := by
  unfold State.uncall
  split
  · exact ((book_touches _ _).mono rfl).trans ((raise_touches _ _ _).mono rfl)
  · exact .refl _ _

/-- A held Book's change calls nothing. -/
theorem bookChanged_of_held {s : State} (h : s.book.held = true) : s.bookChanged = s.changed.retitle :=
  State.NoCall.testCall (.inr (.inl (by rw [changed_book]; exact h)))

theorem uncall_of_head {s : State} {e : Entry} {rest : List Entry} (h : s.book.entries = e :: rest) :
    s.uncall = { s with book := { s.book with entries := { e with state := .waiting } :: rest } }.raise
      [.playback] (.callWithdrawn e.ticket) := by
  rw [State.uncall, h]

/-- The Book held, its call not yet withdrawn. -/
def State.withHold (s : State) : State := s.mapBook fun b => { b with held := true }

theorem withHold_book (s : State) : s.withHold.book = { s.book with held := true } := rfl

theorem holdBlock_of_called {s : State} {e : Entry} (h : s.book.calledHead = some e) :
    holdBlock s = ⟨s.withHold.uncall.bookChanged, .ok, []⟩ := by
  rw [holdBlock, h]; rfl

theorem holdBlock_of_none {s : State} (h : s.book.calledHead = none) :
    holdBlock s = ⟨s.withHold, .ok, []⟩ := by
  rw [holdBlock, h]; rfl

theorem hold_uncall_book {s : State} {e : Entry} {rest : List Entry} (h : s.book.entries = e :: rest) :
    s.withHold.uncall.book =
      { s.book with held := true, entries := { e with state := .waiting } :: rest } := by
  rw [uncall_of_head (s := s.withHold) h, raise_book, withHold_book]

/-- BOOK-HOLD with a CALLED head (R21, R22). -/
theorem hold_called {s : State} {e : Entry} (h : s.book.calledHead = some e) :
    s.withHold.uncall.bookChanged.book = { s.book with
      held := true, entries := { e with state := .waiting } :: s.book.entries.tail } ∧
    s.withHold.uncall.bookChanged.shows .playback (.callWithdrawn e.ticket) ∧
    (∀ p ∈ consoleVenue,
      s.withHold.uncall.bookChanged.shows p (.queueChanged s.book.entries.length)) ∧
    (s.withHold.uncall.bookChanged.port .playback).notices[(9 : Fin 16)] =
      (s.port .playback).notices[(9 : Fin 16)] := by
  obtain ⟨rest, entries, -⟩ := calledHead_eq_some h
  have uncalled := uncall_of_head (s := s.withHold) entries
  have uncalledBook := hold_uncall_book entries
  refine ⟨?_, ?_, fun p hp => ?_, ?_⟩
  · rw [bookChanged_of_held (by rw [uncalledBook]), retitle_book, changed_book, uncalledBook, entries,
      List.tail_cons]
  · refine (keeps_bookChanged (c := 2) (by decide) (by decide) (by decide) _).shows rfl ?_
    rw [uncalled]
    exact raise_shows _ _ _ _ (.head _)
  · have length : s.book.entries.length = s.withHold.uncall.bookChanged.book.entries.length := by
      rw [bookChanged_length, uncalledBook, entries]; rfl
    rw [length]
    exact bookChanged_shows_queue _ p hp
  · rw [bookChanged_playback, uncalled]
    exact keeps_raise (c := 9) _ _ _ (by change (9 : Fin 16) ≠ 2; decide) .playback

theorem hold_touches (s : State) : Touches changePieces s s.withHold.uncall.bookChanged :=
  ((mapBook_touches _ _).mono rfl).trans (((uncall_touches_book _).mono rfl).trans
    ((bookChanged_touches _).mono rfl))

/-- The Book no longer held, the calling condition not yet tested. -/
def State.withRelease (s : State) : State := s.mapBook fun b => { b with held := false }

theorem release_touches (s : State) : Touches changePieces s s.withRelease.testCall :=
  ((mapBook_touches _ _).mono rfl).trans ((testCall_touches _).mono rfl)

/-- A command whose block sets the Book alone. -/
theorem book_runs {i : Instr} {p : Port} {f : Frame} {s : State} {r : ResultCode} {d : List Byte}
    {block : State → Taken} {b : Book} (hf : frameOf i = some (p, f))
    (he : exec i s = clientCommand i s block) (hc : s.canTake i = true)
    (taken : block (s.accept p f) = ⟨{ s.accept p f with book := b }, r, d⟩) :
    ∃ u, Runs i [.book] r d s u ∧ u.book = b :=
  ⟨_, runs_block hf he hc taken (book_touches _ _) (by decide), rfl⟩

/-! ## Setting bytes (R194) -/

theorem byte_le_one_iff {b : Byte} : b.toNat ≤ 1 ↔ b = 0 ∨ b = 1 := by bv_omega

theorem onOff_of_le {b : Byte} (h : b.toNat ≤ 1) : onOff b = some (decide (b = 0)) := by
  rcases byte_le_one_iff.mp h with rfl | rfl <;> rfl

theorem onOff_of_not_le {b : Byte} (h : ¬ b.toNat ≤ 1) : onOff b = none := by
  rw [byte_le_one_iff, not_or] at h
  rw [onOff, if_neg h.1, if_neg h.2]

theorem modeOf_of_le {b : Byte} (h : b.toNat ≤ 1) :
    modeOf b = some (if b = 0 then .arrival else .rotate) := by
  rcases byte_le_one_iff.mp h with rfl | rfl <;> rfl

theorem modeOf_of_not_le {b : Byte} (h : ¬ b.toNat ≤ 1) : modeOf b = none := by
  rw [byte_le_one_iff, not_or] at h
  rw [modeOf, if_neg h.1, if_neg h.2]

/-- OK exactly where nothing was brought into range. -/
theorem okCode_eq {clamped : Bool} {P : Prop} [Decidable P] (h : clamped = true ↔ ¬ P) :
    okCode clamped = if P then .ok else .okClamped := by
  by_cases holds : P
  · rw [if_pos holds, okCode, if_neg fun c => h.mp c holds]
  · rw [if_neg holds, okCode, if_pos (h.mpr holds)]

theorem outside_iff {lo hi n : Nat} : outside lo hi n = true ↔ n < lo ∨ hi < n := by simp [outside]

theorem okCode_of_outside (lo hi n : Nat) :
    okCode (outside lo hi n) = if lo ≤ n ∧ n ≤ hi then .ok else .okClamped :=
  okCode_eq (by rw [outside_iff]; omega)

theorem okCode_of_outside_or (lo hi n lo' hi' n' : Nat) :
    okCode (outside lo hi n || outside lo' hi' n') =
      if lo ≤ n ∧ n ≤ hi ∧ lo' ≤ n' ∧ n' ≤ hi' then .ok else .okClamped :=
  okCode_eq (by rw [Bool.or_eq_true, outside_iff, outside_iff]; omega)

/-- Brought into a range from 1, only 0 being too small. -/
theorem clampNat_byte {hi : Nat} (h : 1 ≤ hi) (b : Byte) :
    clampNat 1 hi b.toNat = if b = 0 then 1 else min b.toNat hi := by
  split
  next zero => subst zero; simp [clampNat]
  next other =>
    have : b.toNat ≠ 0 := fun zero => other (BitVec.eq_of_toNat_eq zero)
    unfold clampNat
    omega

theorem clampNat_eq {lo hi : Nat} (h : lo ≤ hi) (n : Nat) :
    clampNat lo hi n = if n < lo then lo else min n hi := by
  unfold clampNat
  split <;> omega

/-- Settles O20: hold and release by what their calls come to, each policy by its block. -/
theorem holdReleaseAndPolicies : Obligations.HoldReleaseAndPolicies := by
  refine ⟨⟨fun s p hc => ?hold, fun s p hc => ?release⟩, fun s p => ⟨fun m r hc => ?mode,
    fun o hc => ?rotation, fun m hc => ?mask, fun o c hc => ?cap, fun q w hc => ?quota,
    fun v hc => ?duplicates⟩⟩
  case hold =>
    split
    next none =>
      exact ⟨_, runs_block rfl rfl hc (holdBlock_of_none none) (mapBook_touches _ _) (by decide), rfl⟩
    next e called =>
      have runs := runs_block rfl rfl hc (holdBlock_of_called called) (hold_touches _) (by decide)
      obtain ⟨book, withdrawn, queue, playback⟩ :=
        hold_called (s := s.accept p ⟨0x04, []⟩) called
      refine ⟨_, runs, book, reply_shows.mpr withdrawn, reply_shows.mpr (queue _ (by decide)),
        reply_shows.mpr (queue _ (by decide)), ?_⟩
      rw [reply_notices, playback, accept_port_notices]
  case release =>
    have runs := runs_block (v := (s.accept p ⟨0x05, []⟩).withRelease.testCall) rfl rfl hc rfl
      (release_touches _) (by decide)
    obtain ⟨order, book⟩ := testCall_book (s.accept p ⟨0x05, []⟩).withRelease
    refine ⟨_, runs, congrArg Book.held book, order, book, fun e rest i head waiting bound ready stage => ?_,
      fun idle => ?_⟩
    · have calls : (s.accept p ⟨0x05, []⟩).withRelease.Calls e rest i :=
        ⟨stage, rfl, head, waiting, bound, ready⟩
      refine ⟨congrArg Book.entries calls.testCall_book, reply_shows.mpr calls.testCall_shows_call,
        reply_shows.mpr (calls.testCall_shows_queue (by decide)),
        reply_shows.mpr (calls.testCall_shows_queue (by decide)), ?_⟩
      rw [reply_notices, testCall_playback]
      exact congrArg (fun v => Vector.get v 9) (accept_port_notices s p _ .playback)
    · have none : (s.accept p ⟨0x05, []⟩).withRelease.NoCall := by
        rcases idle with stage | empty | ⟨x, rest, head, why⟩
        · exact .inl (Option.ne_none_iff_isSome.mpr stage)
        · exact .inr (.inr fun e rest head => absurd (empty.symm.trans head) nofun)
        · refine .inr (.inr fun e rest' head' => ?_)
          obtain ⟨rfl, rfl⟩ := List.cons_eq_cons.mp (head.symm.trans head')
          exact why
      rw [none.testCall]
      refine ⟨(retitle_book _).trans rfl, ?_⟩
      exact ((accept_touches s p ⟨0x05, []⟩).mono rfl).trans (((mapBook_touches _ _).mono rfl).trans
        (((retitle_touches _).mono rfl).trans ((reply_touches _ _ _ _ _).mono rfl)))
  case mode =>
    split
    next valid =>
      refine book_runs rfl rfl hc ?_
      rw [modeOf_of_le valid.1, onOff_of_le valid.2]; rfl
    next invalid =>
      refine runs_unchanged rfl rfl hc ?_
      rcases not_and_or.mp invalid with other | other
      · rw [modeOf_of_not_le other]; rfl
      · rw [onOff_of_not_le other]; cases modeOf m <;> rfl
  case rotation =>
    split
    next valid =>
      refine book_runs rfl rfl hc ?_
      rw [originOf, dif_pos valid]; rfl
    next invalid =>
      refine runs_unchanged rfl rfl hc ?_
      rw [originOf, dif_neg invalid]; rfl
  case mask =>
    split
    next valid =>
      exact book_runs rfl rfl hc (if_pos valid)
    next invalid => exact runs_unchanged rfl rfl hc (if_neg invalid)
  case cap =>
    split
    next valid =>
      refine book_runs rfl rfl hc ?_
      rw [originOf, dif_pos valid, ← okCode_of_outside, ← clampNat_byte (by decide)]; rfl
    next invalid =>
      refine runs_unchanged rfl rfl hc ?_
      rw [originOf, dif_neg invalid]; rfl
  case quota =>
    refine book_runs rfl rfl hc ?_
    rw [← okCode_of_outside_or, ← clampNat_byte (by decide),
      ← clampNat_eq (by decide)]; rfl
  case duplicates =>
    split
    next valid =>
      refine book_runs rfl rfl hc ?_
      rw [onOff_of_le valid]; rfl
    next invalid =>
      refine runs_unchanged rfl rfl hc ?_
      rw [onOff_of_not_le invalid]; rfl

end Sys2Proof.Machine
end

section
/-! MOVE and PROMOTE (R18, R19). -/

namespace Sys2Proof.Machine

/-- An entry as the running order shows it. -/
def Entry.uncalled (e : Entry) : Entry := { e with state := .waiting }

theorem order_eq (b : Book) : b.order = b.entries.map Entry.uncalled := rfl

theorem without_order (b : Book) (n : Nat) :
    (b.without n).map Entry.uncalled = b.order.filter fun x => x.ticket ≠ n := by
  rw [order_eq, List.filter_map]; rfl

theorem roundBehind_uncalled (es : List Entry) :
    roundBehind (es.map Entry.uncalled) = roundBehind es := by
  unfold roundBehind
  rw [List.filter_map, List.getLast?_map]
  change (match ((es.filter fun e => e.tier = .normal).getLast?).map Entry.uncalled with
    | none => 1
    | some e => e.round) = _
  cases (es.filter fun e => e.tier = .normal).getLast? <;> rfl

/-- The running order after a MOVE (R18). -/
theorem movedTo_order (b : Book) (e : Entry) (x : Nat) :
    let others := b.order.filter fun y => y.ticket ≠ e.ticket
    (b.movedTo e x).map Entry.uncalled = others.take (x - 1) ++
      { e with round := roundBehind (others.take (x - 1)), moved := true, state := .waiting } ::
        others.drop (x - 1) := by
  intro others
  have order : others = (b.without e.ticket).map Entry.uncalled := (without_order b e.ticket).symm
  rw [order, Book.movedTo]
  rw [← List.map_take, ← List.map_drop, roundBehind_uncalled, List.map_append, List.map_cons]
  rfl

/-- A change of the running order that leaves the rest of the Book. -/
theorem reordered_book (s : State) (es : List Entry) :
    let u := (s.mapBook fun b => { b with entries := es }).bookChanged
    u.book.order = es.map Entry.uncalled ∧ u.book = { s.book with entries := u.book.entries } :=
  bookChanged_book (s.mapBook fun b => { b with entries := es })

theorem reordered_touches (s : State) (f : Book → Book) : Touches changePieces s (s.mapBook f).bookChanged :=
  ((mapBook_touches _ _).mono rfl).trans ((bookChanged_touches _).mono rfl)

/-- The position a MOVE of an entry that is not the CALLED head goes to (R18). -/
theorem moveTarget_eq {b : Book} {e : Entry} (mem : e ∈ b.entries) (waiting : e.state ≠ .called)
    (position : Nat) : b.moveTarget position =
      if (∃ x, b.entries.head? = some x ∧ x.state = .called) ∧ position ≤ 1 then 2
      else max 1 (min position b.entries.length) := by
  unfold Book.moveTarget clampNat
  by_cases called : ∃ x, b.entries.head? = some x ∧ x.state = .called
  · obtain ⟨x, head, state⟩ := called
    obtain ⟨rest, entries⟩ := List.head?_eq_some_iff.mp head
    have behind : e ∈ rest := by
      rw [entries] at mem
      rcases List.mem_cons.mp mem with rfl | mem
      · exact absurd state waiting
      · exact mem
    have many : 2 ≤ b.entries.length := by
      rw [entries, List.length_cons]
      exact Nat.succ_le_succ (List.length_pos_of_mem behind)
    have some_ : b.calledHead.isSome = true := calledHead_isSome_iff.mpr ⟨x, head, state⟩
    simp only [some_, Bool.true_and, decide_eq_true_eq, show (∃ x, b.entries.head? = some x ∧
      x.state = .called) from ⟨x, head, state⟩, true_and]
    split <;> split <;> omega
  · have none : b.calledHead.isSome = false := by
      rw [← Bool.not_eq_true, calledHead_isSome_iff]; exact called
    simp only [none, Bool.false_and, called, false_and, if_false, Bool.false_eq_true]

theorem moveBlock_of_waiting {s : State} {n position : Nat} {e : Entry}
    (holder : s.holder n = .entry e) (waiting : e.state ≠ .called) : moveBlock n position s =
      ⟨(s.mapBook fun b => { b with entries := b.movedTo e (s.book.moveTarget position) }).bookChanged,
        okCode (s.book.moveTarget position ≠ position), be8 (s.book.moveTarget position)⟩ := by
  rw [moveBlock, holder]
  exact if_neg waiting

theorem priorityCount_eq (b : Book) :
    b.priorityCount = (b.entries.filter fun x => x.tier = .priority).length :=
  List.countP_eq_length_filter

theorem promoteBlock_of_accepted {s : State} {n : Nat} {e : Entry} (holder : s.holder n = .entry e)
    (normal : ¬ (e.state = .called ∨ e.tier = .priority))
    (room : ¬ 4 ≤ (s.book.entries.filter fun x => x.tier = .priority).length) :
    promoteBlock n s = ⟨(s.mapBook fun b => b.promoted e).bookChanged, .ok,
      be8 ((s.book.promoted e).position e.ticket)⟩ := by
  rw [(holder_entry holder).2.1]
  have room : ¬ Config.priorityLimit ≤ s.book.priorityCount := by rwa [priorityCount_eq]
  rw [promoteBlock, holder]
  simp only
  rw [if_neg (by simpa using normal), if_neg room]
  rfl

theorem promoteBlock_of_full {s : State} {n : Nat} {e : Entry} (holder : s.holder n = .entry e)
    (normal : ¬ (e.state = .called ∨ e.tier = .priority))
    (full : 4 ≤ (s.book.entries.filter fun x => x.tier = .priority).length) :
    promoteBlock n s = ⟨s, .limit, []⟩ := by
  have full : Config.priorityLimit ≤ s.book.priorityCount := by rwa [priorityCount_eq]
  rw [promoteBlock, holder]
  simp only
  rw [if_neg (by simpa using normal), if_pos full]
  rfl

theorem promoteBlock_of_refused {s : State} {n : Nat} {e : Entry} (holder : s.holder n = .entry e)
    (refused : e.state = .called ∨ e.tier = .priority) : promoteBlock n s = ⟨s, .state, []⟩ := by
  rw [promoteBlock, holder]
  exact if_pos (by simpa using refused)

theorem moveBlock_of_called {s : State} {n position : Nat} {e : Entry}
    (holder : s.holder n = .entry e) (called : e.state = .called) :
    moveBlock n position s = ⟨s, .state, []⟩ := by
  rw [moveBlock, holder]
  exact if_pos called

theorem moveBlock_of_stage {s : State} {n : Nat} (position : Nat) (h : s.holder n = .stage) :
    moveBlock n position s = ⟨s, .state, []⟩ := by rw [moveBlock, h]; rfl

theorem moveBlock_of_nobody {s : State} {n : Nat} (position : Nat) (h : s.holder n = .nobody) :
    moveBlock n position s = ⟨s, .notFound, []⟩ := by rw [moveBlock, h]; rfl

theorem promoteBlock_of_stage {s : State} {n : Nat} (h : s.holder n = .stage) :
    promoteBlock n s = ⟨s, .state, []⟩ := by rw [promoteBlock, h]; rfl

theorem promoteBlock_of_nobody {s : State} {n : Nat} (h : s.holder n = .nobody) :
    promoteBlock n s = ⟨s, .notFound, []⟩ := by rw [promoteBlock, h]; rfl

/-- Settles O19: both by where the running order has the entry before the call that may follow, which
leaves the order. -/
theorem moveAndPromotePlaceTheEntry : Obligations.MoveAndPromotePlaceTheEntry := by
  refine ⟨fun s p t pos hc => ?move, fun s p t hc => ?promote⟩
  case move =>
    split
    next stage => exact runs_unchanged rfl rfl hc (moveBlock_of_stage _ stage)
    next nobody => exact runs_unchanged rfl rfl hc (moveBlock_of_nobody _ nobody)
    next e holder =>
      split
      next called => exact runs_unchanged rfl rfl hc (moveBlock_of_called holder called)
      next waiting =>
        intro target others ahead round
        have goal : s.book.moveTarget pos.toNat = target :=
          moveTarget_eq (holder_entry holder).1 waiting pos.toNat
        have taken := moveBlock_of_waiting (s := s.accept p ⟨0x03, be16 t.toNat ++ [pos]⟩)
          (position := pos.toNat) holder waiting
        rw [show (s.accept p ⟨0x03, be16 t.toNat ++ [pos]⟩).book.moveTarget pos.toNat = target from goal]
          at taken
        have code : okCode (target ≠ pos.toNat) = if target = pos.toNat then .ok else .okClamped :=
          okCode_eq (by rw [decide_eq_true_eq])
        rw [code] at taken
        obtain ⟨order, book⟩ := reordered_book (s.accept p ⟨0x03, be16 t.toNat ++ [pos]⟩)
          (s.book.movedTo e target)
        have behind : roundBehind ahead = round := by
          unfold roundBehind
          change (match (ahead.filter fun x => x.tier = .normal).getLast? with
            | none => 1
            | some x => x.round) = match (ahead.filter fun x => x.tier = .normal).getLast? with
            | some x => x.round
            | none => 1
          cases (ahead.filter fun x => x.tier = .normal).getLast? <;> rfl
        refine ⟨_, runs_block rfl rfl hc taken (reordered_touches _ _) (by decide), ?_, book,
          reply_shows.mpr (bookChanged_shows_queue _ _ (by decide)),
          reply_shows.mpr (bookChanged_shows_queue _ _ (by decide))⟩
        rw [← behind]
        exact order.trans (movedTo_order s.book e target)
  case promote =>
    split
    next stage => exact runs_unchanged rfl rfl hc (promoteBlock_of_stage stage)
    next nobody => exact runs_unchanged rfl rfl hc (promoteBlock_of_nobody nobody)
    next e holder =>
      split
      next refused => exact runs_unchanged rfl rfl hc (promoteBlock_of_refused holder refused)
      next normal =>
        split
        next full => exact runs_unchanged rfl rfl hc (promoteBlock_of_full holder normal full)
        next room =>
          have taken := promoteBlock_of_accepted (s := s.accept p ⟨0x06, be16 t.toNat⟩) holder normal
            room
          obtain ⟨order, book⟩ := reordered_book (s.accept p ⟨0x06, be16 t.toNat⟩)
            (s.book.promoted e).entries
          exact ⟨_, runs_block rfl rfl hc taken (reordered_touches _ _) (by decide), order, book,
            reply_shows.mpr (bookChanged_shows_queue _ _ (by decide)),
            reply_shows.mpr (bookChanged_shows_queue _ _ (by decide))⟩

end Sys2Proof.Machine
end

section
/-! The panel loop: its frames, the choice of visits, misses, and what a good reply leaves (R26 to R39). -/

namespace Sys2Proof.Machine

/-! ## Frames (R27, 12.3) -/

theorem checked_sum (body : List Byte) : (body ++ [checkByte body]).foldl (· + ·) 0 = 0 := by
  rw [List.foldl_append, List.foldl_cons, List.foldl_nil, checkByte]
  exact add_neg_cancel _

theorem verdict_payload_length (v : Verdict) : v.payload.length = 5 := by cases v <;> rfl

theorem answer_payload_length (a : Answer) : a.payload.length = 5 := by
  cases a with
  | done h => cases h <;> rfl
  | _ => rfl

/-- The bytes of a loop frame before its check byte. -/
def loopBody (address kind seq : Byte) (payload : List Byte) : List Byte :=
  [0xA5, address, kind, seq, BitVec.ofNat 8 payload.length] ++ payload

theorem loopFrame_eq (address kind seq : Byte) (payload : List Byte) : loopFrame address kind seq payload =
    loopBody address kind seq payload ++ [checkByte (loopBody address kind seq payload)] := rfl

/-- Settles O21: each frame is `loopFrame` of its payload, whose check byte makes the sum 0. -/
theorem loopSendsItsFrames : Obligations.LoopSendsItsFrames := by
  intro s p quiet address
  refine ⟨fun due => ?poll, fun seq v due => ?verdict, fun seq a due => ?answer⟩
  case poll =>
    refine ⟨_, checked_sum _, ?_⟩
    change execPoll s = _
    rw [execPoll, due]
    refine (if_pos quiet).trans ?_
    change Host.Outcome.next { s with loop := { s.loop with
      sent := pollFrame p s.loop.panels[p], exchange := .window p s.loop.replyWindow } } = _
    rw [pollFrame, loopFrame_eq]
    cases s.loop.panels[p].stored with
    | none => rfl
    | some x => simp only [BitVec.ofNat_toNat]; rfl
  case verdict =>
    refine ⟨_, checked_sum _, ?_⟩
    change execVerdict s = _
    rw [execVerdict, due]
    refine (if_pos quiet).trans ?_
    rw [loopFrame_eq, loopBody, verdict_payload_length, ← BitVec.ofNat_toNat]
    rfl
  case answer =>
    refine ⟨_, checked_sum _, ?_⟩
    change execAnswer s = _
    rw [execAnswer, due]
    refine (if_pos quiet).trans ?_
    rw [loopFrame_eq, loopBody, answer_payload_length, ← BitVec.ofNat_toNat]
    rfl

/-! ## The choice of visits (R36 to R38) -/

theorem panelNumbers_eq : panelNumbers = List.finRange 8 := by decide

/-- The panel a cycle or sweep visits next in ascending order is one of these (R36, R37). -/
def Loop.Ascending (l : Loop) (q : Fin 8) : Prop :=
  l.panels[q].enabled = true ∧ (∀ v ∈ l.visited, v < q) ∧
    (l.phase = .sweep ∨ l.panels[q].presence = .present)

/-- The panels the absent visit of a cycle may go to (R36). -/
def Loop.Absent (l : Loop) (q : Fin 8) : Prop :=
  l.panels[q].enabled = true ∧ l.panels[q].presence = .absent ∧ q ∉ l.visited

theorem nextAscending_eq_some {l : Loop} {q : Fin 8} (fits : l.Ascending q)
    (least : ∀ x, l.Ascending x → q ≤ x) : l.nextAscending = some q := by
  rw [Loop.nextAscending, panelNumbers_eq, find?_finRange_eq_some_iff]
  have fits_iff : ∀ x : Fin 8, (l.panels[x].enabled && l.above x &&
      (l.phase = .sweep || l.panels[x].presence = .present)) = true ↔ l.Ascending x := fun x => by
    simp [Loop.Ascending, Loop.above, and_assoc]
  exact ⟨(fits_iff q).mpr fits, fun j hj h => absurd (least j ((fits_iff j).mp h)) (not_le.mpr hj)⟩

theorem nextAscending_eq_none {l : Loop} (nobody : ∀ q, ¬ l.Ascending q) : l.nextAscending = none := by
  rw [Loop.nextAscending, List.find?_eq_none]
  intro q _ h
  refine nobody q ?_
  simpa [Loop.Ascending, Loop.above, and_assoc] using h

theorem absentVisit_eq_none {l : Loop} (nobody : ∀ q, ¬ l.Absent q) : l.absentVisit = none := by
  rw [Loop.absentVisit, List.find?_eq_none]
  intro q _ h
  refine nobody q ?_
  simpa [Loop.Absent, and_assoc] using h

/-- The absent visit goes to the first in cyclic order from behind the absent pointer. -/
theorem absentVisit_eq_some {l : Loop} {q : Fin 8} (fits : l.Absent q)
    (first : ∀ x, l.Absent x → (q - l.absentPointer - 1).val ≤ (x - l.absentPointer - 1).val) :
    l.absentVisit = some q := by
  have back : ∀ x : Fin 8, l.absentPointer + 1 + (x - l.absentPointer - 1) = x :=
    (by decide : ∀ a x : Fin 8, a + 1 + (x - a - 1) = x) _
  have forth : ∀ k : Fin 8, l.absentPointer + 1 + k - l.absentPointer - 1 = k :=
    (by decide : ∀ a k : Fin 8, a + 1 + k - a - 1 = k) _
  have fits_iff : ∀ x : Fin 8, (l.panels[x].enabled && l.panels[x].presence = .absent &&
      !l.visited.contains x) = true ↔ l.Absent x := fun x => by
    simp [Loop.Absent, and_assoc]
  rw [Loop.absentVisit, Loop.absentOrder, List.find?_map, panelNumbers_eq]
  have found : (List.finRange 8).find? ((fun p => l.panels[p].enabled && l.panels[p].presence = .absent &&
      !l.visited.contains p) ∘ fun p => l.absentPointer + 1 + p) = some (q - l.absentPointer - 1) := by
    rw [find?_finRange_eq_some_iff]
    refine ⟨?_, fun k hk h => ?_⟩
    · simp only [Function.comp_apply, back]
      exact (fits_iff q).mpr fits
    · have := first _ ((fits_iff _).mp h)
      rw [forth] at this
      exact absurd this (not_le.mpr hk)
  rw [found, Option.map_some, back]

/-! ## Misses and good replies (R30, R39) -/

theorem setPanel_panel (l : Loop) (p : Fin 8) (x : Panel) : (l.setPanel p x).panels[p] = x := by
  simp [Loop.setPanel]

theorem setPanel_setPanel (l : Loop) (p : Fin 8) (x y : Panel) :
    (l.setPanel p x).setPanel p y = l.setPanel p y := by
  simp [Loop.setPanel]

theorem setPresence_loop (s : State) (p : Fin 8) (x : Presence) : (s.setPresence p x).loop =
    s.loop.setPanel p { s.loop.panels[p] with presence := x } := raise_loop _ _ _

theorem setPresence_shows (s : State) (p : Fin 8) (x : Presence) {q : Port} (h : q ∈ consoleVenue) :
    (s.setPresence p x).shows q (.panelState p x) := raise_shows _ _ _ _ h

/-- A panel's record after a miss (R39). -/
def Panel.missed (x : Panel) : Panel :=
  { x with
    missRun := min 3 (x.missRun + 1)
    presence := if x.presence = .present ∧ 2 ≤ x.missRun then .absent else x.presence }

/-- A panel's record after a good reply (R30). -/
def Panel.replied (x : Panel) : Panel := { x with missRun := 0, presence := .present }

theorem miss_gone {s : State} {p : Fin 8} (gone : s.loop.panels[p].presence = .present ∧
    2 ≤ s.loop.panels[p].missRun) : s.miss p = (s.mapLoop fun l =>
      l.setPanel p { s.loop.panels[p] with missRun := bump 3 s.loop.panels[p].missRun }).setPresence p
        .absent := by
  have run : bump 3 s.loop.panels[p].missRun = 3 := by unfold bump; omega
  rw [State.miss]
  exact if_pos (by rw [run, gone.1]; rfl)

theorem miss_kept {s : State} {p : Fin 8} (kept : ¬ (s.loop.panels[p].presence = .present ∧
    2 ≤ s.loop.panels[p].missRun)) : s.miss p = s.mapLoop fun l =>
      l.setPanel p { s.loop.panels[p] with missRun := bump 3 s.loop.panels[p].missRun } := by
  rw [State.miss]
  refine if_neg fun h => kept ?_
  rw [Bool.and_eq_true, decide_eq_true_eq, decide_eq_true_eq] at h
  have run := h.2
  unfold bump at run
  exact ⟨h.1, by omega⟩

theorem miss_loop (s : State) (p : Fin 8) : (s.miss p).loop =
    s.loop.setPanel p s.loop.panels[p].missed := by
  by_cases gone : s.loop.panels[p].presence = .present ∧ 2 ≤ s.loop.panels[p].missRun
  · rw [miss_gone gone, setPresence_loop]
    change (s.loop.setPanel p _).setPanel p { (s.loop.setPanel p _).panels[p] with
      presence := .absent } = _
    rw [setPanel_panel, setPanel_setPanel, Panel.missed, if_pos gone]
    rfl
  · rw [miss_kept gone, Panel.missed, if_neg gone]
    rfl

theorem goodReply_absent {s : State} {p : Fin 8} (absent : s.loop.panels[p].presence = .absent) :
    s.goodReply p = (s.mapLoop fun l => { l.setPanel p { s.loop.panels[p] with missRun := 0 } with
      quiet := 0 }).setPresence p .present := if_pos absent

theorem goodReply_present {s : State} {p : Fin 8} (present : s.loop.panels[p].presence = .present) :
    s.goodReply p = s.mapLoop fun l => { l.setPanel p { s.loop.panels[p] with missRun := 0 } with
      quiet := 0 } := if_neg (by rw [present]; decide)

theorem goodReply_loop (s : State) (p : Fin 8) : (s.goodReply p).loop =
    { s.loop.setPanel p s.loop.panels[p].replied with quiet := 0 } := by
  cases h : s.loop.panels[p].presence with
  | absent =>
    rw [goodReply_absent h, setPresence_loop]
    change { (s.loop.setPanel p _).setPanel p { (s.loop.setPanel p _).panels[p] with
      presence := .present } with quiet := 0 } = _
    rw [setPanel_panel, setPanel_setPanel]
    rfl
  | present =>
    rw [goodReply_present h, Panel.replied, ← h]
    rfl

theorem goodReply_shows {s : State} {p : Fin 8} (absent : s.loop.panels[p].presence = .absent)
    {q : Port} (h : q ∈ consoleVenue) : (s.goodReply p).shows q (.panelState p .present) := by
  rw [goodReply_absent absent]
  exact setPresence_shows _ _ _ h

theorem goodReply_loop_touches {s : State} {p : Fin 8} (present : s.loop.panels[p].presence = .present) :
    Touches [.loop] s (s.goodReply p) := by
  rw [goodReply_present present]
  exact mapLoop_touches _ _

/-- Settles O22: a miss by `miss_loop`, the choice by what each search finds. -/
theorem missesAndVisits : Obligations.MissesAndVisits := by
  refine ⟨fun s p i due => ?miss, fun l last => ?last, fun l last => ?choice,
    fun s phase left => ?gap⟩
  case miss =>
    intro old gone new
    have run : exec i s = .next (s.miss p).endExchange := by
      rcases due with ⟨rfl, window⟩ | ⟨rfl, ignoring, quiet⟩
      · change Host.Outcome.next s.endWindow = _
        rw [State.endWindow, window]
        rfl
      · change Host.Outcome.next s.endBadReply = _
        rw [State.endBadReply, ignoring]
        exact congrArg Host.Outcome.next (if_pos quiet)
    have ended : Touches [.loop] (s.miss p) (s.miss p).endExchange := endExchange_touches _
    refine ⟨_, run, (miss_touches s p).trans (ended.mono rfl), congrArg Loop.chooseNext (miss_loop s p),
      fun isGone => ?_, fun kept => ?_⟩
    · have shown : ∀ q ∈ consoleVenue, (s.miss p).endExchange.shows q (.panelState p .absent) :=
        fun q hq => by
          refine (keeps_touches (c := 13) ended (by decide)).shows rfl ?_
          rw [miss_gone isGone]
          exact setPresence_shows _ _ _ hq
      exact ⟨shown _ (by decide), shown _ (by decide)⟩
    · refine Touches.trans ?_ ended
      rw [miss_kept kept]
      exact mapLoop_touches _ _
  case last =>
    rw [Loop.chooseNext, if_pos last]
    exact ⟨rfl, rfl, rfl⟩
  case choice =>
    intro ascending absent after
    have more : ¬ l.lastVisit = true := by rw [last]; decide
    refine ⟨fun q fits least => ?_, fun none q fits first => ?_, fun none no_absent => ?_⟩
    · rw [Loop.chooseNext, if_neg more, nextAscending_eq_some fits least]
      rfl
    · rw [Loop.chooseNext, if_neg more, nextAscending_eq_none none]
      simp only
      rw [if_neg fits.1, absentVisit_eq_some fits.2 fun x hx => first x ⟨fits.1, hx⟩]
      rfl
    · have rest : l.toGap = { l with phase := .gap, exchange := .none, visited := []
                                     gapLeft := l.cycleGap } := by rw [Loop.toGap, ← last]
      rw [Loop.chooseNext, if_neg more, nextAscending_eq_none none]
      simp only
      split
      next => exact rest
      next cycle =>
        rw [absentVisit_eq_none fun x hx => no_absent x ⟨cycle, hx⟩]
        exact rest
  case gap =>
    change Host.Outcome.next s.endGap = _
    rw [State.endGap, if_pos (by rw [phase, left]; rfl)]
    rfl

end Sys2Proof.Machine
end

section
/-! What an entry's removal leaves of Book, slots and notices (R16, R20, R21, R80). -/

namespace Sys2Proof.Machine

/-! ## A slot through a change of the Book -/

theorem changed_slot {s : State} {i : Fin 4} (busy : s.slots[i].state ≠ .free)
    (near : ∀ e ∈ s.book.entries.tail, s.slots[i].ticket ≠ some e.ticket) :
    s.changed.slots[i] = s.slots[i] := by
  have slots := raise_slots s consoleVenue (.queueChanged s.book.entries.length)
  rw [State.changed, pass_slot]
  · rw [slots]
  · rwa [slots]
  · rwa [slots, raise_book]

theorem changed_slot_cases (s : State) (i : Fin 4) : s.changed.slots[i] = s.slots[i] ∨
    s.changed.slots[i].state = .reserved ∨ s.changed.slots[i].state = .scrub := by
  have cases := pass_slot_cases (s.raise consoleVenue (.queueChanged s.book.entries.length)) i
  rwa [raise_slots] at cases

theorem boundSlot_congr {s t : State} (h : t.slots = s.slots) (n : Nat) :
    t.boundSlot n = s.boundSlot n := by
  unfold State.boundSlot; rw [h]

theorem changed_boundSlot {s : State} {e : Entry} {rest : List Entry} {i : Fin 4}
    (head : s.book.entries = e :: rest) (others : ∀ x ∈ rest, x.ticket ≠ e.ticket)
    (bound : s.boundSlot e.ticket = some i) (busy : s.slots[i].state ≠ .free) :
    s.changed.boundSlot e.ticket = some i := by
  have slots := raise_slots s consoleVenue (.queueChanged s.book.entries.length)
  refine pass_boundSlot ?_ others ?_ ?_
  · rwa [raise_book]
  · rwa [boundSlot_congr slots]
  · rwa [slots]

theorem retitle_slots (s : State) : s.retitle.slots = s.slots := retitle_touches s .slots (by decide)

theorem testCall_slot {s : State} {i : Fin 4} (busy : s.slots[i].state ≠ .free)
    (near : ∀ e ∈ s.book.entries.tail, s.slots[i].ticket ≠ some e.ticket) :
    s.testCall.slots[i] = s.slots[i] := by
  unfold State.testCall
  split
  next t call =>
    obtain ⟨e, rest, j, -, -, head, -, -, -, rfl⟩ := callHead_cases call
    rw [head] at near
    rw [retitle_slots, changed_slot]
    · rw [raise_slots]
    · rwa [raise_slots]
    · rwa [raise_slots, raise_book]
  next => rw [retitle_slots]

theorem bookChanged_slot {s : State} {i : Fin 4} (busy : s.slots[i].state ≠ .free)
    (near : ∀ e ∈ s.book.entries.tail, s.slots[i].ticket ≠ some e.ticket) :
    s.bookChanged.slots[i] = s.slots[i] := by
  have kept := changed_slot busy near
  rw [State.bookChanged, testCall_slot, kept]
  · rwa [kept]
  · rwa [kept, changed_book]

/-! ## The slot of a ticket scrubbed -/

theorem scrubBound_of_bound {s : State} {n : Nat} {i : Fin 4} (h : s.boundSlot n = some i) :
    s.scrubBound n = s.scrubSlot i := by rw [State.scrubBound, h]

theorem scrubBound_slot_cases (s : State) (n : Nat) (i : Fin 4) :
    (s.scrubBound n).slots[i] = s.slots[i] ∨ (s.scrubBound n).slots[i].state = .scrub := by
  unfold State.scrubBound
  split
  next j bound =>
    rw [State.scrubSlot, setSlot_slot]
    split
    · exact .inr rfl
    · exact .inl rfl
  next => exact .inl rfl

theorem scrubBound_slot_other {s : State} {n : Nat} {i : Fin 4} (h : s.boundSlot n ≠ some i) :
    (s.scrubBound n).slots[i] = s.slots[i] := by
  unfold State.scrubBound
  split
  next j bound =>
    rw [State.scrubSlot, setSlot_slot_other]
    rintro rfl
    exact h bound
  next => rfl

/-- Another ticket's slot is found as before. -/
theorem scrubBound_boundSlot (s : State) {n m : Nat} (other : m ≠ n) :
    (s.scrubBound n).boundSlot m = s.boundSlot m := by
  unfold State.scrubBound
  split
  next j bound =>
    refine List.find?_congr fun k _ => ?_
    rw [State.scrubSlot, setSlot_slot]
    split
    next same =>
      subst same
      rw [boundSlot_some bound]
      simp [Slot.toScrub, other.symm]
    next => rfl
  next => rfl

/-! ## The removal -/

/-- The Book without an entry, its slot scrubbed and its call withdrawn, before what the change sets
off (R16). -/
def State.withCancelled (s : State) (e : Entry) : State :=
  let t := (s.withdrawCall e).scrubBound e.ticket
  { t with book := { t.book with entries := t.book.without e.ticket } }

theorem cancelEntry_eq (s : State) (e : Entry) : s.cancelEntry e = (s.withCancelled e).bookChanged := rfl

theorem withCancelled_book (s : State) (e : Entry) :
    (s.withCancelled e).book = { s.book with entries := s.book.without e.ticket } := by
  have book : ((s.withdrawCall e).scrubBound e.ticket).book = s.book :=
    (scrubBound_touches _ _ .book (by decide)).trans (withdrawCall_touches s e .book (by decide))
  rw [State.withCancelled]
  simp only
  rw [book]

theorem withCancelled_turn (s : State) (e : Entry) : (s.withCancelled e).turn = s.turn :=
  (scrubBound_touches _ _ .turn (by decide)).trans (withdrawCall_touches s e .turn (by decide))

theorem withdrawCall_slots (s : State) (e : Entry) : (s.withdrawCall e).slots = s.slots :=
  withdrawCall_touches s e .slots (by decide)

theorem withCancelled_slot {s : State} {e : Entry} {i : Fin 4} (h : s.boundSlot e.ticket = some i) :
    (s.withCancelled e).slots[i] = s.slots[i].toScrub := by
  have slots := withdrawCall_slots s e
  change ((s.withdrawCall e).scrubBound e.ticket).slots[i] = _
  rw [scrubBound_of_bound ((boundSlot_congr slots _).trans h), State.scrubSlot, setSlot_slot_same, slots]

theorem withCancelled_slot_cases (s : State) (e : Entry) (i : Fin 4) :
    (s.withCancelled e).slots[i] = s.slots[i] ∨ (s.withCancelled e).slots[i].state = .scrub := by
  have cases := scrubBound_slot_cases (s.withdrawCall e) e.ticket i
  rwa [withdrawCall_slots] at cases

theorem withCancelled_slot_other {s : State} {e : Entry} {i : Fin 4} (h : s.boundSlot e.ticket ≠ some i) :
    (s.withCancelled e).slots[i] = s.slots[i] := by
  have slots := withdrawCall_slots s e
  refine (scrubBound_slot_other (s := s.withdrawCall e) ?_).trans (by rw [slots])
  rwa [boundSlot_congr slots]

theorem withCancelled_boundSlot {s : State} {e : Entry} {n : Nat} (other : n ≠ e.ticket) :
    (s.withCancelled e).boundSlot n = s.boundSlot n :=
  (scrubBound_boundSlot _ other).trans (boundSlot_congr (withdrawCall_slots s e) n)

theorem withCancelled_keeps {s : State} {e : Entry} {c : Fin 16} (h : c ≠ 2) :
    Keeps c s (s.withCancelled e) := by
  have withdrawn : Keeps c s (s.withdrawCall e) := by
    unfold State.withdrawCall
    split
    · exact keeps_raise _ _ _ h
    · exact Keeps.refl _
  have removed : Touches [.slots, .book] (s.withdrawCall e) (s.withCancelled e) :=
    ((scrubBound_touches _ _).mono rfl).trans ((book_touches _ _).mono rfl)
  exact withdrawn.trans (keeps_touches removed (by decide))

/-- What a cancelled entry leaves (R16, R20, R21). -/
structure State.Cancelled (s u : State) (e : Entry) : Prop where
  order : u.book.order = s.book.order.filter fun x => x.ticket ≠ e.ticket
  book : u.book = { s.book with entries := u.book.entries }
  slot : ∀ i, s.boundSlot e.ticket = some i → u.slots[i].state = .scrub ∧ u.slots[i].ticket = none
  withdrawn : e.state = .called → u.shows .playback (.callWithdrawn e.ticket)
  queue : ∀ p ∈ consoleVenue, u.shows p (.queueChanged u.book.entries.length)
  calls : s.ticketsDistinct → ∀ head behind i, s.book.without e.ticket = head :: behind →
    head.state = .waiting → s.turn = none → s.book.held = false → s.boundSlot head.ticket = some i →
    s.slots[i].state = .ready → u.book.entries = { head with state := .called } :: behind ∧
      u.slots[i] = s.slots[i] ∧ u.shows .playback (.call head.ticket i)
  idle : s.turn ≠ none ∨ s.book.held = true ∨ s.book.without e.ticket = [] ∨
    (∃ head behind, s.book.without e.ticket = head :: behind ∧ (head.state = .called ∨
      ∀ i : Fin 4, s.slots[i].ticket = some head.ticket → s.slots[i].state ≠ .ready)) →
    u.book.entries = s.book.without e.ticket ∧ ∀ q : Port,
      (u.port q).notices[(1 : Fin 16)] = (s.port q).notices[(1 : Fin 16)]

theorem withCancelled_calls {s : State} {e head : Entry} {behind : List Entry} {i : Fin 4}
    (distinct : s.ticketsDistinct) (entries : s.book.without e.ticket = head :: behind)
    (waiting : head.state = .waiting) (stage : s.turn = none) (free : s.book.held = false)
    (bound : s.boundSlot head.ticket = some i) (ready : s.slots[i].state = .ready) :
    (s.withCancelled e).changed.Calls head behind i ∧
      (s.withCancelled e).changed.slots[i] = s.slots[i] ∧
      ∀ x ∈ behind, s.slots[i].ticket ≠ some x.ticket := by
  have book := withCancelled_book s e
  have other : head.ticket ≠ e.ticket := by
    have mem : head ∈ s.book.without e.ticket := entries ▸ List.mem_cons_self
    simpa using (List.mem_filter.mp mem).2
  have apart : ∀ x ∈ behind, x.ticket ≠ head.ticket := by
    have nodup : ((s.book.without e.ticket).map (·.ticket)).Nodup :=
      distinct.2.1.sublist (List.filter_sublist.map _)
    rw [entries, List.map_cons, List.nodup_cons] at nodup
    exact fun x hx same => nodup.1 (same ▸ List.mem_map_of_mem hx)
  have near : ∀ x ∈ behind, s.slots[i].ticket ≠ some x.ticket := fun x hx same => by
    rw [boundSlot_some bound] at same
    exact apart x hx (Option.some.inj same).symm
  have slot : (s.withCancelled e).slots[i] = s.slots[i] := by
    refine withCancelled_slot_other fun same => other (Option.some.inj ?_)
    rw [← boundSlot_some bound, boundSlot_some same]
  have kept : (s.withCancelled e).changed.slots[i] = s.slots[i] := by
    rw [changed_slot, slot]
    · rw [slot, ready]; exact nofun
    · rw [slot, book, entries]; exact near
  refine ⟨⟨?_, ?_, ?_, waiting, ?_, kept ▸ ready⟩, kept, near⟩
  · rw [changed_touches _ .turn (by decide), withCancelled_turn, stage]
  · rw [changed_book, book]; exact free
  · rw [changed_book, book]; exact entries
  · refine changed_boundSlot (by rw [book]; exact entries) apart
      ((withCancelled_boundSlot other).trans bound) ?_
    rw [slot, ready]; exact nofun

theorem withCancelled_noCall {s : State} {e : Entry}
    (idle : s.turn ≠ none ∨ s.book.held = true ∨ s.book.without e.ticket = [] ∨
      ∃ head behind, s.book.without e.ticket = head :: behind ∧ (head.state = .called ∨
        ∀ i : Fin 4, s.slots[i].ticket = some head.ticket → s.slots[i].state ≠ .ready)) :
    (s.withCancelled e).changed.NoCall := by
  have book : (s.withCancelled e).changed.book = { s.book with entries := s.book.without e.ticket } := by
    rw [changed_book, withCancelled_book]
  rcases idle with stage | held | empty | ⟨head, behind, entries, why⟩
  · refine .inl ?_
    rwa [changed_touches _ .turn (by decide), withCancelled_turn]
  · exact .inr (.inl (by rw [book]; exact held))
  · refine .inr (.inr fun x rest head => ?_)
    rw [book] at head
    exact absurd (empty.symm.trans head) nofun
  · refine .inr (.inr fun x rest head' => ?_)
    rw [book] at head'
    obtain ⟨rfl, rfl⟩ := List.cons_eq_cons.mp (entries.symm.trans head')
    refine why.imp_right fun busy j bound ready => ?_
    have ticket := boundSlot_some bound
    rcases changed_slot_cases (s.withCancelled e) j with same | reserved | scrub
    · rcases withCancelled_slot_cases s e j with same' | scrub
      · rw [same, same'] at ready ticket
        exact busy j ticket ready
      · rw [same, scrub] at ready; cases ready
    · rw [reserved] at ready; cases ready
    · rw [scrub] at ready; cases ready

theorem cancelEntry_cancelled (s : State) (e : Entry) : s.Cancelled (s.cancelEntry e) e := by
  have book := withCancelled_book s e
  obtain ⟨order, rest⟩ := bookChanged_book (s.withCancelled e)
  rw [cancelEntry_eq]
  constructor
  case order =>
    rw [order, book, order_eq]
    exact without_order s.book e.ticket
  case book =>
    rw [book] at rest
    exact rest
  case slot =>
    intro i bound
    have scrubbed := withCancelled_slot bound
    rw [bookChanged_slot, scrubbed]
    · exact ⟨rfl, rfl⟩
    · rw [scrubbed]; exact nofun
    · rw [scrubbed]; exact fun _ _ => nofun
  case withdrawn =>
    intro called
    refine (keeps_bookChanged (c := 2) (by decide) (by decide) (by decide) _).shows rfl ?_
    have removed : Touches [.slots, .book] (s.withdrawCall e) (s.withCancelled e) :=
      ((scrubBound_touches _ _).mono rfl).trans ((book_touches _ _).mono rfl)
    refine (keeps_touches (c := 2) removed (by decide)).shows rfl ?_
    rw [State.withdrawCall, if_pos called]
    exact raise_shows _ _ _ _ (.head _)
  case queue => exact fun p hp => bookChanged_shows_queue _ p hp
  case calls =>
    intro distinct head behind i entries waiting stage free bound ready
    obtain ⟨calls, kept, near⟩ :=
      withCancelled_calls (e := e) distinct entries waiting stage free bound ready
    refine ⟨congrArg Book.entries calls.testCall_book, ?_, calls.testCall_shows_call⟩
    rw [State.bookChanged, testCall_slot, kept]
    · rw [kept, ready]; exact nofun
    · rw [kept, calls.head]; exact near
  case idle =>
    intro idle
    have calls_none := withCancelled_noCall idle
    rw [State.bookChanged, calls_none.testCall]
    refine ⟨?_, fun q => ?_⟩
    · rw [retitle_book, changed_book, book]
    · rw [keeps_touches (c := 1) (retitle_touches _) (by decide) q,
        keeps_changed (c := 1) (by decide) (by decide) _ q, withCancelled_keeps (c := 1) (by decide) q]

end Sys2Proof.Machine
end

section
/-! Good replies, and CANCEL from a port and from a panel (R16, R17, R30 to R35). -/

namespace Sys2Proof.Machine

/-! ## A panel's frame acted on -/

theorem goodReply_keeps {c : Fin 16} (h : c ≠ 13) (s : State) (p : Fin 8) : Keeps c s (s.goodReply p) := by
  unfold State.goodReply
  simp only
  split
  · exact (keeps_touches (mapLoop_touches _ _) (by decide)).trans
      ((keeps_touches (mapLoop_touches _ _) (by decide)).trans (keeps_raise _ _ _ h))
  · exact keeps_touches (mapLoop_touches _ _) (by decide)

theorem adjudicate_of_new {s : State} {p : Fin 8} {seq : BitVec 4} (new : s.repeated p seq = none)
    (decision : State → State × Verdict) : s.adjudicate p seq decision =
      ((decision s).1.storeVerdict p seq (decision s).2).owe p seq (decision s).2 := by
  rw [State.adjudicate, new]

theorem adjudicate_of_repeat {s : State} {p : Fin 8} {seq : BitVec 4} {v : Verdict}
    (repeated : s.repeated p seq = some v) (decision : State → State × Verdict) :
    s.adjudicate p seq decision = s.owe p seq v := by
  rw [State.adjudicate, repeated]

theorem owed_touches (s : State) (p : Fin 8) (seq : BitVec 4) (v : Verdict) :
    Touches [.loop] s ((s.storeVerdict p seq v).owe p seq v) :=
  (mapLoop_touches _ _).trans (mapLoop_touches _ _)

/-- The loop after a new request or cancel that the Book has decided without touching the loop. -/
theorem owed_loop {s t : State} {p : Fin 8} (loop : t.loop = (s.goodReply p).loop) (seq : BitVec 4)
    (v : Verdict) : ((t.storeVerdict p seq v).owe p seq v).loop =
      { s.loop.setPanel p { s.loop.panels[p] with
          missRun := 0, presence := .present, stored := some (seq, v) } with
        quiet := 0, exchange := .toVerdict p seq v } := by
  change { t.loop.setPanel p { t.loop.panels[p] with stored := some (seq, v) } with
    exchange := .toVerdict p seq v } = _
  rw [loop, goodReply_loop]
  change { ({ s.loop.setPanel p s.loop.panels[p].replied with quiet := 0 } : Loop).setPanel p
    { (s.loop.setPanel p s.loop.panels[p].replied).panels[p] with stored := some (seq, v) } with
    exchange := .toVerdict p seq v } = _
  rw [setPanel_panel]
  change { (s.loop.setPanel p s.loop.panels[p].replied).setPanel p _ with
    quiet := 0, exchange := .toVerdict p seq v } = _
  rw [setPanel_setPanel]
  rfl

theorem repeated_of_stored {s : State} {p : Fin 8} {seq : BitVec 4} {v : Verdict}
    (stored : s.loop.panels[p].stored = some (seq, v)) : s.repeated p seq = some v := by
  rw [State.repeated, stored]
  exact if_pos rfl

theorem exec_panelCancel {s : State} {p : Fin 8} {seq : Byte} {n : BitVec 16}
    (due : s.replyDue p (replyFrame p 0x12 seq (be16 n.toNat)) = true) :
    exec (.panelCancel p seq n) s =
      .next ((s.goodReply p).adjudicate p (seqOf seq) fun t => t.cancelForPanel p n.toNat) := if_pos due

/-! ## WHERE (R33) -/

theorem position_ne_zero_iff {b : Book} {n : Nat} : b.position n ≠ 0 ↔ b.holds n = true := by
  rw [holds_iff, Book.position]
  split
  next none =>
    rw [List.findIdx?_eq_none_iff] at none
    simpa using none
  next i found =>
    obtain ⟨h, holds, -⟩ := List.findIdx?_eq_some_iff_getElem.mp found
    exact iff_of_true (Nat.succ_ne_zero _) ⟨_, List.getElem_mem h, by simpa using holds⟩

theorem whereIs_congr {s t : State} (book : t.book = s.book) (turn : t.turn = s.turn)
    (ring : t.ring = s.ring) (n : Nat) : t.whereIs n = s.whereIs n := by
  unfold State.whereIs State.onStage; rw [book, turn, ring]

/-- Settles O24: IDLE and WHERE by what a good reply leaves; a repeat is owed what is stored. -/
theorem goodRepliesAreActedOn : Obligations.GoodRepliesAreActedOn := by
  refine ⟨fun s p seq => ?single, fun s p seq v i stored due => ?repeated⟩
  case single =>
    intro panel loop
    have shown : ∀ u, Touches [.loop] (s.goodReply p) u → s.loop.panels[p].presence = .absent →
        u.shows .console (.panelState p .present) ∧ u.shows .venue (.panelState p .present) :=
      fun u touches absent =>
        ⟨(keeps_touches (c := 13) touches (by decide)).shows rfl (goodReply_shows absent (by decide)),
          (keeps_touches (c := 13) touches (by decide)).shows rfl (goodReply_shows absent (by decide))⟩
    refine ⟨fun due => ?idle, fun t due => ?_⟩
    case idle =>
      have ended : Touches [.loop] (s.goodReply p) (s.goodReply p).endExchange := endExchange_touches _
      exact ⟨_, if_pos due, (goodReply_touches s p).trans (ended.mono rfl),
        congrArg Loop.chooseNext (goodReply_loop s p), shown _ ended,
        fun present => (goodReply_loop_touches present).trans ended⟩
    intro answer
    have told : (s.goodReply p).whereIs t.toNat = answer := by
      rw [whereIs_congr (goodReply_book s p) (goodReply_turn s p)
        (goodReply_touches s p .ring (by decide)), State.whereIs]
      simp only [← position_ne_zero_iff]
      have zero : t.toNat = 0 ↔ t = 0 := by bv_omega
      simp only [zero]
      rfl
    have owed : Touches [.loop] (s.goodReply p) ((s.goodReply p).mapLoop fun l =>
        { l with exchange := .toAnswer p (seqOf seq) ((s.goodReply p).whereIs t.toNat) }) :=
      mapLoop_touches _ _
    refine ⟨_, if_pos due, (goodReply_touches s p).trans (owed.mono rfl), ?_, shown _ owed,
      fun present => (goodReply_loop_touches present).trans owed⟩
    change { (s.goodReply p).loop with
      exchange := .toAnswer p (seqOf seq) ((s.goodReply p).whereIs t.toNat) } = _
    rw [told, goodReply_loop]
    rfl
  case repeated =>
    have again : (s.goodReply p).repeated p (seqOf seq) = some v :=
      (goodReply_repeated s p _).trans (repeated_of_stored stored)
    have run : exec i s = .next ((s.goodReply p).owe p (seqOf seq) v) := by
      rcases due with ⟨song, tag, rfl, due⟩ | ⟨t, rfl, due⟩
      · rw [exec_request_of_replyDue due, adjudicate_of_repeat again]
      · rw [exec_panelCancel due, adjudicate_of_repeat again]
    refine ⟨_, run, (goodReply_touches s p).trans ((mapLoop_touches _ _).mono rfl), ?_⟩
    change { (s.goodReply p).loop with exchange := .toVerdict p (seqOf seq) v } = _
    rw [goodReply_loop]
    rfl

/-! ## CANCEL (R16, R17) -/

theorem cancelBlock_of_stage {s : State} {n : Nat} (h : s.holder n = .stage) :
    cancelBlock n s = ⟨s, .state, []⟩ := by rw [cancelBlock, h]; rfl

theorem cancelBlock_of_nobody {s : State} {n : Nat} (h : s.holder n = .nobody) :
    cancelBlock n s = ⟨s, .notFound, []⟩ := by rw [cancelBlock, h]; rfl

theorem cancelBlock_of_entry {s : State} {n : Nat} {e : Entry} (h : s.holder n = .entry e) :
    cancelBlock n s = ⟨s.cancelEntry e, .ok, []⟩ := by rw [cancelBlock, h]; rfl

theorem cancelEntry_touches' (s : State) (e : Entry) : Touches changePieces s (s.cancelEntry e) :=
  (cancelEntry_touches s e).mono rfl

/-- What a cancel leaves, told of states that agree in what it is about. -/
theorem State.Cancelled.congr {s s' u u' : State} {e : Entry} (h : s.Cancelled u e)
    (book : s.book = s'.book) (turn : s.turn = s'.turn) (slots : s.slots = s'.slots)
    (calls : Keeps 1 s' s) (book' : u'.book = u.book) (slots' : u'.slots = u.slots)
    (notices : ∀ q, (u'.port q).notices = (u.port q).notices) : s'.Cancelled u' e := by
  have shows : ∀ {q n}, u.shows q n → u'.shows q n := fun {q n} h => by
    rw [State.shows, notices]; exact h
  have bound : ∀ n, s'.boundSlot n = s.boundSlot n := boundSlot_congr slots.symm
  constructor
  case order => rw [book', ← book]; exact h.order
  case book => rw [book', ← book]; exact h.book
  case slot => rw [slots']; intro i hi; exact h.slot i ((bound _).symm.trans hi)
  case withdrawn => exact fun called => shows (h.withdrawn called)
  case queue => rw [book']; exact fun p hp => shows (h.queue p hp)
  case calls =>
    intro distinct head behind i entries waiting stage free hi ready
    rw [book', slots', ← slots]
    rw [← book] at entries free
    rw [← slots] at ready
    have := h.calls (ticketsDistinct_dependsOn s' s (fun k hk => ?_) distinct) head behind i entries
      waiting (turn.trans stage) free ((bound _).symm.trans hi) ready
    · exact ⟨this.1, this.2.1, shows this.2.2⟩
    · simp only [List.mem_cons, List.not_mem_nil, or_false] at hk
      rcases hk with rfl | rfl
      · exact book
      · exact turn
  case idle =>
    intro idle
    rw [← book, ← turn, ← slots] at idle
    obtain ⟨entries, kept⟩ := h.idle idle
    rw [book', ← book]
    exact ⟨entries, fun q => by rw [notices, kept q, calls q]⟩

/-- What the Book answers to a panel's CANCEL (R17). -/
def State.cancelVerdict (s : State) (p : Fin 8) (n : Nat) : Verdict :=
  match s.holder n with
  | .stage => .onStage
  | .nobody => .unknown
  | .entry e => if e.origin = p.val then .cancelled else .notYours

theorem cancelForPanel_verdict (s : State) (p : Fin 8) (n : Nat) :
    (s.cancelForPanel p n).2 = s.cancelVerdict p n := by
  unfold State.cancelForPanel State.cancelVerdict
  cases s.holder n with
  | entry e => by_cases own : e.origin = p.val <;> simp only [own, if_true, if_false]
  | _ => rfl

theorem cancelForPanel_own {s : State} {p : Fin 8} {n : Nat} {e : Entry} (holder : s.holder n = .entry e)
    (own : e.origin = p.val) : (s.cancelForPanel p n).1 = s.cancelEntry e := by
  rw [State.cancelForPanel, holder]
  simp only
  rw [if_pos own]

theorem cancelForPanel_other {s : State} {p : Fin 8} {n : Nat} (other : s.cancelVerdict p n ≠ .cancelled) :
    (s.cancelForPanel p n).1 = s := by
  unfold State.cancelVerdict at other
  unfold State.cancelForPanel
  split
  · rfl
  · rfl
  next e holder =>
    rw [holder] at other
    split
    next own => exact absurd (if_pos own) other
    next => rfl

theorem holder_congr {s t : State} (book : t.book = s.book) (turn : t.turn = s.turn) (n : Nat) :
    t.holder n = s.holder n := by
  unfold State.holder State.onStage; rw [book, turn]

theorem cancelVerdict_congr {s t : State} {n : Nat} (h : t.holder n = s.holder n) (p : Fin 8) :
    t.cancelVerdict p n = s.cancelVerdict p n := by
  unfold State.cancelVerdict; rw [h]

theorem keeps_cancelEntry {c : Fin 16} (h1 : c ≠ 1) (h2 : c ≠ 2) (h4 : c ≠ 4) (h9 : c ≠ 9) (s : State)
    (e : Entry) : Keeps c s (s.cancelEntry e) :=
  (withCancelled_keeps h2).trans (keeps_bookChanged h4 h9 h1 _)

theorem cancelForPanel_touches' (s : State) (p : Fin 8) (n : Nat) :
    Touches changePieces s (s.cancelForPanel p n).1 := by
  unfold State.cancelForPanel
  split
  · exact .refl _ _
  · exact .refl _ _
  · split
    · exact cancelEntry_touches' _ _
    · exact .refl _ _

theorem keeps_cancelForPanel {c : Fin 16} (h1 : c ≠ 1) (h2 : c ≠ 2) (h4 : c ≠ 4) (h9 : c ≠ 9) (s : State)
    (p : Fin 8) (n : Nat) : Keeps c s (s.cancelForPanel p n).1 := by
  unfold State.cancelForPanel
  split
  · exact .refl _
  · exact .refl _
  · split
    · exact keeps_cancelEntry h1 h2 h4 h9 _ _
    · exact .refl _

/-- Settles O18: both commands come to `cancelEntry`, of which `cancelEntry_cancelled` says what it
leaves. -/
theorem cancelRemovesTheEntry : Obligations.CancelRemovesTheEntry := by
  unfold Obligations.CancelRemovesTheEntry
  intro cancelled
  have spread : ∀ {s u e}, s.Cancelled u e → cancelled s u e := fun h =>
    ⟨h.order, h.book, h.slot, h.withdrawn, h.queue _ (by decide), h.queue _ (by decide),
      fun distinct => ⟨h.calls distinct, h.idle⟩⟩
  refine ⟨fun s p t hc => ?port, fun s p seq t due new => ?panel⟩
  case port =>
    split
    next stage => exact runs_unchanged rfl rfl hc (cancelBlock_of_stage stage)
    next nobody => exact runs_unchanged rfl rfl hc (cancelBlock_of_nobody nobody)
    next e holder =>
      refine ⟨_, runs_block rfl rfl hc (cancelBlock_of_entry holder) (cancelEntry_touches' _ _)
        (by decide), spread ?_⟩
      exact (cancelEntry_cancelled (s.accept p ⟨0x02, be16 t.toNat⟩) e).congr rfl rfl rfl
        (fun q => by rw [accept_port_notices]) rfl rfl (reply_notices _ _ _ _ _)
  case panel =>
    intro verdict
    have holder : ∀ n, (s.goodReply p).holder n = s.holder n :=
      holder_congr (goodReply_book s p) (goodReply_turn s p)
    have decided : ((s.goodReply p).cancelForPanel p t.toNat).2 = verdict :=
      (cancelForPanel_verdict _ _ _).trans (cancelVerdict_congr (holder _) p)
    have run := (exec_panelCancel due).trans (congrArg Host.Outcome.next (adjudicate_of_new
      (decision := fun u => u.cancelForPanel p t.toNat) ((goodReply_repeated s p _).trans new)))
    rw [decided] at run
    have decision := cancelForPanel_touches' (s.goodReply p) p t.toNat
    have owed := owed_touches ((s.goodReply p).cancelForPanel p t.toNat).1 p (seqOf seq) verdict
    refine ⟨_, run, ?_, owed_loop (decision .loop (by decide)) _ _, fun absent => ?_,
      fun e held own => ?_, fun other => ?_⟩
    · exact ((goodReply_touches s p).mono rfl).trans ((decision.mono rfl).trans (owed.mono rfl))
    · have shown : ∀ q ∈ consoleVenue, ((((s.goodReply p).cancelForPanel p t.toNat).1.storeVerdict p
          (seqOf seq) verdict).owe p (seqOf seq) verdict).shows q (.panelState p .present) := fun q hq =>
        ((keeps_cancelForPanel (c := 13) (by decide) (by decide) (by decide) (by decide) _ p _).trans
          (keeps_touches owed (by decide))).shows rfl (goodReply_shows absent hq)
      exact ⟨shown _ (by decide), shown _ (by decide)⟩
    · have entry := cancelForPanel_own ((holder t.toNat).trans held) own
      refine spread ((cancelEntry_cancelled (s.goodReply p) e).congr (goodReply_book s p)
        (goodReply_turn s p) (goodReply_touches s p .slots (by decide))
        (goodReply_keeps (by decide) s p) ?_ ?_ ?_)
      · rw [← entry]; exact owed .book (by decide)
      · rw [← entry]; exact owed .slots (by decide)
      · rw [← entry]; exact owed .notices (by decide)
    · have kept : ((s.goodReply p).cancelForPanel p t.toNat).1 = s.goodReply p :=
        cancelForPanel_other (by rw [← cancelForPanel_verdict, decided]; exact other)
      rw [kept] at owed ⊢
      exact ⟨(goodReply_touches s p).trans (owed.mono rfl),
        fun present => (goodReply_loop_touches present).trans owed⟩

end Sys2Proof.Machine
end

section
/-! The checks of a request and its acceptance (R10 to R15, R31). -/

namespace Sys2Proof.Machine

/-! ## The checks in their order (R10) -/

/-- The reasons in the order of their checks. -/
def refusalOrder : List RefusalReason := [.masked, .badSong, .duplicate, .quota, .cap, .limit, .full]

/-- The checks as the Book makes them. -/
def State.refuses (s : State) (who : Requester) (song : Nat) (tier : Tier) : RefusalReason → Bool
  | .masked => s.book.masked.getLsb who.origin
  | .badSong => song = 0
  | .duplicate => s.book.noDuplicates && s.book.entries.any (·.songId = song)
  | .quota => s.book.overQuota who s.sessionTime
  | .cap => tier = .normal && s.book.caps[who.origin] ≤ s.book.normalCount who.origin
  | .limit => tier = .priority && Config.priorityLimit ≤ s.book.priorityCount
  | .full => Config.bookSize ≤ s.book.entries.length

theorem find?_cons_ite {α : Type} (p : α → Bool) (a : α) (l : List α) :
    (a :: l).find? p = if p a = true then some a else l.find? p := by
  rw [List.find?_cons]
  cases p a <;> rfl

theorem refusal_eq_find (s : State) (who : Requester) (song : Nat) (tier : Tier) :
    s.refusal who song tier = refusalOrder.find? (s.refuses who song tier) := by
  simp only [refusalOrder, find?_cons_ite, List.find?_nil, State.refuses, State.refusal,
    decide_eq_true_eq]

theorem overQuota_iff {b : Book} {who : Requester} {now : Time} : b.overQuota who now = true ↔
    ∃ p, who = .panel p ∧ b.quota ≤ (b.quotaTimes[p].filter fun x =>
      (now - x).toNat < b.quotaWindow * 1000).length := by
  cases who with
  | panel p => simp [Book.overQuota, Book.inWindow, List.countP_eq_length_filter]
  | port o => simp [Book.overQuota]

theorem refuses_iff {s : State} {who : Requester} {song : Nat} {tier : Tier} {r : RefusalReason} :
    s.refuses who song tier r = true ↔ s.meets who song tier r := by
  cases r with
  | masked => exact Iff.rfl
  | badSong => exact decide_eq_true_iff
  | duplicate => simp [State.refuses, State.meets]
  | quota => exact overQuota_iff
  | cap => simp [State.refuses, State.meets, Book.normalCount, List.countP_eq_length_filter]
  | limit => simp [State.refuses, State.meets, priorityCount_eq, Config.priorityLimit]
  | full => exact decide_eq_true_iff

theorem mem_refusalOrder (r : RefusalReason) : r ∈ refusalOrder := by cases r <;> decide

theorem refusal_eq_some_iff {s : State} {who : Requester} {song : Nat} {tier : Tier} {r : RefusalReason} :
    s.refusal who song tier = some r ↔ s.meets who song tier r ∧
      ∀ q : RefusalReason, q.number < r.number → ¬ s.meets who song tier q := by
  rw [refusal_eq_find, find?_eq_some_iff_of_sorted (key := RefusalReason.number) (by decide)]
  simp only [mem_refusalOrder, true_and, forall_const, refuses_iff]

theorem refusal_eq_none_iff' {s : State} {who : Requester} {song : Nat} {tier : Tier} :
    s.refusal who song tier = none ↔ ∀ q : RefusalReason, ¬ s.meets who song tier q := by
  rw [refusal_eq_find, List.find?_eq_none]
  simp only [mem_refusalOrder, forall_const, refuses_iff]

/-! ## ENQUEUE (R15) -/

theorem tierOf_of_large {b : Byte} (h : 1 < b.toNat) : tierOf b = none := by
  rw [tierOf, if_neg (by rintro rfl; exact absurd h (by decide)),
    if_neg (by rintro rfl; exact absurd h (by decide))]

theorem tagOf_of_outside {t : OptionalByte}
    (h : 1 < t.presence.toNat ∨ (t.presence = 1 ∧ 16 ≤ t.value.toNat)) : tagOf t = none := by
  rcases h with h | ⟨present, large⟩
  · have zero : t.presence ≠ 0 := by intro zero; rw [zero] at h; exact absurd h (by decide)
    have one : t.presence ≠ 1 := by intro one; rw [one] at h; exact absurd h (by decide)
    rw [tagOf, if_neg zero, if_neg]
    rw [Bool.and_eq_true, decide_eq_true_eq]
    exact fun h => one h.1
  · simp [tagOf, present, Nat.not_lt.mpr large]

theorem tierOf_eq_priority {b : Byte} : tierOf b = some .priority ↔ b = 1 := by
  unfold tierOf
  split_ifs with zero one
  · subst zero; exact iff_of_false nofun (by decide)
  · exact iff_of_true rfl one
  · exact iff_of_false nofun one

theorem enqueueBlock_not_permitted {s : State} {tag : OptionalByte} {song : Nat} :
    enqueueBlock .console song 1 tag s = ⟨s, .notPermitted, []⟩ := rfl

theorem enqueueBlock_of_tier {s : State} {p : Port} {song : Nat} {tier : Byte} {tag : OptionalByte}
    (h : tierOf tier = none) : enqueueBlock p song tier tag s = ⟨s, .range, []⟩ := by
  rw [enqueueBlock, h, if_neg (by simp)]
  cases portOrigin p <;> rfl

theorem enqueueBlock_of_tag {s : State} {p : Port} {song : Nat} {tier : Byte} {tag : OptionalByte}
    (passed : ¬ (p = .console ∧ tier = 1)) (h : tagOf tag = none) :
    enqueueBlock p song tier tag s = ⟨s, .range, []⟩ := by
  rw [← tierOf_eq_priority] at passed
  rw [enqueueBlock, h, if_neg (by simpa using passed)]
  cases portOrigin p <;> cases tierOf tier <;> rfl

section
variable {s : State} {p : Port} {song : Nat} {tier : Byte} {tag : OptionalByte} {o : Fin 10} {t : Tier}
  {g : Option Nat} (origin : portOrigin p = some o) (tiered : tierOf tier = some t)
  (tagged : tagOf tag = some g) (passed : ¬ (p = .console ∧ t = .priority))
include origin tiered tagged passed

theorem enqueueBlock_of_refused {r : RefusalReason} (refused : s.refusal (.port o) song t = some r) :
    enqueueBlock p song tier tag s = ⟨s, .refused, be8 r.number⟩ := by
  rw [enqueueBlock, tiered, origin, tagged, if_neg (by simpa using passed)]
  simp only
  rw [refused]

theorem enqueueBlock_of_accepted (accepted : s.refusal (.port o) song t = none) :
    enqueueBlock p song tier tag s = ⟨(s.withRequest (.port o) song t g).bookChanged, .ok,
      be16 s.issueTicket ++ be8 ((s.withRequest (.port o) song t g).book.position s.issueTicket)⟩ := by
  rw [enqueueBlock, tiered, origin, tagged, if_neg (by simpa using passed)]
  simp only
  rw [accepted]
  rfl

end

/-! ## An acceptance (R14) -/

theorem withRequest_touches (s : State) (who : Requester) (song : Nat) (tier : Tier) (tag : Option Nat) :
    Touches changePieces s (s.withRequest who song tier tag).bookChanged :=
  ((book_touches _ _).mono rfl).trans ((bookChanged_touches _).mono rfl)

theorem ticketAfter_eq {n : Nat} (h : n ≤ 65535) : ticketAfter n = if n = 65535 then 1 else n + 1 := by
  unfold ticketAfter
  split <;> split <;> omega

theorem withRequest_length (s : State) (who : Requester) (song : Nat) (tier : Tier) (tag : Option Nat) :
    (s.withRequest who song tier tag).bookChanged.book.entries.length = s.book.entries.length + 1 := by
  rw [bookChanged_length]
  exact (inserted_perm s.book (s.requestedEntry who song tier tag)).length_eq

theorem withRequest_shows (s : State) (who : Requester) (song : Nat) (tier : Tier) (tag : Option Nat)
    {p : Port} (h : p ∈ consoleVenue) :
    (s.withRequest who song tier tag).bookChanged.shows p (.queueChanged (s.book.entries.length + 1)) := by
  rw [← withRequest_length s who song tier tag]
  exact bookChanged_shows_queue _ p h

theorem position_congr {b c : Book} (h : c.entries = b.entries) (n : Nat) : c.position n = b.position n := by
  unfold Book.position; rw [h]

theorem panelRequest_of_refused {s : State} {p : Fin 8} {song : Nat} {r : RefusalReason}
    (refused : s.refusal (.panel p) song .normal = some r) (tag : Option Nat) :
    s.panelRequest p song tag = (s, .refused r) := by
  rw [State.panelRequest, refused]

theorem panelRequest_of_accepted {s : State} {p : Fin 8} {song : Nat}
    (accepted : s.refusal (.panel p) song .normal = none) (tag : Option Nat) :
    s.panelRequest p song tag = ((s.withRequest (.panel p) song .normal tag).bookChanged,
      .accepted s.issueTicket
        ((s.withRequest (.panel p) song .normal tag).book.position s.issueTicket)) := by
  rw [State.panelRequest, accepted]
  rfl

theorem recordTime_eq (xs : List Time) (now : Time) :
    recordTime xs now = (xs ++ [now]).drop (if 8 < xs.length + 1 then 1 else 0) := by
  unfold recordTime
  simp only [List.length_append, List.length_singleton]
  split <;> rfl

theorem withRequest_quotaTimes (s : State) (p q : Fin 8) (song : Nat) (tier : Tier) (tag : Option Nat) :
    (s.withRequest (.panel p) song tier tag).book.quotaTimes[q] =
      if q = p then recordTime s.book.quotaTimes[p] s.sessionTime else s.book.quotaTimes[q] :=
  Vector.getElem_set_fin _ _ _ _

/-- Settles O13: the checks by a search in their order, ENQUEUE and a panel's REQUEST by what they come
to, an acceptance by `withRequest`. -/
theorem requestsAreCheckedAndAccepted : Obligations.RequestsAreCheckedAndAccepted := by
  refine ⟨⟨⟨fun s who song tier r => refusal_eq_some_iff, fun s who song tier => refusal_eq_none_iff',
    fun s p song tier tag o t g r hc origin tiered tagged passed refused => ?refused,
    fun s p seq song tag r due new refused => ?panelRefused⟩, fun s p song tier tag hc => ?unfit⟩,
    fun s p song tier tag o t g distinct hc origin tiered tagged passed accepted => ?accepted,
    fun s p seq song tag distinct due new accepted => ?panelAccepted⟩
  case refused =>
    exact runs_unchanged rfl rfl hc (enqueueBlock_of_refused origin tiered tagged passed refused)
  case panelRefused =>
    have again := (goodReply_repeated s p (seqOf seq)).trans new
    have refused := (refusal_congr (goodReply_book s p) (goodReply_sessionTime s p) (.panel p) song.toNat
      .normal).trans refused
    have run := (exec_request_of_replyDue due).trans (congrArg Host.Outcome.next (adjudicate_of_new
      (decision := fun u => u.panelRequest p song.toNat (panelTag tag)) again))
    rw [panelRequest_of_refused refused] at run
    have loop := owed_loop (s := s) (t := s.goodReply p) (p := p) rfl (seqOf seq) (.refused r)
    refine ⟨_, run, (goodReply_touches s p).trans ((owed_touches _ _ _ _).mono rfl), ?_, ?_⟩
    · exact (congrArg Loop.exchange loop).trans rfl
    · rw [loop]
      exact congrArg Panel.stored (setPanel_panel _ _ _)
  case unfit =>
    refine ⟨?_, fun large => runs_unchanged rfl rfl hc (enqueueBlock_of_tier (tierOf_of_large large)),
      fun passed outside => runs_unchanged rfl rfl hc
        (enqueueBlock_of_tag passed (tagOf_of_outside outside))⟩
    rintro rfl rfl
    exact runs_unchanged rfl rfl hc enqueueBlock_not_permitted
  case accepted =>
    intro entry book
    have round : s.requestedEntry (.port o) song.toNat t g = entry := by cases t <;> rfl
    have ticket : ticketAfter s.issueTicket = if s.issueTicket = 65535 then 1 else s.issueTicket + 1 :=
      ticketAfter_eq (issueTicket_fresh distinct).2.2
    have position : (s.withRequest (.port o) song.toNat t g).book.position s.issueTicket =
        book.position entry.ticket := position_congr (congrArg s.book.inserted round) _
    have taken := enqueueBlock_of_accepted
      (s := s.accept p ⟨0x01, be24 song.toNat ++ [tier, tag.presence, tag.value]⟩) origin tiered tagged
      passed accepted
    have runs := runs_block rfl rfl hc taken (withRequest_touches _ _ _ _ _) (by decide)
    obtain ⟨order, rest⟩ := bookChanged_book
      ((s.accept p ⟨0x01, be24 song.toNat ++ [tier, tag.presence, tag.value]⟩).withRequest (.port o)
        song.toNat t g)
    refine ⟨_, runs.data (by rw [← position]; rfl), order.trans ?_, rest.trans ?_,
      reply_shows.mpr (withRequest_shows _ _ _ _ _ (by decide)),
      reply_shows.mpr (withRequest_shows _ _ _ _ _ (by decide))⟩
    · exact congrArg (fun e => (s.book.inserted e).map Entry.uncalled) round
    · rw [← ticket]
      rfl
  case panelAccepted =>
    intro entry book verdict
    have again := (goodReply_repeated s p (seqOf seq)).trans new
    have accepted := (refusal_congr (goodReply_book s p) (goodReply_sessionTime s p) (.panel p) song.toNat
      .normal).trans accepted
    have run := (exec_request_of_replyDue due).trans (congrArg Host.Outcome.next (adjudicate_of_new
      (decision := fun u => u.panelRequest p song.toNat (panelTag tag)) again))
    have made : (s.goodReply p).requestedEntry (.panel p) song.toNat .normal (panelTag tag) = entry :=
      requestedEntry_congr (goodReply_book s p) (goodReply_sessionTime s p) (goodReply_turn s p) _ _ _ _
    have inserted : ((s.goodReply p).withRequest (.panel p) song.toNat .normal (panelTag tag)).book.entries =
        book.entries := by
      change (s.goodReply p).book.inserted _ = s.book.inserted entry
      rw [made, goodReply_book]
    have issued : (s.goodReply p).issueTicket = s.issueTicket := congrArg Entry.ticket made
    rw [panelRequest_of_accepted accepted, position_congr inserted, issued] at run
    have ticket : ticketAfter s.issueTicket = if s.issueTicket = 65535 then 1 else s.issueTicket + 1 :=
      ticketAfter_eq (issueTicket_fresh distinct).2.2
    have decision := withRequest_touches (s.goodReply p) (.panel p) song.toNat .normal (panelTag tag)
    have owed := owed_touches
      ((s.goodReply p).withRequest (.panel p) song.toNat .normal (panelTag tag)).bookChanged p (seqOf seq)
      verdict
    have loop := owed_loop (decision .loop (by decide)) (seqOf seq) verdict
    obtain ⟨order, rest⟩ := bookChanged_book
      ((s.goodReply p).withRequest (.panel p) song.toNat .normal (panelTag tag))
    have owedBook := owed .book (by decide)
    have shown : ∀ q ∈ consoleVenue, ((((s.goodReply p).withRequest (.panel p) song.toNat .normal
        (panelTag tag)).bookChanged.storeVerdict p (seqOf seq) verdict).owe p (seqOf seq) verdict).shows q
          (.queueChanged (s.book.entries.length + 1)) := fun q hq => by
      refine (keeps_touches (c := 9) owed (by decide)).shows rfl ?_
      have shows := withRequest_shows (s.goodReply p) (.panel p) song.toNat .normal (panelTag tag) hq
      rwa [goodReply_book] at shows
    have decided := owedBook.trans rest
    refine ⟨_, run, ?_, ?_, ?_, ?_, fun q other => ?_, ?_, ?_, shown _ (by decide), shown _ (by decide)⟩
    · exact ((goodReply_touches s p).mono rfl).trans ((decision.mono rfl).trans (owed.mono rfl))
    · rw [owedBook, order]
      exact congrArg (List.map Entry.uncalled) inserted
    · refine (congrArg Book.nextTicket decided).trans (Eq.trans ?_ ticket)
      exact congrArg ticketAfter issued
    · refine (congrArg (fun b => b.quotaTimes[p]) decided).trans ?_
      refine (withRequest_quotaTimes (s.goodReply p) p p song.toNat .normal (panelTag tag)).trans ?_
      rw [if_pos rfl, recordTime_eq, goodReply_book, goodReply_sessionTime]
    · refine (congrArg (fun b => b.quotaTimes[q]) decided).trans ?_
      refine (withRequest_quotaTimes (s.goodReply p) p q song.toNat .normal (panelTag tag)).trans ?_
      rw [if_neg other, goodReply_book]
    · exact (congrArg Loop.exchange loop).trans rfl
    · rw [loop]
      exact setPanel_panel _ _ _

end Sys2Proof.Machine
end

section
/-! The bytes of a reply (R29, 12.3). -/

namespace Sys2Proof.Machine

/-! ## The kinds and their lengths -/

theorem kindLength_eq_none_iff {k : Byte} :
    kindLength k = none ↔ k ≠ 0x10 ∧ k ≠ 0x11 ∧ k ≠ 0x12 ∧ k ≠ 0x13 := by
  unfold kindLength
  split_ifs <;> simp_all

theorem kindLength_le {k : Byte} {n : Nat} (h : kindLength k = some n) : n ≤ 4 := by
  unfold kindLength at h
  split_ifs at h <;> (obtain rfl := Option.some.inj h; decide)

theorem kindLength_eq {k : Byte} {n : Nat} (h : kindLength k = some n) :
    n = if k = 0x10 then 0 else if k = 0x11 then 4 else 2 := by
  unfold kindLength at h
  split_ifs at h ⊢ <;> exact (Option.some.inj h).symm

theorem ne_panelAddress_iff {p : Fin 8} {b : Byte} : b ≠ panelAddress p ↔ b.toNat ≠ p.val := by
  have address : (panelAddress p).toNat = p.val := by
    rw [panelAddress, BitVec.toNat_ofNat]
    omega
  rw [← address, Ne, Ne, ← BitVec.toNat_inj]

/-! ## The status by the bytes received -/

/-- Whether a reply begins as one of this panel. -/
def Opens (p : Fin 8) (start address : Byte) : Prop := start = 0xA5 ∧ address = panelAddress p

theorem replyStatus_nil (p : Fin 8) : replyStatus p [] = .more := rfl

theorem replyStatus_one (p : Fin 8) (a : Byte) :
    replyStatus p [a] = if a = 0xA5 then .more else .bad := by
  by_cases h : a = 0xA5 <;> simp [replyStatus, h]

theorem replyStatus_two (p : Fin 8) (a b : Byte) [Decidable (Opens p a b)] :
    replyStatus p [a, b] = if Opens p a b then .more else .bad := by
  by_cases ha : a = 0xA5 <;> by_cases hb : b = panelAddress p <;> simp [replyStatus, Opens, ha, hb]

theorem replyStatus_three (p : Fin 8) (a b k : Byte) [Decidable (Opens p a b)] :
    replyStatus p [a, b, k] = if Opens p a b ∧ kindLength k ≠ none then .more else .bad := by
  by_cases ha : a = 0xA5 <;> by_cases hb : b = panelAddress p <;> cases hk : kindLength k <;>
    simp [replyStatus, Opens, ha, hb, hk]

theorem replyStatus_four (p : Fin 8) (a b k q : Byte) [Decidable (Opens p a b)] :
    replyStatus p [a, b, k, q] = if Opens p a b ∧ kindLength k ≠ none then .more else .bad := by
  by_cases ha : a = 0xA5 <;> by_cases hb : b = panelAddress p <;> cases hk : kindLength k <;>
    simp [replyStatus, Opens, ha, hb, hk]

/-- From the length byte on: the reply ends with the byte behind its payload, good if the sum is 0. -/
theorem replyStatus_long (p : Fin 8) (a b k q n : Byte) (rest : List Byte) [Decidable (Opens p a b)] :
    replyStatus p (a :: b :: k :: q :: n :: rest) =
      if Opens p a b ∧ kindLength k = some n.toNat then
        if rest.length ≤ n.toNat then .more
        else if (a :: b :: k :: q :: n :: rest).foldl (· + ·) 0 = 0 then .good else .bad
      else .bad := by
  by_cases ha : a = 0xA5 <;> by_cases hb : b = panelAddress p <;> cases hk : kindLength k with
  | none => simp [replyStatus, Opens, ha, hb, hk]
  | some m =>
    by_cases hm : m = n.toNat
    · subst hm
      simp [replyStatus, Opens, ha, hb, hk]
    · simp [replyStatus, Opens, ha, hb, hk, hm]

/-! ## The endings of a reply (R29) -/

/-- A reply frame as its bytes. -/
theorem replyFrame_eq (p : Fin 8) (kind seq : Byte) (payload : List Byte) :
    replyFrame p kind seq payload = 0xA5 :: panelAddress p :: kind :: seq ::
      BitVec.ofNat 8 payload.length :: (payload ++
        [checkByte (loopBody (panelAddress p) kind seq payload)]) := rfl

theorem opens_own (p : Fin 8) : Opens p 0xA5 (panelAddress p) := ⟨rfl, rfl⟩

theorem toNat_ofNat_length {payload : List Byte} {k : Byte} (h : kindLength k = some payload.length) :
    (BitVec.ofNat 8 payload.length).toNat = payload.length := by
  have := kindLength_le h
  rw [BitVec.toNat_ofNat]
  omega

theorem replyStatus_frame {p : Fin 8} {kind : Byte} (seq : Byte) {payload : List Byte}
    (h : kindLength kind = some payload.length) :
    replyStatus p (replyFrame p kind seq payload) = .good := by
  classical
  have length := toNat_ofNat_length h
  rw [replyFrame_eq, replyStatus_long, if_pos ⟨opens_own p, by rw [length]; exact h⟩,
    if_neg (by rw [length, List.length_append]; exact Nat.not_succ_le_self _)]
  exact if_pos (checked_sum (loopBody (panelAddress p) kind seq payload))

theorem replyStatus_frame_take {p : Fin 8} {kind : Byte} (seq : Byte) {payload : List Byte}
    (h : kindLength kind = some payload.length) {n : Nat}
    (short : n < (replyFrame p kind seq payload).length) :
    replyStatus p ((replyFrame p kind seq payload).take n) = .more := by
  classical
  have length := toNat_ofNat_length h
  have known : kindLength kind ≠ none := by rw [h]; exact nofun
  rw [replyFrame_eq] at short ⊢
  match n with
  | 0 => rfl
  | 1 => exact (replyStatus_one _ _).trans (if_pos rfl)
  | 2 => exact (replyStatus_two _ _ _).trans (if_pos (opens_own p))
  | 3 => exact (replyStatus_three _ _ _ _).trans (if_pos ⟨opens_own p, known⟩)
  | 4 => exact (replyStatus_four _ _ _ _ _).trans (if_pos ⟨opens_own p, known⟩)
  | n + 5 =>
    refine (replyStatus_long _ _ _ _ _ _ _).trans ?_
    rw [if_pos ⟨opens_own p, by rw [length]; exact h⟩, if_pos]
    simp only [List.length_cons, List.length_append, List.length_nil] at short
    rw [length, List.length_take, List.length_append, List.length_singleton]
    exact (Nat.min_le_left _ _).trans (by omega)

/-- A reply is bad at the first byte that is not as the frame's must be. -/
theorem replyStatus_bad_iff {p : Fin 8} {bytes : List Byte} (b : Byte) (more : replyStatus p bytes = .more) :
    replyStatus p (bytes ++ [b]) = .bad ↔
      (bytes.length = 0 ∧ b ≠ 0xA5) ∨ (bytes.length = 1 ∧ b.toNat ≠ p.val) ∨
      (bytes.length = 2 ∧ b ≠ 0x10 ∧ b ≠ 0x11 ∧ b ≠ 0x12 ∧ b ≠ 0x13) ∨
      (bytes.length = 4 ∧ b.toNat ≠
        (if bytes[2]? = some 0x10 then 0 else if bytes[2]? = some 0x11 then 4 else 2)) ∨
      (∃ n, bytes[4]? = some n ∧ bytes.length = n.toNat + 5 ∧
        (bytes ++ [b]).foldl (· + ·) 0 ≠ 0) := by
  classical
  match bytes with
  | [] => by_cases hb : b = 0xA5 <;> simp [replyStatus_one, hb]
  | [a] =>
    rw [replyStatus_one] at more
    have start : a = 0xA5 := by by_contra other; rw [if_neg other] at more; cases more
    rw [List.cons_append, List.nil_append, replyStatus_two]
    by_cases hb : b = panelAddress p
    · have opens : Opens p a b := ⟨start, hb⟩
      rw [if_pos opens, ← ne_panelAddress_iff]
      simp [hb]
    · have closed : ¬ Opens p a b := fun opens => hb opens.2
      simp [closed, ← ne_panelAddress_iff, hb]
  | [a, c] =>
    rw [replyStatus_two] at more
    have opens : Opens p a c := by by_contra other; rw [if_neg other] at more; cases more
    rw [List.cons_append, List.cons_append, List.nil_append, replyStatus_three]
    simp only [opens, true_and, ← kindLength_eq_none_iff]
    by_cases hb : kindLength b = none <;> simp [hb]
  | [a, c, k] =>
    rw [replyStatus_three] at more
    have fits : Opens p a c ∧ kindLength k ≠ none := by
      by_contra other; rw [if_neg other] at more; cases more
    rw [List.cons_append, List.cons_append, List.cons_append, List.nil_append, replyStatus_four]
    simp [fits]
  | [a, c, k, q] =>
    rw [replyStatus_four] at more
    have fits : Opens p a c ∧ kindLength k ≠ none := by
      by_contra other; rw [if_neg other] at more; cases more
    obtain ⟨m, known⟩ := Option.ne_none_iff_exists'.mp fits.2
    rw [List.cons_append, List.cons_append, List.cons_append, List.cons_append, List.nil_append,
      replyStatus_long]
    have value : (if [a, c, k, q][2]? = some 0x10 then 0
        else if [a, c, k, q][2]? = some 0x11 then 4 else 2) = m := by
      simpa using (kindLength_eq known).symm
    rw [value]
    simp only [fits.1, true_and, known, Option.some.injEq]
    by_cases hb : m = b.toNat
    · simp [← hb]
    · simp [hb, Ne.symm hb]
  | a :: c :: k :: q :: n :: rest =>
    rw [replyStatus_long] at more
    have fits : Opens p a c ∧ kindLength k = some n.toNat := by
      by_contra other; rw [if_neg other] at more; cases more
    rw [if_pos fits] at more
    have short : rest.length ≤ n.toNat := by
      by_contra other
      rw [if_neg other] at more
      split at more <;> cases more
    have split : a :: c :: k :: q :: n :: rest ++ [b] = a :: c :: k :: q :: n :: (rest ++ [b]) := rfl
    rw [split, replyStatus_long, if_pos fits, List.length_append, List.length_singleton]
    by_cases last : rest.length = n.toNat
    · rw [if_neg (by omega)]
      simp [last]
    · rw [if_pos (by omega)]
      simp [last]

/-- A good reply is a reply frame. -/
theorem frame_of_good {p : Fin 8} {bytes : List Byte} {b : Byte} (more : replyStatus p bytes = .more)
    (good : replyStatus p (bytes ++ [b]) = .good) : ∃ kind seq payload,
      kindLength kind = some payload.length ∧ bytes ++ [b] = replyFrame p kind seq payload := by
  classical
  match bytes with
  | [] => rw [List.nil_append, replyStatus_one] at good; split at good <;> cases good
  | [a] => rw [List.cons_append, List.nil_append, replyStatus_two] at good; split at good <;> cases good
  | [a, c] =>
    rw [List.cons_append, List.cons_append, List.nil_append, replyStatus_three] at good
    split at good <;> cases good
  | [a, c, k] =>
    rw [List.cons_append, List.cons_append, List.cons_append, List.nil_append, replyStatus_four] at good
    split at good <;> cases good
  | [a, c, k, q] =>
    rw [List.cons_append, List.cons_append, List.cons_append, List.cons_append, List.nil_append,
      replyStatus_long] at good
    split at good
    · rw [List.length_nil, if_pos (Nat.zero_le _)] at good; cases good
    · cases good
  | a :: c :: k :: q :: n :: rest =>
    have split : a :: c :: k :: q :: n :: rest ++ [b] = a :: c :: k :: q :: n :: (rest ++ [b]) := rfl
    rw [split, replyStatus_long] at good
    have fits : Opens p a c ∧ kindLength k = some n.toNat := by
      by_contra other; rw [if_neg other] at good; cases good
    rw [if_pos fits, List.length_append, List.length_singleton] at good
    rw [replyStatus_long, if_pos fits] at more
    have long : ¬ rest.length + 1 ≤ n.toNat := fun short => by rw [if_pos short] at good; cases good
    have short : rest.length ≤ n.toNat := by
      by_contra other
      rw [if_neg other] at more
      split at more <;> cases more
    have length : n.toNat = rest.length := by omega
    have zero : (a :: c :: k :: q :: n :: (rest ++ [b])).foldl (· + ·) 0 = 0 := by
      by_contra other
      rw [if_neg long, if_neg other] at good; cases good
    obtain ⟨⟨rfl, rfl⟩, known⟩ := fits
    have number : n = BitVec.ofNat 8 rest.length := by rw [← length, BitVec.ofNat_toNat]; simp
    refine ⟨k, q, rest, by rw [known, length], ?_⟩
    have check : b = checkByte (loopBody (panelAddress p) k q rest) := by
      have sum : (loopBody (panelAddress p) k q rest ++ [b]).foldl (· + ·) 0 = 0 := by
        rw [number] at zero; exact zero
      rw [List.foldl_append, List.foldl_cons, List.foldl_nil] at sum
      exact eq_neg_of_add_eq_zero_right sum
    rw [replyFrame_eq, ← check, ← number]
    rfl

/-! ## The events (R26, R29) -/

theorem bump_eq (limit n : Nat) : bump limit n = if n < limit then n + 1 else limit := by
  unfold bump
  split <;> omega

/-- Settles O23: the events by the exchange awaited; the endings by the status of each shape of bytes. -/
theorem replyBytesMakeGoodAndBadReplies : Obligations.ReplyBytesMakeGoodAndBadReplies := by
  refine ⟨fun s b => ⟨fun p bytes awaited => ⟨fun more => ?kept, fun framing spoils => ?spoiled⟩,
    fun p bytes receiving quiet => ?cut, fun idle => ?stray⟩,
    fun p kind seq payload known => ⟨replyStatus_frame seq known, fun n => replyStatus_frame_take seq known⟩,
    fun p bytes b => replyStatus_bad_iff b, fun p bytes b => frame_of_good⟩
  case kept =>
    change execReplyByteReceived b s = _
    rw [execReplyByteReceived, awaited]
    exact if_pos more
  case spoiled =>
    have run : exec (.badReply b framing) s = .next ((s.spoil p).mapLoop fun l => { l with quiet := 0 }) := by
      change execBadReply b framing s = _
      rw [execBadReply, awaited]
      exact if_pos (by simpa using spoils)
    refine ⟨_, run, (spoil_touches s p).trans (mapLoop_touches _ _), ?_⟩
    rw [← bump_eq]
    rfl
  case cut =>
    have run : exec .replyByteTimeout s = .next (s.spoil p) := by
      change Host.Outcome.next s.cutReply = _
      rw [State.cutReply, receiving]
      exact congrArg Host.Outcome.next (if_pos quiet)
    refine ⟨_, run, spoil_touches s p, ?_⟩
    rw [← bump_eq]
    rfl
  case stray =>
    change execStrayLoopByte b s = _
    rw [execStrayLoopByte, idle]
    rfl

end Sys2Proof.Machine
end

section
/-! What the operations on the line window leave of the line scheduler (R55, R106, R113, R118, R121), and
the settings of loop, stage and display (R38, R40, R46 to R53, R147 to R152). -/

namespace Sys2Proof.Machine

/-! ## The line scheduler under each operation -/

theorem pin_lines (s : State) (ks : List Code) : (s.pin ks).lines = s.lines :=
  pin_touches s ks .lines (by decide)

theorem unpin_lines (s : State) (ks : List Code) : (s.unpin ks).lines = s.lines :=
  unpin_touches s ks .lines (by decide)

theorem prefetch_lines (s : State) (ks : List Code) : (s.prefetch ks).lines = s.lines :=
  prefetch_touches s ks .lines (by decide)

theorem dropLines_lines (s : State) (p : WindowLine → Bool) :
    (s.dropLines p).lines = { s.lines with window := s.lines.window.filter fun x => !p x } :=
  unpin_lines _ _

theorem emptyWindow_lines (s : State) :
    s.emptyWindow.lines = { s.lines with window := [], pending := [], scroll := none } := by
  change { (s.dropLines fun _ => true).lines with pending := [], scroll := none } = _
  rw [dropLines_lines]
  simp

theorem requestRebuild_lines (s : State) : s.requestRebuild.lines =
    { s.lines with
      window := s.lines.window.filter fun x => !x.isLeaving, rebuild := true, scroll := none } := by
  change { (s.dropLines WindowLine.isLeaving).lines with rebuild := true, scroll := none } = _
  rw [dropLines_lines]

theorem endScoreShow_lines (s : State) : s.endScoreShow.lines = { s.lines with scoreShow := none } := by
  unfold State.endScoreShow
  split
  next none => rw [← none]
  next => exact unpin_lines _ _

theorem startScoreShow_none (s : State) : s.startScoreShow none = s := rfl

theorem startScoreShow_lines {s : State} (h : Nat) (shown : s.lines.scoreHold ≠ 0) :
    (s.startScoreShow (some h)).lines =
      { s.lines with scoreShow := some { headline := h, left := s.lines.scoreHold } } := by
  rw [State.startScoreShow]
  simp only
  rw [if_neg shown]
  exact pin_lines _ _

/-- The scheduler but for the title band: its content, its rows, the title hinted at. -/
def LineScheduler.Retitled (l m : LineScheduler) : Prop :=
  ∃ title rows hinted, m = { l with title := title, titleRows := rows, hinted := hinted }

theorem LineScheduler.Retitled.refl (l : LineScheduler) : l.Retitled l :=
  ⟨l.title, l.titleRows, l.hinted, rfl⟩

theorem hintTitle_lines (s : State) :
    ∃ hinted, s.hintTitle.lines = { s.lines with hinted := hinted } := by
  unfold State.hintTitle
  simp only
  split
  · exact ⟨s.lines.hinted, rfl⟩
  · split
    · exact ⟨_, rfl⟩
    · exact ⟨_, prefetch_lines _ _⟩

theorem retitle_lines (s : State) : s.lines.Retitled s.retitle.lines := by
  unfold State.retitle
  simp only
  obtain ⟨hinted, lines⟩ := hintTitle_lines (if (s.titleChoice = s.lines.title &&
      s.titleShown = s.lines.titleRows) = true then s
    else ((s.mapLines fun l => { l with title := s.titleChoice, titleRows := s.titleShown }).pin
      s.titleShown.flatten).unpin s.lines.titleRows.flatten)
  rw [lines]
  split
  · exact ⟨_, _, _, rfl⟩
  · rw [unpin_lines, pin_lines]
    exact ⟨_, _, _, rfl⟩

theorem changed_lines (s : State) : s.changed.lines = s.lines := changed_touches s .lines (by decide)

theorem testCall_lines (s : State) : s.lines.Retitled s.testCall.lines := by
  unfold State.testCall
  split
  next t call =>
    obtain ⟨e, rest, i, -, -, -, -, -, -, rfl⟩ := callHead_cases call
    have lines := retitle_lines (State.changed (s.withCalled e rest i))
    rwa [changed_lines, withCalled_touches _ _ _ _ .lines (by decide)] at lines
  next => exact retitle_lines s

theorem bookChanged_lines (s : State) : s.lines.Retitled s.bookChanged.lines := by
  have lines := testCall_lines s.changed
  rwa [changed_lines] at lines

/-! ## Settings (R38, R40, R46 to R53, R147 to R152) -/

/-- A command whose block sets the loop alone. -/
theorem loop_runs {i : Instr} {p : Port} {f : Frame} {s : State} {r : ResultCode} {d : List Byte}
    {block : State → Taken} {l : Loop} (hf : frameOf i = some (p, f))
    (he : exec i s = clientCommand i s block) (hc : s.canTake i = true)
    (taken : block (s.accept p f) = ⟨{ s.accept p f with loop := l }, r, d⟩) :
    ∃ u, Runs i [.loop] r d s u ∧ u.loop = l :=
  ⟨_, runs_block hf he hc taken (mapLoop_touches (s.accept p f) fun _ => l) (by decide), rfl⟩

/-- A command whose block sets the Compositor alone. -/
theorem video_runs {i : Instr} {p : Port} {f : Frame} {s : State} {r : ResultCode} {d : List Byte}
    {block : State → Taken} {v : Compositor} (hf : frameOf i = some (p, f))
    (he : exec i s = clientCommand i s block) (hc : s.canTake i = true)
    (taken : block (s.accept p f) = ⟨{ s.accept p f with video := v }, r, d⟩) :
    ∃ u, Runs i [.video] r d s u ∧ u.video = v :=
  ⟨_, runs_block hf he hc taken (video_touches _ _) (by decide), rfl⟩

theorem panelOf_of_lt {b : Byte} (h : b.toNat < 8) : panelOf b = some ⟨b.toNat, h⟩ := dif_pos h

theorem panelOf_of_not_lt {b : Byte} (h : ¬ b.toNat < 8) : panelOf b = none := dif_neg h

theorem endReasonOf_eq_none {b : Byte} (h : 3 ≤ b.toNat) : endReasonOf b = none := by
  rw [endReasonOf, if_neg, if_neg, if_neg]
  all_goals rintro rfl; exact absurd h (by decide)

theorem exists_endReasonOf {b : Byte} (h : b.toNat < 3) : ∃ r, endReasonOf b = some r := by
  have cases : b = 0 ∨ b = 1 ∨ b = 2 := by bv_omega
  rcases cases with rfl | rfl | rfl
  · exact ⟨_, rfl⟩
  · exact ⟨_, rfl⟩
  · exact ⟨_, rfl⟩

theorem turnOf_eq_none {s : State} {n : BitVec 16} (h : n = 0 ∨ s.onStage n.toNat = false) :
    s.turnOf n.toNat = none := by
  cases found : s.turnOf n.toNat with
  | none => rfl
  | some t =>
    obtain ⟨turn, ticket, nonzero⟩ := turnOf_eq_some_iff.mp found
    rcases h with rfl | off
    · exact absurd rfl nonzero
    · rw [onStage_iff.mpr ⟨t, turn, ticket⟩] at off; cases off

theorem contentOf_of_le {b : Byte} (h : b.toNat ≤ 2) :
    contentOf b = some (if b = 0 then .normal else if b = 1 then .blank else .fill) := by
  have cases : b = 0 ∨ b = 1 ∨ b = 2 := by bv_omega
  rcases cases with rfl | rfl | rfl <;> rfl

theorem contentOf_of_not_le {b : Byte} (h : ¬ b.toNat ≤ 2) : contentOf b = none := by
  rw [contentOf, if_neg, if_neg, if_neg]
  all_goals rintro rfl; exact absurd (by decide) h

theorem scopeOf_of_le {b : Byte} (h : b.toNat ≤ 1) :
    scopeOf b = some (if b = 0 then .full else .lyricOnly) := by
  rcases byte_le_one_iff.mp h with rfl | rfl <;> rfl

theorem scopeOf_of_not_le {b : Byte} (h : ¬ b.toNat ≤ 1) : scopeOf b = none := by
  rw [byte_le_one_iff, not_or] at h
  rw [scopeOf, if_neg h.1, if_neg h.2]

/-- The power after WAKE (R147). -/
def State.wokenPower (s : State) : Power :=
  if s.video.power = .active ∨ (s.font.store ≠ .scanning ∧ s.video.path ≠ .changeover) then .active
  else .waking

theorem wakeBlock_eq (s : State) : wakeBlock s =
    ⟨{ s with video := { s.video with power := s.wokenPower } }, .ok, be8 s.wokenPower.place⟩ := by
  have woken : (s.mapVideo fun v =>
      { v with power := if v.power = .standby then .waking else v.power }).testWaking =
        { s with video := { s.video with power := s.wokenPower } } := by
    unfold State.testWaking State.wokenPower
    by_cases ready : s.font.store ≠ .scanning ∧ s.video.path ≠ .changeover
    · cases power : s.video.power <;> simp [State.mapVideo, power, ready]
    · cases power : s.video.power with
      | active => simp [State.mapVideo, power]
      | standby =>
        rw [if_neg, if_neg]
        · simp [State.mapVideo, power]
        · exact not_or.mpr ⟨nofun, ready⟩
        · simpa [State.mapVideo, power] using ready
      | waking =>
        rw [if_neg, if_neg]
        · simp [State.mapVideo, power]
        · exact not_or.mpr ⟨nofun, ready⟩
        · simpa [State.mapVideo, power] using ready
  rw [wakeBlock, woken]
  rfl

/-- The panels after PANEL-COUNTERS-CLEAR of one panel. -/
theorem setPanel_panels (l : Loop) (n q : Fin 8) (x : Panel) :
    (l.setPanel n x).panels[q] = if q = n then x else l.panels[q] := Vector.getElem_set_fin _ _ _ _

/-- Settles O26: each setting by its block, which sets one piece or refuses. -/
theorem settingsAreSetOrRefused : Obligations.SettingsAreSetOrRefused := by
  refine ⟨fun s p => ⟨fun n v hc => ?enable, fun n hc => ?clear, fun w g hc => ?timing⟩,
    ⟨fun s p hc => ⟨fun stage => ?occupied, fun stage waiting => ?noTurn⟩, fun s p =>
      ⟨fun n r hc => ⟨fun large => ?reason, fun small other => ?notOnStage⟩, fun n hc other => ?abort,
        fun v hc => ?autoEnd⟩⟩, fun s p => ⟨fun hc => ?wake, fun hc => video_runs rfl rfl hc rfl,
      fun a b c d hc => ?overlay, fun v hc => ?fmark, fun hc => video_runs rfl rfl hc rfl⟩⟩
  case enable =>
    split
    next valid =>
      refine loop_runs rfl rfl hc ?_
      rw [panelOf_of_lt valid.1, onOff_of_le valid.2]
      rfl
    next invalid =>
      refine runs_unchanged rfl rfl hc ?_
      rcases not_and_or.mp invalid with other | other
      · rw [panelOf_of_not_lt other]; rfl
      · rw [onOff_of_not_le other]; cases panelOf n <;> rfl
  case clear =>
    split
    next valid =>
      by_cases all : n = 0xFF
      · obtain ⟨u, runs, loop⟩ := loop_runs (p := p) (s := s) rfl rfl hc (if_pos all)
        refine ⟨u, runs, by rw [loop]; rfl, fun q => ?_⟩
        rw [if_pos (.inl all), loop]
        exact Vector.getElem_map ..
      · have one : n.toNat < 8 := valid.resolve_right all
        obtain ⟨u, runs, loop⟩ := loop_runs (p := p) (s := s) rfl rfl hc ((if_neg all).trans (by
          rw [panelOf_of_lt one]; rfl))
        refine ⟨u, runs, by rw [loop]; rfl, fun q => ?_⟩
        rw [loop, setPanel_panels]
        by_cases same : q = ⟨n.toNat, one⟩
        · rw [if_pos same, if_pos (.inr (by rw [same]))]
          subst same
          rfl
        · rw [if_neg same, if_neg]
          · rfl
          · exact not_or.mpr ⟨all, fun eq => same (Fin.ext eq.symm)⟩
    next invalid =>
      rw [not_or] at invalid
      refine runs_unchanged rfl rfl hc ((if_neg invalid.2).trans ?_)
      rw [panelOf_of_not_lt invalid.1]
      rfl
  case timing =>
    refine loop_runs rfl rfl hc ?_
    rw [← okCode_of_outside_or, ← clampNat_eq (by decide), ← clampNat_eq (by decide)]
    rfl
  case occupied => exact runs_unchanged rfl rfl hc (if_pos stage)
  case noTurn =>
    refine runs_unchanged rfl rfl hc ?_
    have nobody : s.book.calledHead = none := by
      rw [← Option.not_isSome_iff_eq_none, calledHead_isSome_iff]
      rintro ⟨e, head, called⟩
      rw [waiting e head] at called; cases called
    rw [takeBlock, if_neg (by rw [Option.not_isSome_iff_eq_none]; exact stage),
      show (s.accept p _).book.calledHead = none from nobody]
    rfl
  case reason =>
    refine runs_unchanged rfl (exec_endTurn p n r s) hc ?_
    rw [endTurnBlock, endReasonOf_eq_none large]
    rfl
  case notOnStage =>
    refine runs_unchanged rfl (exec_endTurn p n r s) hc ?_
    obtain ⟨x, reason⟩ := exists_endReasonOf small
    rw [endTurnBlock, reason, show (s.accept p _).turnOf n.toNat = none from turnOf_eq_none other]
    rfl
  case abort =>
    refine runs_unchanged rfl (exec_abortTurn p n s) hc ?_
    rw [abortTurnBlock, show (s.accept p _).turnOf n.toNat = none from turnOf_eq_none other]
    rfl
  case autoEnd =>
    split
    next valid =>
      refine ⟨_, runs_block rfl rfl hc ?_ (autoEnd_touches _ _) (by decide), rfl⟩
      rw [onOff_of_le valid]
      rfl
    next invalid =>
      refine runs_unchanged rfl rfl hc ?_
      rw [onOff_of_not_le invalid]
      rfl
  case wake => exact video_runs rfl rfl hc (wakeBlock_eq _)
  case overlay =>
    split
    next valid =>
      obtain ⟨ha, hb, hcc, hd⟩ := valid
      refine video_runs rfl rfl hc ?_
      rw [onOff_of_le ha, contentOf_of_le hb, onOff_of_le hcc, scopeOf_of_le hd]
      rfl
    next invalid =>
      refine runs_unchanged rfl rfl hc ?_
      by_cases ha : a.toNat ≤ 1
      · by_cases hb : b.toNat ≤ 2
        · by_cases hcc : c.toNat ≤ 1
          · have hd : ¬ d.toNat ≤ 1 := fun hd => invalid ⟨ha, hb, hcc, hd⟩
            rw [onOff_of_le ha, contentOf_of_le hb, onOff_of_le hcc, scopeOf_of_not_le hd]; rfl
          · rw [onOff_of_le ha, contentOf_of_le hb, onOff_of_not_le hcc]; rfl
        · rw [onOff_of_le ha, contentOf_of_not_le hb]; rfl
      · rw [onOff_of_not_le ha]; rfl
  case fmark =>
    split
    next valid =>
      refine video_runs rfl rfl hc ?_
      rw [onOff_of_le valid]
      rfl
    next invalid =>
      refine runs_unchanged rfl rfl hc ?_
      rw [onOff_of_not_le invalid]
      rfl

end Sys2Proof.Machine
end

section
/-! TAKE-TURN of a CALLED head (R46 to R49). -/

namespace Sys2Proof.Machine

/-- The turn on stage with its slot, clock and channels, before anything that shows follows. -/
def State.withTurn (s : State) (e : Entry) (i : Fin 4) : State :=
  State.setSlot { s with
    book := { s.book with entries := s.book.entries.drop 1, lowest := s.book.rotatedBy e }
    turn := some (e.turn i s.sessionTime)
    clock := s.clock.cue s.slots[i].track
    voice := s.voice.mapChannels Channel.turnStart } i { s.slots[i] with state := .onStage }

/-- The take up to its change of the Book. -/
def State.withTake (s : State) (e : Entry) (i : Fin 4) : State :=
  (s.withTurn e i).abortTone.endScoreShow.emptyWindow.requestRebuild.raise consoleVenue
    (.turnStarted e.ticket i)

theorem take_eq (s : State) (e : Entry) (i : Fin 4) :
    s.take e i = (s.withTake e i).bookChanged := rfl

theorem withTake_touches (s : State) (e : Entry) (i : Fin 4) :
    Touches [.voice, .notices, .lines, .cache] (s.withTurn e i) (s.withTake e i) :=
  (((((abortTone_touches _).mono rfl).trans ((endScoreShow_touches _).mono rfl)).trans
    ((emptyWindow_touches _).mono rfl)).trans ((requestRebuild_touches _).mono rfl)).trans
    ((raise_touches _ _ _).mono rfl)

theorem withTake_slot (s : State) (e : Entry) (i : Fin 4) :
    (s.withTake e i).slots[i] = { s.slots[i] with state := .onStage } := by
  rw [withTake_touches s e i .slots (by decide), State.withTurn, setSlot_slot_same]

theorem withTake_turn (s : State) (e : Entry) (i : Fin 4) :
    (s.withTake e i).turn = some (e.turn i s.sessionTime) :=
  withTake_touches s e i .turn (by decide)

theorem withTake_entries {s : State} {e : Entry} {rest : List Entry} (h : s.book.entries = e :: rest)
    (i : Fin 4) : (s.withTake e i).book =
      { s.book with entries := rest, lowest := s.book.rotatedBy e } := by
  rw [withTake_touches s e i .book (by decide)]
  exact congrArg (fun es : List Entry =>
    { s.book with entries := es.drop 1, lowest := s.book.rotatedBy e }) h

theorem withTake_lines (s : State) (e : Entry) (i : Fin 4) :
    (s.withTake e i).lines.window = [] ∧ (s.withTake e i).lines.pending = [] ∧
      (s.withTake e i).lines.scroll = none ∧ (s.withTake e i).lines.scoreShow = none := by
  rw [State.withTake, raise_touches _ _ _ .lines (by decide), requestRebuild_lines, emptyWindow_lines,
    endScoreShow_lines]
  exact ⟨rfl, rfl, rfl, rfl⟩

theorem withTake_voice (s : State) (e : Entry) (i : Fin 4) :
    (s.withTake e i).voice = (s.withTurn e i).abortTone.voice := by
  rw [State.withTake, raise_voice, requestRebuild_touches _ .voice (by decide),
    emptyWindow_touches _ .voice (by decide), endScoreShow_touches _ .voice (by decide)]

/-- Once a turn is on stage, a change of the Book calls nobody. -/
theorem take_changed (s : State) (e : Entry) (i : Fin 4) :
    s.take e i = (s.withTake e i).changed.retitle :=
  State.NoCall.testCall (s := (s.withTake e i).changed) (.inl (by
    rw [changed_touches _ .turn (by decide), withTake_turn]; exact nofun))

theorem rotatedBy_eq (b : Book) (e : Entry) :
    b.rotatedBy e = if e.tier = .normal ∧ b.rotateOnTake = true then e.origin else b.lowest := by
  simp [Book.rotatedBy]

theorem take_book {s : State} {e : Entry} {rest : List Entry} (h : s.book.entries = e :: rest)
    (i : Fin 4) : (s.take e i).book = { s.book with entries := rest, lowest := s.book.rotatedBy e } := by
  rw [take_changed, retitle_book, changed_book, withTake_entries h]

theorem take_slot {s : State} {e : Entry} {rest : List Entry} {i : Fin 4}
    (h : s.book.entries = e :: rest) (others : ∀ x ∈ rest, x.ticket ≠ e.ticket)
    (bound : s.slots[i].ticket = some e.ticket) :
    (s.take e i).slots[i] = { s.slots[i] with state := .onStage } := by
  rw [take_eq, bookChanged_slot, withTake_slot]
  · rw [withTake_slot]; exact nofun
  · intro x hx same
    rw [withTake_entries h] at hx
    rw [withTake_slot] at same
    exact others x (List.mem_of_mem_tail hx) (Option.some.inj (same.symm.trans bound))

theorem take_channel (s : State) (e : Entry) (i m : Fin 4) :
    (s.take e i).voice.channels[m] = s.voice.channels[m].turnStart := by
  rw [take_channels]
  exact Vector.getElem_map ..

theorem take_voice (s : State) (e : Entry) (i : Fin 4) :
    (s.take e i).voice = (s.withTurn e i).abortTone.voice := by
  rw [take_eq, bookChanged_touches _ .voice (by decide), withTake_voice]

theorem abortTone_tone (s : State) : s.abortTone.voice.tone = none := by
  unfold State.abortTone
  split
  next idle => exact idle
  next => rw [endTone_voice]

theorem abortTone_of_running {s : State} {t : ToneCheck} (h : s.voice.tone = some t) :
    s.abortTone.voice.lastTone = some (t.result .aborted) ∧
      ∀ q ∈ consoleVenue, s.abortTone.shows q (.toneDone t.mic .aborted) := by
  rw [State.abortTone, h]
  exact ⟨by rw [endTone_voice], fun q hq => raise_shows _ _ _ _ hq⟩

theorem take_lines (s : State) (e : Entry) (i : Fin 4) :
    (s.take e i).lines.window = [] ∧ (s.take e i).lines.pending = [] ∧
      (s.take e i).lines.scroll = none ∧ (s.take e i).lines.scoreShow = none ∧
      (s.take e i).lines.title = .stage i := by
  obtain ⟨window, pending, scroll, score⟩ := withTake_lines s e i
  have title := (retitle_titled (s.withTake e i).changed).1
  rw [titleChoice_of_turn (t := e.turn i s.sessionTime)
    (by rw [changed_touches _ .turn (by decide), withTake_turn])] at title
  obtain ⟨_, _, _, lines⟩ := retitle_lines (s.withTake e i).changed
  rw [take_changed]
  refine ⟨?_, ?_, ?_, ?_, title⟩ <;> rw [lines, changed_lines] <;> assumption

/-- What the take raises before its change of the Book stays pending. -/
theorem take_keeps {c : Fin 16} (h1 : c ≠ 1) (h4 : c ≠ 4) (h9 : c ≠ 9) (s : State) (e : Entry)
    (i : Fin 4) : Keeps c (s.withTake e i) (s.take e i) := keeps_bookChanged h4 h9 h1 _

theorem take_shows_started (s : State) (e : Entry) (i : Fin 4) {q : Port} (hq : q ∈ consoleVenue) :
    (s.take e i).shows q (.turnStarted e.ticket i) :=
  (take_keeps (c := 6) (by decide) (by decide) (by decide) s e i).shows rfl (raise_shows _ _ _ _ hq)

theorem take_shows_queue {s : State} {e : Entry} {rest : List Entry} (h : s.book.entries = e :: rest)
    (i : Fin 4) {q : Port} (hq : q ∈ consoleVenue) :
    (s.take e i).shows q (.queueChanged rest.length) := by
  have shown := bookChanged_shows_queue (s.withTake e i) q hq
  rwa [← take_eq, take_book h] at shown

/-- What the take does after the tone check's end keeps every class but those of the turn's start and of
the Book. -/
theorem take_keeps_tone {c : Fin 16} (h1 : c ≠ 1) (h4 : c ≠ 4) (h6 : c ≠ 6) (h9 : c ≠ 9) (s : State)
    (e : Entry) (i : Fin 4) : Keeps c (s.withTurn e i).abortTone (s.take e i) := by
  refine Keeps.trans ?_ (take_keeps h1 h4 h9 s e i)
  refine Keeps.trans (keeps_touches (ks := [.lines, .cache]) ?_ (by decide)) (keeps_raise _ _ _ h6)
  exact (((endScoreShow_touches _).mono rfl).trans ((emptyWindow_touches _).mono rfl)).trans
    ((requestRebuild_touches _).mono rfl)

theorem take_shows_tone {s : State} {t : ToneCheck} (h : s.voice.tone = some t) (e : Entry) (i : Fin 4)
    {q : Port} (hq : q ∈ consoleVenue) : (s.take e i).shows q (.toneDone t.mic .aborted) :=
  (take_keeps_tone (c := 15) (by decide) (by decide) (by decide) (by decide) s e i).shows rfl
    ((abortTone_of_running (s := s.withTurn e i) h).2 q hq)

theorem abortTone_playback (s : State) (c : Fin 16) :
    (s.abortTone.port .playback).notices[c] = (s.port .playback).notices[c] := by
  unfold State.abortTone
  split
  · rfl
  · rw [State.endTone, raise_port_other _ _ (by decide)]; rfl

/-- TURN_STARTED does not go to the playback port (R49). -/
theorem take_playback (s : State) (e : Entry) (i : Fin 4) :
    ((s.take e i).port .playback).notices[(6 : Fin 16)] = (s.port .playback).notices[(6 : Fin 16)] := by
  have lines : Touches [.lines, .cache] (s.withTurn e i).abortTone
      (s.withTurn e i).abortTone.endScoreShow.emptyWindow.requestRebuild :=
    (((endScoreShow_touches _).mono rfl).trans ((emptyWindow_touches _).mono rfl)).trans
      ((requestRebuild_touches _).mono rfl)
  rw [take_keeps (c := 6) (by decide) (by decide) (by decide) s e i .playback, State.withTake,
    raise_port_other _ _ (by decide), keeps_touches (c := 6) lines (by decide) .playback,
    abortTone_playback]
  rfl

/-- Settles O25: the take is a change of the Book made with the turn already on stage, so that it calls
nobody and its pass leaves the turn's slot alone. -/
theorem takeTurnTakesTheCalledHead : Obligations.TakeTurnTakesTheCalledHead := by
  refine fun s p e rest i hc stage entries called bound others => ?_
  have head : s.book.calledHead = some e := by simp [Book.calledHead, entries, called]
  let u := s.accept p ⟨0x13, []⟩
  have taken : takeBlock u =
      ⟨u.take e i, .ok, be16 e.ticket ++ be24 e.songId ++ be8 i.val⟩ :=
    takeBlock_of_called (s := u) stage head bound
  have clock : (u.take e i).clock = s.clock.cue s.slots[i].track := take_clock u e i
  obtain ⟨window, pending, scroll, score, title⟩ := take_lines u e i
  have started : ∀ q ∈ consoleVenue, _ := fun q hq => take_shows_started u e i (q := q) hq
  have queue : ∀ q ∈ consoleVenue, _ := fun q hq => take_shows_queue (s := u) entries i (q := q) hq
  refine ⟨_, runs_block rfl rfl hc taken ((take_touches_takePieces _ _ _).mono rfl) (by decide),
    (take_book_turn u e i).2.2, ?book, take_slot (s := u) entries others (boundSlot_some bound),
    congrArg Clock.state clock, congrArg Clock.position clock, congrArg Clock.accumulator clock,
    congrArg Clock.tempo clock, congrArg Clock.key clock, (congrArg Clock.slipWindow clock :),
    congrArg Clock.lastSync clock, (congrArg Clock.endTime clock :), take_channel u e i, ?idle, ?tone,
    window, pending, scroll, score, title, reply_shows.mpr (started _ (by decide)),
    reply_shows.mpr (started _ (by decide)), reply_shows.mpr (queue _ (by decide)),
    reply_shows.mpr (queue _ (by decide)), ?playback⟩
  case book =>
    exact (take_book (s := u) entries i).trans (congrArg
      (fun n => { s.book with entries := rest, lowest := n }) (rotatedBy_eq s.book e))
  case idle =>
    exact (congrArg Voice.tone (take_voice u e i)).trans (abortTone_tone _)
  case tone =>
    intro t running
    have last : (u.take e i).voice.lastTone = some (t.result .aborted) :=
      (congrArg Voice.lastTone (take_voice u e i)).trans
        (abortTone_of_running (s := u.withTurn e i) running).1
    exact ⟨congrArg (Option.map ToneResult.outcome) last,
      reply_shows.mpr (take_shows_tone (s := u) running e i (by decide)),
      reply_shows.mpr (take_shows_tone (s := u) running e i (by decide))⟩
  case playback =>
    rw [reply_notices, take_playback, accept_port_notices]

end Sys2Proof.Machine
end

section
/-! The end of a turn: what it tallies, files, clears, raises and calls (R54 to R58, R178). -/

namespace Sys2Proof.Machine

/-! ## The tally of all open notes (R167) -/

/-- The part of one mic in the tally of all open notes. -/
def State.tallyJudging (s : State) (m : Fin 4) : State := if s.judging m then s.tallyOpen m else s

theorem tallyJudging_onlyMic (s : State) (m : Fin 4) : OnlyMic m s (s.tallyJudging m) :=
  OnlyMic.ite (tallyOpen_onlyMic s m) (.refl m s)

/-- A mic's channel and marks after the tally of all open notes are those its own part makes. -/
theorem tallyAllOpen_mic (s : State) (m : Fin 4) :
    ∃ u, SameMic m s u ∧ SameMic m (u.tallyJudging m) s.tallyAllOpen :=
  foldl_micNumbers (f := State.tallyJudging) tallyJudging_onlyMic m s

theorem tallyAllOpen_channel (s : State) (m : Fin 4) : s.tallyAllOpen.voice.channels[m] =
    if s.judging m then
      match s.voice.channels[m].openNote with
      | none => s.voice.channels[m]
      | some o => s.voice.channels[m].tallied o.index (s.noteMark m o.index).isSome
    else s.voice.channels[m] := by
  obtain ⟨u, before, after⟩ := tallyAllOpen_mic s m
  rw [after.channel, State.tallyJudging, before.judging]
  split
  · rw [tallyOpen_channel, before.channel]
    cases s.voice.channels[m].openNote with
    | none => rfl
    | some o => simp only [before.marks]
  · exact before.channel

theorem tallyAllOpen_openNote (s : State) (m : Fin 4) :
    s.tallyAllOpen.voice.channels[m].openNote = none ∨
      (s.voice.channels[m].enabled = true → s.voice.channels[m].frozen = true) := by
  by_cases judging : s.judging m = true
  · refine .inl ?_
    obtain ⟨u, before, after⟩ := tallyAllOpen_mic s m
    rw [after.channel, State.tallyJudging, before.judging, if_pos judging, tallyOpen_openNote]
  · exact .inr (by simpa [State.judging] using judging)

theorem tallyAllOpen_takingPart (s : State) (m : Fin 4) :
    s.tallyAllOpen.voice.channels[m].takingPart = s.voice.channels[m].takingPart := by
  rw [tallyAllOpen_channel]
  split
  · split <;> rfl
  · rfl

/-- Two states alike in all that a tally reads and changes. -/
structure SameTally (s u : State) : Prop where
  stage : u.turn.map (·.slot) = s.turn.map (·.slot)
  slots : u.slots = s.slots
  voice : u.voice = s.voice

theorem SameTally.noteMark {s u : State} (h : SameTally s u) (m : Fin 4) (n : Nat) :
    u.noteMark m n = s.noteMark m n := by
  have stage := h.stage
  unfold State.noteMark
  rw [h.slots]
  cases hs : s.turn <;> cases hu : u.turn <;> simp_all

theorem SameTally.judging {s u : State} (h : SameTally s u) (m : Fin 4) :
    u.judging m = s.judging m := by rw [State.judging, State.judging, h.voice]

theorem SameTally.setMark {s u : State} (h : SameTally s u) (m : Fin 4) (n : Nat) (x : TallyMark) :
    SameTally (s.setMark m n x) (u.setMark m n x) := by
  have stage := h.stage
  unfold State.setMark
  cases hs : s.turn with
  | none =>
    rw [hs] at stage
    rw [Option.map_eq_none_iff.mp stage]
    exact h
  | some t =>
    rw [hs] at stage
    obtain ⟨t', ht', slot⟩ := Option.map_eq_some_iff.mp stage
    rw [ht']
    refine ⟨h.stage, ?_, h.voice⟩
    simp only [State.setSlot, h.slots, slot]

theorem SameTally.setChannel {s u : State} (h : SameTally s u) (m : Fin 4) (c : Channel) :
    SameTally (s.setChannel m c) (u.setChannel m c) :=
  ⟨h.stage, h.slots, congrArg
    (fun v : Voice => { v with channels := v.channels.set m.val c m.isLt }) h.voice⟩

theorem SameTally.tally {s u : State} (h : SameTally s u) (m : Fin 4) (n : Nat) :
    SameTally (s.tally m n) (u.tally m n) := by
  rw [tally_eq, tally_eq, h.noteMark, h.voice]
  refine SameTally.setChannel ?_ _ _
  split
  · exact h
  · exact h.setMark _ _ _

theorem SameTally.tallyJudging {s u : State} (h : SameTally s u) (m : Fin 4) :
    SameTally (s.tallyJudging m) (u.tallyJudging m) := by
  unfold State.tallyJudging State.tallyOpen
  rw [h.judging, h.voice]
  split
  · split
    · exact h
    · exact h.tally _ _
  · exact h

theorem SameTally.foldl {f : State → Fin 4 → State}
    (hf : ∀ s u m, SameTally s u → SameTally (f s m) (f u m)) (ms : List (Fin 4)) {s u : State}
    (h : SameTally s u) : SameTally (ms.foldl f s) (ms.foldl f u) := by
  induction ms generalizing s u with
  | nil => exact h
  | cons m ms ih => exact ih (hf s u m h)

theorem SameTally.tallyAllOpen {s u : State} (h : SameTally s u) :
    SameTally s.tallyAllOpen u.tallyAllOpen :=
  .foldl (f := State.tallyJudging) (fun _ _ m h => h.tallyJudging m) micNumbers h

/-! ## The result record (R178, R179) -/

/-- A channel's record with its final score. -/
def Channel.resultFor (c : Channel) (m : Fin 4) (track : Option Track) (g : Scoring) : ChannelResult :=
  { mic := m, part := c.part, assessed := c.assessed track, judged := c.judged, hits := c.hits
    strays := c.strays, notes := c.notes, kept := c.kept, final := finalScore g c
    lockCount := c.lockCount, flags := c.flags, firstMiss := c.firstMiss }

theorem channelResult_eq (s : State) (m : Fin 4) :
    s.channelResult m = s.voice.channels[m].resultFor m s.stageTrack s.voice.scoring := rfl

/-- The channel results at a turn's end, told by the state before it. -/
def State.endResults (s : State) : List ChannelResult :=
  (micNumbers.filter fun m => s.voice.channels[m].takingPart).map fun m =>
    s.tallyAllOpen.voice.channels[m].resultFor m s.stageTrack s.voice.scoring

/-- The record that a turn's end files. -/
def State.endRecord (s : State) (t : Turn) (reason : EndReason) : ResultRecord :=
  { ticket := t.ticket, songId := t.songId, origin := t.origin, tag := t.tag, reason := reason
    flags := t.flags, key := s.clock.key, startedAt := t.startedAt, endedAt := s.sessionTime
    headline := headlineOf (s.endResults.filterMap (·.final)), channels := s.endResults
    collected := false }

theorem tallyAllOpen_results (s : State) : s.tallyAllOpen.channelResults = s.endResults := by
  have marking := tallyAllOpen_marking s
  have result : s.tallyAllOpen.channelResult = fun m =>
      s.tallyAllOpen.voice.channels[m].resultFor m s.stageTrack s.voice.scoring := by
    funext m
    rw [channelResult_eq, marking.stageTrack, marking.scoring]
  rw [State.channelResults, State.endResults, result]
  simp only [tallyAllOpen_takingPart]

theorem tallyAllOpen_resultOf (s : State) (t : Turn) (reason : EndReason) :
    s.tallyAllOpen.resultOf t reason = s.endRecord t reason := by
  have clock : s.tallyAllOpen.clock = s.clock := tallyAllOpen_touches s .clock (by decide)
  have time : s.tallyAllOpen.sessionTime = s.sessionTime :=
    tallyAllOpen_touches s .sessionTime (by decide)
  rw [State.resultOf, State.endRecord, tallyAllOpen_results, clock, time]

theorem endTurn_ring (s : State) (t : Turn) (r : EndReason) (b : Bool) : (s.endTurn t r b).ring =
    (if s.ring.any (fun x => x.ticket = t.ticket) then s.ring.filter fun x => x.ticket ≠ t.ticket
      else if Config.ringSize ≤ s.ring.length then s.ring.drop 1 else s.ring) ++
        [s.endRecord t r] := by
  have ring : s.tallyAllOpen.ring = s.ring := tallyAllOpen_touches s .ring (by decide)
  rw [endTurn_after_file s t r b .ring (by decide), file_ring, makeRoom_ring, ring,
    tallyAllOpen_resultOf]
  rfl

theorem endTurn_best (s : State) (t : Turn) (r : EndReason) (b : Bool) :
    (s.endTurn t r b).best = (s.endRecord t r).offer s.best := by
  have best : s.tallyAllOpen.best = s.best := tallyAllOpen_touches s .best (by decide)
  rw [endTurn_after_file s t r b .best (by decide), file_best, tallyAllOpen_resultOf, best]

/-! ## The steps of the end (R55 to R57) -/

/-- The turn's record filed and its slot in SCRUB. -/
def State.withFiled (s : State) (t : Turn) (r : EndReason) : State :=
  (s.tallyAllOpen.file (s.endRecord t r)).scrubSlot t.slot

/-- The window empty, the score show started and the stage EMPTY. -/
def State.withCleared (s : State) (t : Turn) (r : EndReason) : State :=
  { (State.emptyWindow { s.withFiled t r with clock := (s.withFiled t r).clock.stop }).startScoreShow
      (s.endRecord t r).headline with turn := none }

/-- The end of a turn up to its test of the calling condition. -/
def State.withEnd (s : State) (t : Turn) (r : EndReason) (toPlayback : Bool) : State :=
  (s.withCleared t r).raise (if toPlayback then allPorts else consoleVenue) (.turnEnded t.ticket r)

theorem endTurn_eq (s : State) (t : Turn) (r : EndReason) (b : Bool) :
    s.endTurn t r b = (s.withEnd t r b).testCall := by
  rw [State.withEnd, State.withCleared, State.withFiled, ← tallyAllOpen_resultOf]
  rfl

theorem withCleared_touches (s : State) (t : Turn) (r : EndReason) :
    Touches [.clock, .lines, .cache, .turn] (s.withFiled t r) (s.withCleared t r) :=
  ((((clock_touches _ _).mono rfl).trans ((emptyWindow_touches _).mono rfl)).trans
    ((startScoreShow_touches _ _).mono rfl)).trans ((turn_touches _ _).mono rfl)

theorem withEnd_touches (s : State) (t : Turn) (r : EndReason) (b : Bool) :
    Touches [.notices] (s.withCleared t r) (s.withEnd t r b) := raise_touches _ _ _

theorem withEnd_touches_filed (s : State) (t : Turn) (r : EndReason) (b : Bool) :
    Touches [.clock, .lines, .cache, .turn, .notices] (s.withFiled t r) (s.withEnd t r b) :=
  ((withCleared_touches s t r).mono rfl).trans ((withEnd_touches s t r b).mono rfl)

theorem withFiled_touches (s : State) (t : Turn) (r : EndReason) :
    Touches [.slots, .voice, .ring, .best, .notices] s (s.withFiled t r) :=
  (((tallyAllOpen_touches s).mono rfl).trans ((file_touches _ _).mono rfl)).trans
    ((scrubSlot_touches _ _).mono rfl)

theorem withEnd_book (s : State) (t : Turn) (r : EndReason) (b : Bool) :
    (s.withEnd t r b).book = s.book := by
  rw [withEnd_touches_filed s t r b .book (by decide), withFiled_touches s t r .book (by decide)]

theorem withEnd_turn (s : State) (t : Turn) (r : EndReason) (b : Bool) :
    (s.withEnd t r b).turn = none := raise_touches _ _ _ .turn (by decide)

theorem withEnd_slots (s : State) (t : Turn) (r : EndReason) (b : Bool) :
    (s.withEnd t r b).slots = (s.tallyAllOpen.scrubSlot t.slot).slots := by
  have filed : (s.tallyAllOpen.file (s.endRecord t r)).slots = s.tallyAllOpen.slots :=
    file_touches _ _ .slots (by decide)
  rw [withEnd_touches_filed s t r b .slots (by decide), State.withFiled, State.scrubSlot, filed]
  exact congrArg (fun x : Vector Slot 4 => x.set t.slot.val _ t.slot.isLt) filed

theorem withEnd_slot (s : State) (t : Turn) (r : EndReason) (b : Bool) :
    (s.withEnd t r b).slots[t.slot].state = .scrub ∧
      (s.withEnd t r b).slots[t.slot].ticket = none := by
  rw [withEnd_slots, State.scrubSlot, setSlot_slot_same]
  exact ⟨rfl, rfl⟩

theorem withEnd_slot_other (s : State) (t : Turn) (r : EndReason) (b : Bool) {i : Fin 4}
    (h : i ≠ t.slot) : (s.withEnd t r b).slots[i].state = s.slots[i].state ∧
      (s.withEnd t r b).slots[i].ticket = s.slots[i].ticket := by
  rw [withEnd_slots, State.scrubSlot, setSlot_slot_other _ h, (tallyAllOpen_marking s).slots i]
  exact ⟨rfl, rfl⟩

/-- A slot that is not the turn's is the slot bound to a ticket after the end too. -/
theorem withEnd_boundSlot {s : State} {t : Turn} {n : Nat} {i : Fin 4}
    (bound : s.boundSlot n = some i) (other : i ≠ t.slot) (r : EndReason) (b : Bool) :
    (s.withEnd t r b).boundSlot n = some i := by
  rw [boundSlot_eq_some_iff_first] at bound ⊢
  refine ⟨(withEnd_slot_other s t r b other).2.trans bound.1, fun j hj => ?_⟩
  by_cases own : j = t.slot
  · rw [own, (withEnd_slot s t r b).2]; exact nofun
  · rw [(withEnd_slot_other s t r b own).2]; exact bound.2 j hj

theorem endTurn_slot (s : State) (t : Turn) (r : EndReason) (b : Bool) :
    (s.endTurn t r b).slots[t.slot].state = .scrub ∧ (s.endTurn t r b).slots[t.slot].ticket = none := by
  have ended := withEnd_slot s t r b
  rw [endTurn_eq, testCall_slot]
  · exact ended
  · rw [ended.1]; exact nofun
  · intro e _; rw [ended.2]; exact nofun

/-- The score show once a turn with this headline has ended. -/
def LineScheduler.scoredWith (l : LineScheduler) (headline : Option Nat) : Option ScoreShow :=
  match headline with
  | none => l.scoreShow
  | some h => if l.scoreHold = 0 then l.scoreShow else some { headline := h, left := l.scoreHold }

/-- What the score show's start leaves, with and without a headline (R121). -/
theorem startScoreShow_lines' (s : State) (headline : Option Nat) :
    (s.startScoreShow headline).lines = { s.lines with
      scoreShow := s.lines.scoredWith headline } := by
  cases headline with
  | none => rfl
  | some h =>
    by_cases shown : s.lines.scoreHold = 0
    · simp only [State.startScoreShow, LineScheduler.scoredWith, if_pos shown]
    · simp only [startScoreShow_lines h shown, LineScheduler.scoredWith, if_neg shown]

theorem withEnd_lines (s : State) (t : Turn) (r : EndReason) (b : Bool) : (s.withEnd t r b).lines =
    { s.lines with
      window := [], pending := [], scroll := none
      scoreShow := s.lines.scoredWith (s.endRecord t r).headline } := by
  have lines : (s.withFiled t r).lines = s.lines := withFiled_touches s t r .lines (by decide)
  have emptied : (State.emptyWindow { s.withFiled t r with clock := (s.withFiled t r).clock.stop }).lines
      = { s.lines with window := [], pending := [], scroll := none } := by
    rw [emptyWindow_lines]
    simp only [lines]
  rw [withEnd_touches s t r b .lines (by decide)]
  exact (startScoreShow_lines' _ _).trans (by rw [emptied]; rfl)

/-! ## Its notices -/

theorem file_shows (s : State) (x : ResultRecord) {q : Port} (hq : q ∈ consoleVenue) :
    (s.file x).shows q (.resultReady x.ticket x.reason x.headline) := raise_shows _ _ _ _ hq

theorem keeps_makeRoom {c : Fin 16} (h : c ≠ 8) (s : State) (n : Nat) : Keeps c s (s.makeRoom n) := by
  have lose : ∀ (u : State) (x : ResultRecord), Keeps c u (u.loseRecord x) := fun u x => by
    unfold State.loseRecord
    split
    · exact .refl u
    · exact keeps_raise _ _ _ h
  unfold State.makeRoom
  split
  · exact lose { s with ring := _ } _
  · split
    · split
      · exact lose { s with ring := _ } _
      · exact .refl s
    · exact .refl s

theorem keeps_file {c : Fin 16} (h7 : c ≠ 7) (h8 : c ≠ 8) (s : State) (x : ResultRecord) :
    Keeps c s (s.file x) :=
  (keeps_makeRoom h8 s x.ticket).trans (keeps_raise _ _ _ h7)

theorem keeps_withFiled {c : Fin 16} (h7 : c ≠ 7) (h8 : c ≠ 8) (s : State) (t : Turn) (r : EndReason) :
    Keeps c s (s.withFiled t r) :=
  ((keeps_touches (tallyAllOpen_touches s) (by decide)).trans (keeps_file h7 h8 _ _)).trans
    (keeps_touches (scrubSlot_touches _ _) (by decide))

theorem keeps_withCleared {c : Fin 16} (s : State) (t : Turn) (r : EndReason) :
    Keeps c (s.withFiled t r) (s.withCleared t r) :=
  keeps_touches (withCleared_touches s t r) (by decide)

theorem keeps_withEnd {c : Fin 16} (h3 : c ≠ 3) (h7 : c ≠ 7) (h8 : c ≠ 8) (s : State) (t : Turn)
    (r : EndReason) (b : Bool) : Keeps c s (s.withEnd t r b) :=
  ((keeps_withFiled h7 h8 s t r).trans (keeps_withCleared s t r)).trans (keeps_raise _ _ _ h3)

theorem endTurn_shows_ended (s : State) (t : Turn) (r : EndReason) (b : Bool) {q : Port}
    (hq : q ∈ if b then allPorts else consoleVenue) :
    (s.endTurn t r b).shows q (.turnEnded t.ticket r) := by
  rw [endTurn_eq]
  exact (keeps_testCall (c := 3) (by decide) (by decide) (by decide) _).shows rfl
    (raise_shows _ _ _ _ hq)

/-- TURN_ENDED goes to the playback port only where END-TURN has not ended the turn (R57). -/
theorem endTurn_playback (s : State) (t : Turn) (r : EndReason) :
    ((s.endTurn t r false).port .playback).notices[(3 : Fin 16)] =
      (s.port .playback).notices[(3 : Fin 16)] := by
  rw [endTurn_eq, keeps_testCall (c := 3) (by decide) (by decide) (by decide) _ .playback,
    State.withEnd, raise_port_other _ _ (by decide), keeps_withCleared s t r .playback,
    keeps_withFiled (c := 3) (by decide) (by decide) s t r .playback]

theorem endTurn_shows_result (s : State) (t : Turn) (r : EndReason) (b : Bool) {q : Port}
    (hq : q ∈ consoleVenue) :
    (s.endTurn t r b).shows q (.resultReady t.ticket r (s.endRecord t r).headline) := by
  rw [endTurn_eq]
  refine (keeps_testCall (c := 7) (by decide) (by decide) (by decide) _).shows rfl ?_
  refine (keeps_raise (c := 7) _ _ _ (by change (7 : Fin 16) ≠ 3; decide)).shows rfl ?_
  refine (keeps_withCleared (c := 7) s t r).shows rfl ?_
  exact (keeps_touches (c := 7) (scrubSlot_touches _ _) (by decide)).shows rfl
    (file_shows _ (s.endRecord t r) hq)

/-! ## The call that may follow (R55 step 9) -/

theorem withEnd_calls {s : State} {t : Turn} {e : Entry} {rest : List Entry} {i : Fin 4}
    (head : s.book.entries = e :: rest) (waiting : e.state = .waiting) (free : s.book.held = false)
    (bound : s.boundSlot e.ticket = some i) (other : i ≠ t.slot) (ready : s.slots[i].state = .ready)
    (r : EndReason) (b : Bool) : (s.withEnd t r b).Calls e rest i where
  stage := withEnd_turn s t r b
  free := by rw [withEnd_book]; exact free
  head := by rw [withEnd_book]; exact head
  waiting := waiting
  bound := withEnd_boundSlot bound other r b
  ready := (withEnd_slot_other s t r b other).1.trans ready

theorem withEnd_noCall {s : State} {t : Turn} (idle : s.book.held = true ∨ s.book.entries = [] ∨
    ∃ e rest, s.book.entries = e :: rest ∧ (e.state = .called ∨
      ∀ j : Fin 4, s.slots[j].ticket = some e.ticket → s.slots[j].state = .ready → j = t.slot))
    (r : EndReason) (b : Bool) : (s.withEnd t r b).NoCall := by
  rw [State.NoCall, withEnd_book]
  refine .inr ?_
  rcases idle with held | empty | ⟨e, rest, entries, called | unready⟩
  · exact .inl held
  · exact .inr fun e rest entries => by rw [empty] at entries; cases entries
  · refine .inr fun e' rest' entries' => .inl ?_
    obtain ⟨rfl, rfl⟩ := List.cons.inj (entries.symm.trans entries')
    exact called
  · refine .inr fun e' rest' entries' => .inr fun i bound ready => ?_
    obtain ⟨rfl, rfl⟩ := List.cons.inj (entries.symm.trans entries')
    by_cases own : i = t.slot
    · rw [own, (withEnd_slot s t r b).1] at ready; cases ready
    · have ticket := boundSlot_some bound
      rw [(withEnd_slot_other s t r b own).2] at ticket
      rw [(withEnd_slot_other s t r b own).1] at ready
      exact own (unready i ticket ready)

/-! ## END-TURN and ABORT-TURN (R51, R53) -/

theorem endResults_congr {s u : State} (turn : u.turn = s.turn) (slots : u.slots = s.slots)
    (voice : u.voice = s.voice) : u.endResults = s.endResults := by
  have tallied : SameTally s u := ⟨by rw [turn], slots, voice⟩
  have track : u.stageTrack = s.stageTrack := by rw [State.stageTrack, State.stageTrack, turn, slots]
  rw [State.endResults, State.endResults, tallied.tallyAllOpen.voice, track, voice]

/-- Both commands that end a turn come to the same block. -/
theorem ending_taken {s : State} {p : Port} {t : Turn} {i : Instr} {reason : EndReason}
    (stage : s.turn = some t) (ticket : t.ticket ≠ 0)
    (command : (∃ (n : BitVec 16) (r : Byte), n.toNat = t.ticket ∧ i = .endTurn p n r ∧
        ((r = 0 ∧ reason = .complete) ∨ (r = 1 ∧ reason = .skipped) ∨ (r = 2 ∧ reason = .failed))) ∨
      (∃ n : BitVec 16, n.toNat = t.ticket ∧ i = .abortTurn p n ∧ reason = .aborted)) :
    ∃ f block, frameOf i = some (p, f) ∧ exec i s = clientCommand i s block ∧
      block (s.accept p f) = ⟨(s.accept p f).endTurn t reason (decide (reason = .aborted)), .ok,
        be16 t.ticket⟩ := by
  rcases command with ⟨n, r, hn, rfl, reasons⟩ | ⟨n, hn, rfl, rfl⟩
  · have reads : endReasonOf r = some reason := by
      rcases reasons with ⟨rfl, rfl⟩ | ⟨rfl, rfl⟩ | ⟨rfl, rfl⟩ <;> rfl
    have stays : decide (reason = .aborted) = false := by
      rcases reasons with ⟨-, rfl⟩ | ⟨-, rfl⟩ | ⟨-, rfl⟩ <;> rfl
    have own : (s.accept p ⟨0x14, be16 n.toNat ++ [r]⟩).turnOf n.toNat = some t :=
      turnOf_eq_some_iff.mpr ⟨stage, hn.symm, hn ▸ ticket⟩
    refine ⟨_, _, rfl, exec_endTurn p n r s, ?_⟩
    rw [stays, endTurnBlock, reads, own]
    rfl
  · have own : (s.accept p ⟨0x15, be16 n.toNat⟩).turnOf n.toNat = some t :=
      turnOf_eq_some_iff.mpr ⟨stage, hn.symm, hn ▸ ticket⟩
    refine ⟨_, _, rfl, exec_abortTurn p n s, ?_⟩
    rw [abortTurnBlock, own]
    rfl

theorem endTurn_lines (s : State) (t : Turn) (r : EndReason) (b : Bool) :
    (s.endTurn t r b).lines.window = [] ∧ (s.endTurn t r b).lines.pending = [] ∧
      (s.endTurn t r b).lines.scroll = none ∧
      (s.endTurn t r b).lines.scoreShow = s.lines.scoredWith (s.endRecord t r).headline := by
  obtain ⟨title, rows, hinted, lines⟩ := testCall_lines (s.withEnd t r b)
  rw [endTurn_eq, lines, withEnd_lines]
  exact ⟨rfl, rfl, rfl, rfl⟩

theorem endTurn_calls {s : State} {t : Turn} {e : Entry} {rest : List Entry} {i : Fin 4}
    (head : s.book.entries = e :: rest) (waiting : e.state = .waiting) (free : s.book.held = false)
    (bound : s.boundSlot e.ticket = some i) (other : i ≠ t.slot) (ready : s.slots[i].state = .ready)
    (r : EndReason) (b : Bool) :
    (s.endTurn t r b).book = { s.book with entries := { e with state := .called } :: rest } ∧
      (s.endTurn t r b).shows .playback (.call e.ticket i) ∧
      ∀ q ∈ consoleVenue, (s.endTurn t r b).shows q (.queueChanged s.book.entries.length) := by
  have calls := withEnd_calls head waiting free bound other ready r b
  rw [endTurn_eq, ← withEnd_book s t r b]
  exact ⟨calls.testCall_book, calls.testCall_shows_call, fun q hq => calls.testCall_shows_queue hq⟩

theorem endTurn_idle {s : State} {t : Turn} (idle : s.book.held = true ∨ s.book.entries = [] ∨
    ∃ e rest, s.book.entries = e :: rest ∧ (e.state = .called ∨
      ∀ j : Fin 4, s.slots[j].ticket = some e.ticket → s.slots[j].state = .ready → j = t.slot))
    (r : EndReason) (b : Bool) : (s.endTurn t r b).book = s.book ∧ Keeps 9 s (s.endTurn t r b) := by
  rw [endTurn_eq, (withEnd_noCall idle r b).testCall]
  exact ⟨(retitle_book _).trans (withEnd_book s t r b),
    (keeps_withEnd (by decide) (by decide) (by decide) s t r b).trans
      (keeps_touches (retitle_touches _) (by decide))⟩

theorem endTurn_openNote (s : State) (t : Turn) (r : EndReason) (b : Bool) (m : Fin 4) :
    (s.endTurn t r b).voice.channels[m].openNote = none ∨
      (s.voice.channels[m].enabled = true → s.voice.channels[m].frozen = true) := by
  rw [endTurn_voice]
  exact tallyAllOpen_openNote s m

/-- The pieces that the end of a turn touches. -/
def endPieces : List Piece :=
  [.book, .turn, .slots, .clock, .lines, .cache, .voice, .ring, .best, .notices]

theorem endTurn_touches_endPieces (s : State) (t : Turn) (r : EndReason) (b : Bool) :
    Touches endPieces s (s.endTurn t r b) :=
  (((tallyAllOpen_touches s).mono rfl).trans ((file_touches _ _).mono rfl)).trans
    ((endTurn_after_file s t r b).mono rfl)

/-- Settles O27: the end is made of the tally, the filing and the clearing of what the turn held, none of
which reads or changes the Book, and then of the test of the calling condition. -/
theorem endingATurnFilesAndClears : Obligations.EndingATurnFilesAndClears := by
  refine fun s p t i reason stage hc ticket command => ?_
  intro results record kept
  obtain ⟨f, block, hf, he, taken⟩ := ending_taken stage ticket command
  have filed : (s.accept p f).endRecord t reason = record := by
    have results_eq : (s.accept p f).endResults = results := by
      rw [endResults_congr (s := s) (u := s.accept p f) rfl rfl rfl, State.endResults,
        State.stageTrack, stage]
      rfl
    rw [State.endRecord, results_eq]
    rfl
  let b := decide (reason = .aborted)
  have ring := endTurn_ring (s.accept p f) t reason b
  have best := endTurn_best (s.accept p f) t reason b
  have clock : _ = s.clock.stop := endTurn_clock (s.accept p f) t reason b
  obtain ⟨window, pending, scroll, score⟩ := endTurn_lines (s.accept p f) t reason b
  obtain ⟨order, -, turn⟩ := endTurn_book_turn (s.accept p f) t reason b
  obtain ⟨scrubbed, unbound⟩ := endTurn_slot (s.accept p f) t reason b
  have result := fun q hq => endTurn_shows_result (s.accept p f) t reason b (q := q) hq
  have ended := fun q hq => endTurn_shows_ended (s.accept p f) t reason b (q := q) hq
  have closed := endTurn_openNote (s.accept p f) t reason b
  have calls := fun e rest j h1 h2 h3 h4 h5 h6 => endTurn_calls (s := s.accept p f) (t := t) (e := e)
    (rest := rest) (i := j) h1 h2 h3 h4 h5 h6 reason b
  have idle := fun h => endTurn_idle (s := s.accept p f) (t := t) h reason b
  have playback : reason ≠ .aborted → _ := fun other => by
    have quiet := endTurn_playback (s.accept p f) t reason
    rwa [← decide_eq_false other] at quiet
  have touches := endTurn_touches_endPieces (s.accept p f) t reason b
  rw [filed] at ring best score result
  change block (s.accept p f) = ⟨(s.accept p f).endTurn t reason b, _, _⟩ at taken
  generalize (s.accept p f).endTurn t reason b = v at *
  refine ⟨_, runs_block hf he hc taken (touches.mono rfl) (by decide), turn, ring.trans ?ring,
    best, scrubbed, unbound, congrArg Clock.state clock, congrArg Clock.position clock,
    congrArg Clock.tempo clock, congrArg Clock.key clock, (congrArg Clock.slipWindow clock :),
    window, pending, scroll, fun h headline shown => score.trans ?shown,
    fun headline => score.trans ?unshown, closed, order, fun e rest j h1 h2 h3 h4 h5 h6 => ?calls,
    fun nobody => ?idle, reply_shows.mpr (result _ (by decide)), reply_shows.mpr (result _ (by decide)),
    reply_shows.mpr (ended _ ?_), reply_shows.mpr (ended _ ?_), ?playback⟩
  case ring => rw [List.drop_one]; rfl
  case shown =>
    rw [headline]
    exact if_neg shown
  case unshown => rw [headline]; rfl
  case calls =>
    obtain ⟨book, call, queue⟩ := calls e rest j h1 h2 h3 h4 h5 h6
    exact ⟨book, reply_shows.mpr call, reply_shows.mpr (queue _ (by decide)),
      reply_shows.mpr (queue _ (by decide))⟩
  case idle =>
    obtain ⟨book, keeps⟩ := idle nobody
    refine ⟨book, fun q => ?_⟩
    rw [reply_notices, keeps q, accept_port_notices]
  case playback =>
    split
    next aborted => exact reply_shows.mpr (ended _ (by rw [if_pos (decide_eq_true aborted)]; decide))
    next other => rw [reply_notices, playback other, accept_port_notices]
  all_goals cases b <;> decide

end Sys2Proof.Machine
end

section
/-! Transport, tempo and key, and the jumps of SEEK and SYNC (R85 to R96). -/

namespace Sys2Proof.Machine

@[simp] theorem accept_clock (s : State) (p : Port) (f : Frame) : (s.accept p f).clock = s.clock := rfl

/-! ## Settings of the clock with their turn flags (R94, R96) -/

theorem flagTurn_turn (s : State) (f : TurnFlags → TurnFlags) :
    (s.flagTurn f).turn = s.turn.map fun t => { t with flags := f t.flags } := by
  unfold State.flagTurn
  cases stage : s.turn with
  | none => exact stage
  | some t => rfl

/-- A clock setting that flags the turn where it changes the value in force. -/
def State.withSetting (s : State) (c : Clock) (same : Bool) (f : TurnFlags → TurnFlags) : State :=
  if same then { s with clock := c } else State.flagTurn { s with clock := c } f

theorem withSetting_touches (s : State) (c : Clock) (same : Bool) (f : TurnFlags → TurnFlags) :
    Touches [.clock, .turn] s (s.withSetting c same f) := by
  unfold State.withSetting
  split
  · exact (clock_touches _ _).mono rfl
  · exact ((clock_touches _ _).mono rfl).trans ((flagTurn_touches _ _).mono rfl)

theorem withSetting_clock (s : State) (c : Clock) (same : Bool) (f : TurnFlags → TurnFlags) :
    (s.withSetting c same f).clock = c := by
  unfold State.withSetting
  split
  · rfl
  · exact flagTurn_clock _ _

theorem withSetting_turn (s : State) (c : Clock) (same : Bool) (f : TurnFlags → TurnFlags) :
    (s.withSetting c same f).turn =
      s.turn.map fun t => { t with flags := if same then t.flags else f t.flags } := by
  unfold State.withSetting
  cases same with
  | true => exact (Option.map_id' (x := s.turn)).symm
  | false => exact flagTurn_turn _ _

/-- A client command of the clock whose block makes a setting. -/
theorem setting_runs {i : Instr} {p : Port} {f : Frame} {s : State} {r : ResultCode} {d : List Byte}
    {block : State → Taken} {c : Clock} {same : Bool} {g : TurnFlags → TurnFlags}
    (hf : frameOf i = some (p, f)) (he : exec i s = clientCommand i s block) (hc : s.canTake i = true)
    (taken : block (s.accept p f) = ⟨(s.accept p f).withSetting c same g, r, d⟩) :
    ∃ u, Runs i [.clock, .turn] r d s u ∧ u.clock = c ∧
      u.turn = s.turn.map fun t => { t with flags := if same then t.flags else g t.flags } :=
  ⟨_, runs_block hf he hc taken (withSetting_touches _ _ _ _) (by decide), withSetting_clock _ _ _ _,
    withSetting_turn (s.accept p f) c same g⟩

theorem setTempoBlock_eq {s : State} (moving : s.clock.state ≠ .stopped) (n : Nat) :
    setTempoBlock n s = ⟨s.withSetting { s.clock with tempo := clampNat 750 1250 n }
      (decide (clampNat 750 1250 n = s.clock.tempo)) (fun f => { f with tempoChanged := true }),
      okCode (outside 750 1250 n), be16 (clampNat 750 1250 n)⟩ := by
  rw [setTempoBlock, if_neg moving, State.withSetting]
  simp only [decide_eq_true_eq]
  rfl

theorem setKeyBlock_eq {s : State} (moving : s.clock.state ≠ .stopped) (n : Int) :
    setKeyBlock n s = ⟨s.withSetting { s.clock with key := clampInt (-7) 7 n }
      (decide (clampInt (-7) 7 n = s.clock.key)) (fun f => { f with keyChanged := true }),
      okCode (clampInt (-7) 7 n ≠ n), beInt8 (clampInt (-7) 7 n)⟩ := by
  rw [setKeyBlock, if_neg moving, State.withSetting]
  simp only [decide_eq_true_eq]
  rfl

theorem setTempoBlock_of_stopped {s : State} (stopped : s.clock.state = .stopped) (n : Nat) :
    setTempoBlock n s = ⟨s, .state, []⟩ := if_pos stopped

theorem setKeyBlock_of_stopped {s : State} (stopped : s.clock.state = .stopped) (n : Int) :
    setKeyBlock n s = ⟨s, .state, []⟩ := if_pos stopped

theorem clampInt_eq {lo hi : Int} (h : lo ≤ hi) (n : Int) :
    clampInt lo hi n = if n < lo then lo else min n hi := by
  rw [clampInt]; split <;> omega

theorem okCode_of_clampInt {lo hi : Int} (n : Int) (h : lo ≤ hi) :
    okCode (clampInt lo hi n ≠ n) = if lo ≤ n ∧ n ≤ hi then .ok else .okClamped := by
  refine okCode_eq ?_
  rw [decide_eq_true_iff, clampInt_eq h]
  split <;> omega

/-! ## Transport (R85) -/

theorem transportBlock_of_state {s : State} {whenIn goesTo : ClockState} (h : s.clock.state = whenIn) :
    transportBlock whenIn goesTo s = ⟨{ s with clock := { s.clock with state := goesTo } }, .ok,
      BitVec.ofNat 8 goesTo.place :: be32 s.clock.position⟩ := if_pos h

theorem transportBlock_of_other {s : State} {whenIn goesTo : ClockState} (h : s.clock.state ≠ whenIn) :
    transportBlock whenIn goesTo s = ⟨s, .state,
      BitVec.ofNat 8 s.clock.state.place :: be32 s.clock.position⟩ := if_neg h

/-- Settles O32: each command is one block, that tests the clock's state first. -/
theorem transportTempoAndKey : Obligations.TransportTempoAndKey := by
  refine ⟨fun s p i whenIn goesTo command hc => ?transport, fun s p =>
    ⟨fun x hc => ?tempo, fun x hc => ?key⟩⟩
  case transport =>
    obtain ⟨f, hf, he⟩ : ∃ f, frameOf i = some (p, f) ∧
        exec i s = clientCommand i s (transportBlock whenIn goesTo) := by
      rcases command with ⟨rfl, rfl, rfl⟩ | ⟨rfl, rfl, rfl⟩ | ⟨rfl, rfl, rfl⟩ <;>
        exact ⟨_, rfl, rfl⟩
    split
    next there =>
      exact ⟨_, runs_block hf he hc (transportBlock_of_state (s := s.accept p f) there)
        (clock_touches _ _) (by decide), rfl⟩
    next other =>
      exact runs_unchanged hf he hc (transportBlock_of_other (s := s.accept p f) other)
  case tempo =>
    split
    next stopped =>
      exact runs_unchanged rfl rfl hc (setTempoBlock_of_stopped (s := s.accept p _) stopped _)
    next moving =>
      intro tempo
      have clamped : clampNat 750 1250 x.toNat = tempo := clampNat_eq (by decide) _
      have taken := setTempoBlock_eq (s := s.accept p ⟨0x24, be16 x.toNat⟩) moving x.toNat
      rw [okCode_of_outside, clamped] at taken
      obtain ⟨u, runs, clock, turn⟩ := setting_runs rfl rfl hc taken
      refine ⟨u, runs, clock, turn.trans ?_⟩
      congr 1
      funext t
      by_cases same : tempo = s.clock.tempo <;> simp [same]
  case key =>
    split
    next stopped =>
      exact runs_unchanged rfl rfl hc (setKeyBlock_of_stopped (s := s.accept p _) stopped _)
    next moving =>
      intro key
      have clamped : clampInt (-7) 7 x.toInt = key := clampInt_eq (by decide) _
      have taken := setKeyBlock_eq (s := s.accept p ⟨0x26, [x]⟩) moving x.toInt
      rw [okCode_of_clampInt _ (by decide), clamped] at taken
      obtain ⟨u, runs, clock, turn⟩ := setting_runs rfl rfl hc taken
      refine ⟨u, ?_, clock, turn.trans ?_⟩
      · rwa [beInt8, be8, BitVec.ofNat_toNat, BitVec.setWidth_eq] at runs
      · congr 1
        funext t
        by_cases same : key = s.clock.key <;> simp [same]

end Sys2Proof.Machine
end

section
/-! The jumps of SEEK and SYNC, and the pass of the END time (R89 to R95). -/

namespace Sys2Proof.Machine

/-! ## The pass of the END time (R95) -/

/-- The clock passes the END time on its way from one position to another, with auto-end on. -/
def State.Passes (s : State) (old new : Nat) : Prop :=
  s.autoEnd = true ∧ s.turn.isSome = true ∧ ∃ e, s.clock.endTime = some e ∧ old < e ∧ e ≤ new

theorem State.Passes.congr {s u : State} {old new : Nat} (h : s.Passes old new)
    (auto : u.autoEnd = s.autoEnd) (turn : u.turn.isSome = s.turn.isSome)
    (endTime : u.clock.endTime = s.clock.endTime) : u.Passes old new := by
  rw [State.Passes, auto, turn, endTime]; exact h

theorem passEnd_of_passes {s : State} {t : Turn} {old new : Nat} (h : s.Passes old new)
    (stage : s.turn = some t) : s.passEnd old new = s.endTurn t .complete true := by
  obtain ⟨auto, -, e, endTime, above, below⟩ := h
  simp [State.passEnd, stage, endTime, above, below, auto]

theorem passEnd_of_not_passes {s : State} {old new : Nat} (h : ¬ s.Passes old new) :
    s.passEnd old new = s := by
  unfold State.passEnd
  split
  next t e stage endTime =>
    refine if_neg fun passes => h ?_
    simp only [Bool.and_eq_true, decide_eq_true_eq] at passes
    exact ⟨passes.2, by rw [stage]; rfl, e, endTime, passes.1⟩
  · rfl

theorem endTurn_ring_last (s : State) (t : Turn) (r : EndReason) (b : Bool) :
    (s.endTurn t r b).ring.getLast? = some (s.endRecord t r) := by
  rw [endTurn_ring, List.getLast?_append]; rfl

/-! ## The jump but for the pass it may make (R90) -/

/-- The turn's flag that a jump sets. -/
def jumpFlag (old new : Nat) (f : TurnFlags) : TurnFlags :=
  if new < old then { f with rewound := true } else { f with skippedAhead := true }

/-- The clock after a jump. -/
def Clock.jumped (c : Clock) (x : Nat) : Clock :=
  { c with position := x, accumulator := 0, interlude := interludeAt c.spans x }

/-- The jump up to its pass of the END time. -/
def State.jumped (s : State) (x : Nat) : State :=
  (State.requestRebuild { s.flagTurn (jumpFlag s.clock.position x) with
    clock := (s.flagTurn (jumpFlag s.clock.position x)).clock.jumped x }).tallyAllOpen

theorem jump_eq (s : State) (x : Nat) : s.jump x = (s.jumped x).passEnd s.clock.position x := rfl

theorem jumped_touches (s : State) (x : Nat) :
    Touches [.turn, .clock, .slots, .lines, .cache, .voice] s (s.jumped x) :=
  ((((flagTurn_touches _ _).mono rfl).trans ((clock_touches _ _).mono rfl)).trans
    ((requestRebuild_touches _).mono rfl)).trans ((tallyAllOpen_touches _).mono rfl)

theorem jumped_clock (s : State) (x : Nat) : (s.jumped x).clock = s.clock.jumped x := by
  rw [State.jumped, tallyAllOpen_touches _ .clock (by decide),
    requestRebuild_touches _ .clock (by decide)]
  exact congrArg (fun c : Clock => c.jumped x) (flagTurn_clock _ _)

theorem jumped_turn (s : State) (x : Nat) : (s.jumped x).turn =
    s.turn.map fun t => { t with flags := jumpFlag s.clock.position x t.flags } := by
  rw [State.jumped, tallyAllOpen_touches _ .turn (by decide),
    requestRebuild_touches _ .turn (by decide)]
  exact flagTurn_turn _ _

theorem jumped_lines (s : State) (x : Nat) :
    (s.jumped x).lines.rebuild = true ∧ (s.jumped x).lines.scroll = none := by
  rw [State.jumped, tallyAllOpen_touches _ .lines (by decide), requestRebuild_lines]
  exact ⟨rfl, rfl⟩

theorem jumpFlag_eq {old new : Nat} (h : new ≠ old) (f : TurnFlags) : jumpFlag old new f =
    { f with rewound := f.rewound || decide (new < old)
             skippedAhead := f.skippedAhead || decide (old < new) } := by
  rcases Nat.lt_or_gt_of_ne h with below | above
  · simp [jumpFlag, below, Nat.not_lt.mpr below.le]
  · simp [jumpFlag, above, Nat.not_lt.mpr above.le]

/-- A jump tallies the open notes as they stood before it. -/
theorem jumped_sameTally (s : State) (x : Nat) : SameTally s.tallyAllOpen (s.jumped x) := by
  refine SameTally.tallyAllOpen ⟨?_, ?_, ?_⟩
  · rw [requestRebuild_touches _ .turn (by decide)]
    change (s.flagTurn _).turn.map _ = _
    rw [flagTurn_turn, Option.map_map]
    rfl
  · rw [requestRebuild_touches _ .slots (by decide)]
    exact flagTurn_touches _ _ .slots (by decide)
  · rw [requestRebuild_touches _ .voice (by decide)]
    exact flagTurn_touches _ _ .voice (by decide)

theorem jumped_passes_iff (s : State) (x old new : Nat) :
    (s.jumped x).Passes old new ↔ s.Passes old new := by
  have turn : (s.jumped x).turn.isSome = s.turn.isSome := by rw [jumped_turn, Option.isSome_map]
  have auto : (s.jumped x).autoEnd = s.autoEnd := jumped_touches s x .autoEnd (by decide)
  rw [State.Passes, State.Passes, turn, auto, jumped_clock]
  rfl

theorem jump_of_not_passes {s : State} {x : Nat} (h : ¬ s.Passes s.clock.position x) :
    s.jump x = s.jumped x := by
  rw [jump_eq, passEnd_of_not_passes (by rwa [jumped_passes_iff])]

theorem jump_of_passes {s : State} {x : Nat} {t : Turn} (h : s.Passes s.clock.position x)
    (stage : s.turn = some t) : s.jump x = (s.jumped x).endTurn
      { t with flags := jumpFlag s.clock.position x t.flags } .complete true := by
  rw [jump_eq, passEnd_of_passes ((jumped_passes_iff _ _ _ _).mpr h)]
  rw [jumped_turn, stage]
  rfl

theorem not_above {x : Nat} (h : x ≤ 3599999) : ¬ Config.songLimit < x := Nat.not_lt.mpr h

theorem seekBlock_of_above {s : State} {x : Nat} (h : 3599999 < x) : seekBlock x s = ⟨s, .range, []⟩ :=
  if_pos h

theorem seekBlock_of_stopped {s : State} {x : Nat} (h : x ≤ 3599999) (stopped : s.clock.state = .stopped) :
    seekBlock x s = ⟨s, .state, []⟩ := (if_neg (not_above h)).trans (if_pos stopped)

theorem seekBlock_of_own {s : State} {x : Nat} (h : x ≤ 3599999) (moving : s.clock.state ≠ .stopped)
    (same : x = s.clock.position) : seekBlock x s =
      ⟨{ s with clock := { s.clock with accumulator := 0 } }, .ok,
        BitVec.ofNat 8 s.clock.state.place :: be32 x⟩ := by
  rw [seekBlock, if_neg (not_above h), if_neg moving, if_pos same]
  rfl

theorem seekBlock_of_other {s : State} {x : Nat} (h : x ≤ 3599999) (moving : s.clock.state ≠ .stopped)
    (other : x ≠ s.clock.position) : seekBlock x s =
      ⟨s.jump x, .ok, BitVec.ofNat 8 s.clock.state.place :: be32 x⟩ := by
  rw [seekBlock, if_neg (not_above h), if_neg moving, if_neg other]
  rfl

/-- What a jump over the END time leaves. -/
structure State.EndedBy (s v : State) (t : Turn) : Prop where
  turn : v.turn = none
  clock : v.clock = s.clock.stop
  ring : (v.ring.getLast?.map fun r => (r.ticket, r.reason, r.flags.skippedAhead, r.key)) =
    some (t.ticket, .complete, true, s.clock.key)
  shows : ∀ q : Port, v.shows q (.turnEnded t.ticket .complete)

theorem jump_endedBy {s : State} {x : Nat} {t : Turn} (h : s.Passes s.clock.position x)
    (stage : s.turn = some t) : s.EndedBy (s.jump x) t := by
  rw [jump_of_passes h stage]
  obtain ⟨-, -, e, -, above, below⟩ := h
  have forward : ¬ x < s.clock.position := Nat.not_lt.mpr (above.trans_le below).le
  refine ⟨(endTurn_book_turn _ _ _ _).2.2, ?_, ?_, fun q => endTurn_shows_ended _ _ _ _ ?_⟩
  · rw [endTurn_clock, jumped_clock]; rfl
  · rw [endTurn_ring_last]
    have clock := jumped_clock s x
    simp only [Option.map_some, State.endRecord, clock, jumpFlag, if_neg forward]
    rfl
  · cases q <;> decide

/-- A jump keeps every class but those that a turn's end raises. -/
theorem keeps_jump {c : Fin 16} (h1 : c ≠ 1) (h3 : c ≠ 3) (h4 : c ≠ 4) (h7 : c ≠ 7) (h8 : c ≠ 8)
    (h9 : c ≠ 9) (s : State) (x : Nat) : Keeps c s (s.jump x) := by
  have before : Keeps c s (s.jumped x) := keeps_touches (jumped_touches s x) (by decide)
  rw [jump_eq]
  unfold State.passEnd
  split
  · split
    · rw [endTurn_eq]
      exact before.trans ((keeps_withEnd h3 h7 h8 _ _ _ _).trans (keeps_testCall h4 h9 h1 _))
    · exact before
  · exact before

theorem jump_touches_endPieces (s : State) (x : Nat) : Touches endPieces s (s.jump x) := by
  rw [jump_eq]
  refine ((jumped_touches s x).mono rfl).trans ?_
  unfold State.passEnd
  split
  · exact Touches.ite (endTurn_touches_endPieces _ _ _ _) (.refl _ _)
  · exact .refl _ _

/-- Settles O33: a jump comes to the same state in every case until it is asked whether it has passed
the END time. -/
theorem seekJumps : Obligations.SeekJumps := by
  refine fun s p x hc => ?_
  intro data passes
  have position : ∀ {old new}, s.Passes old new → old ≠ new := fun ⟨_, _, e, _, above, below⟩ =>
    (above.trans_le below).ne
  refine ⟨fun above => runs_unchanged rfl rfl hc (seekBlock_of_above (s := s.accept p _) above),
    fun h stopped => runs_unchanged rfl rfl hc (seekBlock_of_stopped (s := s.accept p _) h stopped),
    fun h moving same => ?own, fun h moving other stays => ?stays, fun h moving passes => ?ends⟩
  case own =>
    exact ⟨_, runs_block rfl rfl hc (seekBlock_of_own (s := s.accept p _) h moving same)
      (clock_touches _ _) (by decide), rfl⟩
  case stays =>
    have taken := seekBlock_of_other (s := s.accept p ⟨0x22, be32 x.toNat⟩) h moving other
    rw [jump_of_not_passes (s := s.accept p _) stays] at taken
    have clock : _ = s.clock.jumped x.toNat := jumped_clock (s.accept p ⟨0x22, be32 x.toNat⟩) x.toNat
    have turn := jumped_turn (s.accept p ⟨0x22, be32 x.toNat⟩) x.toNat
    obtain ⟨rebuild, scroll⟩ := jumped_lines (s.accept p ⟨0x22, be32 x.toNat⟩) x.toNat
    have touches := jumped_touches (s.accept p ⟨0x22, be32 x.toNat⟩) x.toNat
    generalize (s.accept p ⟨0x22, be32 x.toNat⟩).jumped x.toNat = v at *
    have interlude : v.clock.interlude = interludeAt s.clock.spans x.toNat :=
      congrArg Clock.interlude clock
    refine ⟨_, runs_block rfl rfl hc taken touches (by decide), ?_, ?_, turn.trans ?_, rebuild, scroll⟩
    · refine clock.trans ?_
      rw [Clock.jumped, ← interlude]
      rfl
    · exact interlude ▸ interludeAt_eq_inside_iff _ _
    · congr 1
      funext t
      rw [jumpFlag_eq (by exact other)]
      rfl
  case ends =>
    have taken := seekBlock_of_other (s := s.accept p ⟨0x22, be32 x.toNat⟩) h moving
      (position passes).symm
    obtain ⟨t, stage⟩ := Option.isSome_iff_exists.mp passes.2.1
    have ended := jump_endedBy (s := s.accept p ⟨0x22, be32 x.toNat⟩) passes stage
    have touches := jump_touches_endPieces (s.accept p ⟨0x22, be32 x.toNat⟩) x.toNat
    generalize (s.accept p ⟨0x22, be32 x.toNat⟩).jump x.toNat = v at *
    refine ⟨_, runs_block rfl rfl hc taken (touches.mono rfl) (by decide), ended.turn,
      congrArg Clock.state ended.clock, congrArg Clock.position ended.clock, fun t' stage' => ?_⟩
    obtain rfl := Option.some.inj (stage.symm.trans stage')
    exact ⟨ended.ring, fun q => reply_shows.mpr (ended.shows q)⟩

/-! ## SYNC (R91, R92) -/

theorem syncBlock_of_above {s : State} {x : Nat} (h : 3599999 < x) : syncBlock x s = ⟨s, .range, []⟩ :=
  if_pos h

theorem syncBlock_of_not_running {s : State} {x : Nat} (h : x ≤ 3599999)
    (other : s.clock.state ≠ .running) : syncBlock x s = ⟨s, .state, []⟩ :=
  (if_neg (not_above h)).trans (if_pos other)

/-- The clock once a SYNC has found its difference. -/
def State.withSync (s : State) (x : Nat) : State :=
  { s with clock := { s.clock with lastSync := some (s.clock.difference x) } }

theorem syncBlock_of_within {s : State} {x : Nat} (h : x ≤ 3599999) (running : s.clock.state = .running)
    (within : (s.clock.difference x).natAbs ≤ s.clock.slipWindow) : syncBlock x s =
      ⟨s.withSync x, .ok, 0 :: (beInt32 (s.clock.difference x) ++ be32 s.clock.position)⟩ := by
  rw [syncBlock, if_neg (not_above h), if_neg (not_not.mpr running)]
  exact if_pos within

theorem syncBlock_of_beyond {s : State} {x : Nat} (h : x ≤ 3599999) (running : s.clock.state = .running)
    (beyond : s.clock.slipWindow < (s.clock.difference x).natAbs) : syncBlock x s =
      ⟨(s.withSync x).slip x, .ok, 1 :: (beInt32 (s.clock.difference x) ++ be32 x)⟩ := by
  rw [syncBlock, if_neg (not_above h), if_neg (not_not.mpr running)]
  exact if_neg (Nat.not_le.mpr beyond)

/-- The slip flagged and raised, before its jump. -/
def State.withSlip (s : State) (x : Nat) : State :=
  State.raise ((s.withSync x).flagTurn fun f => { f with clockSlip := true }) playbackConsole
    (.clockSlip ((s.turn.map (·.ticket)).getD 0) s.clock.position x)

theorem slip_eq (s : State) (x : Nat) : (s.withSync x).slip x = (s.withSlip x).jump x := by
  rw [State.slip, State.withSlip, flagTurn_clock]
  rfl

theorem withSlip_touches (s : State) (x : Nat) : Touches [.clock, .turn, .notices] s (s.withSlip x) :=
  (((clock_touches _ _).mono rfl).trans ((flagTurn_touches _ _).mono rfl)).trans
    ((raise_touches _ _ _).mono rfl)

theorem withSlip_clock (s : State) (x : Nat) : (s.withSlip x).clock =
    { s.clock with lastSync := some (s.clock.difference x) } := by
  rw [State.withSlip, raise_touches _ _ _ .clock (by decide), flagTurn_clock]
  rfl

theorem withSlip_turn (s : State) (x : Nat) : (s.withSlip x).turn =
    s.turn.map fun t => { t with flags := { t.flags with clockSlip := true } } := by
  rw [State.withSlip, raise_touches _ _ _ .turn (by decide), flagTurn_turn]
  rfl

theorem withSlip_passes_iff (s : State) (x old new : Nat) :
    (s.withSlip x).Passes old new ↔ s.Passes old new := by
  have turn : (s.withSlip x).turn.isSome = s.turn.isSome := by rw [withSlip_turn, Option.isSome_map]
  have auto : (s.withSlip x).autoEnd = s.autoEnd := withSlip_touches s x .autoEnd (by decide)
  rw [State.Passes, State.Passes, turn, auto, withSlip_clock]

theorem withSlip_shows {s : State} {t : Turn} (stage : s.turn = some t) (x : Nat) {q : Port}
    (hq : q ∈ playbackConsole) :
    ((s.withSlip x).jump x).shows q (.clockSlip t.ticket s.clock.position x) := by
  refine (keeps_jump (c := 10) (by decide) (by decide) (by decide) (by decide) (by decide) (by decide)
    _ x).shows rfl ?_
  rw [State.withSlip, stage]
  exact raise_shows _ _ _ _ hq

/-- Settles O34: beyond the slip window a SYNC is a slip noted, then the jump that SEEK makes. -/
theorem syncSteersTheClock : Obligations.SyncSteersTheClock := by
  refine fun s p x hc => ?_
  intro d passes
  have difference : s.clock.difference x.toNat = d := rfl
  refine ⟨fun above => runs_unchanged rfl rfl hc (syncBlock_of_above (s := s.accept p _) above),
    fun h other => runs_unchanged rfl rfl hc (syncBlock_of_not_running (s := s.accept p _) h other),
    fun h running within => ?within, fun h running beyond => ?beyond⟩
  case within =>
    have taken := syncBlock_of_within (s := s.accept p ⟨0x23, be32 x.toNat⟩) h running within
    rw [accept_clock, difference] at taken
    exact ⟨_, runs_block rfl rfl hc taken (clock_touches _ _) (by decide), rfl⟩
  case beyond =>
    intro data
    let a := s.accept p ⟨0x23, be32 x.toNat⟩
    have taken : syncBlock x.toNat a = ⟨(a.withSlip x.toNat).jump x.toNat, .ok, data⟩ := by
      rw [syncBlock_of_beyond (s := a) h running beyond, slip_eq, accept_clock, difference]
      rfl
    have shown : ∀ t, s.turn = some t → ∀ q ∈ playbackConsole, _ := fun t stage q hq =>
      withSlip_shows (s := a) stage x.toNat (q := q) hq
    have clock := withSlip_clock a x.toNat
    have position : (a.withSlip x.toNat).clock.position = s.clock.position :=
      (congrArg Clock.position clock :)
    refine ⟨fun stays => ?stays, fun passes => ?ends⟩
    case stays =>
      have still : (a.withSlip x.toNat).jump x.toNat = (a.withSlip x.toNat).jumped x.toNat := by
        refine jump_of_not_passes ?_
        rw [position, withSlip_passes_iff]
        exact stays
      rw [still] at taken shown
      have jumpedClock := jumped_clock (a.withSlip x.toNat) x.toNat
      have jumpedTurn := jumped_turn (a.withSlip x.toNat) x.toNat
      have rebuild := (jumped_lines (a.withSlip x.toNat) x.toNat).1
      have touches : Touches [.turn, .clock, .slots, .lines, .cache, .voice, .notices] a
          ((a.withSlip x.toNat).jumped x.toNat) :=
        ((withSlip_touches a x.toNat).mono rfl).trans ((jumped_touches _ x.toNat).mono rfl)
      rw [clock, accept_clock, difference] at jumpedClock
      rw [withSlip_turn, Option.map_map, position] at jumpedTurn
      generalize (a.withSlip x.toNat).jumped x.toNat = v at *
      refine ⟨_, runs_block rfl rfl hc taken touches (by decide), ?_, jumpedTurn.trans ?_, rebuild,
        fun t stage => ⟨reply_shows.mpr (shown t stage _ (by decide)),
          reply_shows.mpr (shown t stage _ (by decide))⟩⟩
      · have interlude : v.clock.interlude = interludeAt s.clock.spans x.toNat :=
          congrArg Clock.interlude jumpedClock
        refine jumpedClock.trans ?_
        rw [Clock.jumped, ← interlude]
        rfl
      · have other : x.toNat ≠ s.clock.position := fun same => by omega
        congr 1
        funext t
        have back : decide (x.toNat < s.clock.position) = decide (d < 0) := by
          rw [decide_eq_decide]; omega
        have forward : decide (s.clock.position < x.toNat) = decide (0 < d) := by
          rw [decide_eq_decide]; omega
        simp only [Function.comp_apply, jumpFlag_eq other, back, forward]
    case ends =>
      obtain ⟨t, stage⟩ := Option.isSome_iff_exists.mp passes.2.1
      have ended := jump_endedBy (s := a.withSlip x.toNat) (x := x.toNat)
        (by rw [position, withSlip_passes_iff]; exact passes) (by rw [withSlip_turn]; exact congrArg _ stage)
      have touches : Touches endPieces a ((a.withSlip x.toNat).jump x.toNat) :=
        ((withSlip_touches a x.toNat).mono rfl).trans (jump_touches_endPieces _ _)
      have stopped : ((a.withSlip x.toNat).jump x.toNat).clock.state = .stopped :=
        congrArg Clock.state ended.clock
      obtain ⟨turn, -, -, ended⟩ := ended
      generalize (a.withSlip x.toNat).jump x.toNat = v at *
      refine ⟨_, runs_block rfl rfl hc taken (touches.mono rfl) (by decide), turn, stopped,
        fun t' stage' => ?_⟩
      · obtain rfl := Option.some.inj (stage.symm.trans stage')
        exact ⟨reply_shows.mpr (shown t stage _ (by decide)),
          reply_shows.mpr (shown t stage _ (by decide)), fun q => reply_shows.mpr (ended q)⟩

end Sys2Proof.Machine
end

section
/-! The timebase tick: intervals overdue, intervals running, and the song clock's advances (R86 to R88,
log 11). -/

namespace Sys2Proof.Machine

/-! ## One advance (R86, R88) -/

/-- The clock 1 ms on. -/
def Clock.stepped (c : Clock) : Clock :=
  { c with
    position := c.position + 1
    accumulator := if c.position + 1 = Config.songLimit then 0 else c.accumulator - 1000
    interlude := interludeAt c.spans (c.position + 1) }

/-- The state once the clock has advanced by 1 and lines and tallies have followed, before the advance's
pass of the END time. -/
def State.advanced (s : State) : State :=
  (State.lineEventsAt { s with clock := s.clock.stepped } (s.clock.position + 1)).tallyPassed
    (s.clock.position + 1)

theorem advance_eq (s : State) :
    s.advance = s.advanced.passEnd s.clock.position (s.clock.position + 1) := rfl

/-- What advances leave, whatever their number, while none ends the turn. -/
structure State.Moved (s v : State) : Prop where
  touches : Touches [.slots, .clock, .lines, .cache, .video, .voice] s v
  slots : ∀ i : Fin 4, v.slots[i] = { s.slots[i] with tallied := v.slots[i].tallied }
  clock : v.clock = { s.clock with
    position := v.clock.position, accumulator := v.clock.accumulator, interlude := v.clock.interlude }
  lines : v.lines = { s.lines with
    window := v.lines.window, pending := v.lines.pending, scroll := v.lines.scroll }
  video : v.video = { s.video with postLate := v.video.postLate }
  voice : v.voice = { s.voice with channels := v.voice.channels }

theorem State.Moved.refl (s : State) : s.Moved s :=
  ⟨.refl _ _, fun _ => rfl, rfl, rfl, rfl, rfl⟩

theorem State.Moved.trans {s v w : State} (h : s.Moved v) (g : v.Moved w) : s.Moved w where
  touches := h.touches.trans g.touches
  slots i := by rw [g.slots, h.slots]
  clock := by rw [g.clock, h.clock]
  lines := by rw [g.lines, h.lines]
  video := by rw [g.video, h.video]
  voice := by rw [g.voice, h.voice]

theorem State.Moved.turn {s v : State} (h : s.Moved v) : v.turn = s.turn :=
  h.touches .turn (by decide)

theorem State.Moved.passes_iff {s v : State} (h : s.Moved v) (old new : Nat) :
    v.Passes old new ↔ s.Passes old new := by
  have auto : v.autoEnd = s.autoEnd := h.touches .autoEnd (by decide)
  rw [State.Passes, State.Passes, auto, h.turn, h.clock]

theorem advanced_moved (s : State) : s.Moved s.advanced := by
  let c : State := { s with clock := s.clock.stepped }
  have lines : Touches [.lines, .cache, .video] c (c.lineEventsAt (s.clock.position + 1)) :=
    lineEventsAt_touches _ _
  have windowed : Windowed c (c.lineEventsAt (s.clock.position + 1)) := lineEventsAt_windowed _ _
  have marking : Marking (c.lineEventsAt (s.clock.position + 1)) s.advanced := tallyPassed_marking _ _
  have slots : (c.lineEventsAt (s.clock.position + 1)).slots = s.slots := lines .slots (by decide)
  have voice : (c.lineEventsAt (s.clock.position + 1)).voice = s.voice := lines .voice (by decide)
  refine ⟨?_, fun i => ?_, ?_, ?_, ?_, ?_⟩
  · exact (((clock_touches s _).mono rfl).trans (lines.mono rfl)).trans (marking.touches.mono rfl)
  · rw [marking.slots, slots]
  · rw [marking.touches .clock (by decide), lines .clock (by decide)]
    rfl
  · rw [marking.touches .lines (by decide)]
    exact windowed.lines
  · rw [marking.touches .video (by decide)]
    exact windowed.video
  · rw [marking.voice, voice]

theorem advanced_clock (s : State) : s.advanced.clock = s.clock.stepped := by
  rw [State.advanced, tallyPassed_touches _ _ .clock (by decide),
    lineEventsAt_touches _ _ .clock (by decide)]

/-! ## The advances of a tick (R86, R87) -/

theorem State.Passes.extend {s : State} {a b c : Nat} (h : s.Passes a b) (le : b ≤ c) :
    s.Passes a c := by
  obtain ⟨auto, stage, e, endTime, above, below⟩ := h
  exact ⟨auto, stage, e, endTime, above, below.trans le⟩

theorem State.Passes.precede {s : State} {a b c : Nat} (h : s.Passes b c) (le : a ≤ b) :
    s.Passes a c := by
  obtain ⟨auto, stage, e, endTime, above, below⟩ := h
  exact ⟨auto, stage, e, endTime, le.trans_lt above, below⟩

/-- A pass is made on the first stretch of a way or on the rest of it. -/
theorem State.Passes.split {s : State} {a b c : Nat} (h : s.Passes a c) (first : ¬ s.Passes a b) :
    s.Passes b c := by
  obtain ⟨auto, stage, e, endTime, above, below⟩ := h
  refine ⟨auto, stage, e, endTime, Nat.lt_of_not_le fun le => first ?_, below⟩
  exact ⟨auto, stage, e, endTime, above, le⟩

/-- The place that the advances of a tick reach. -/
def Clock.reach (c : Clock) : Nat := min (c.position + c.accumulator / 1000) Config.songLimit

/-- What the advances of a tick come to. -/
structure State.Reached (s u : State) : Prop where
  stays : ¬ s.Passes s.clock.position s.clock.reach → s.Moved u ∧
    u.clock.position = s.clock.reach ∧ u.clock.accumulator =
      if s.clock.position + s.clock.accumulator / 1000 < Config.songLimit then
        s.clock.accumulator % 1000 else 0
  ends : s.Passes s.clock.position s.clock.reach →
    ∃ v t, s.Moved v ∧ v.turn = some t ∧ u = v.endTurn t .complete true

theorem advanceWhile_of_not_running {s : State} (h : s.clock.state ≠ .running) (n : Nat) :
    State.advanceWhile n s = s := by
  cases n with
  | zero => rfl
  | succ n => simp [State.advanceWhile, h]

theorem reached_refl {s : State} (within : s.clock.position ≤ Config.songLimit)
    (atLimit : s.clock.position = Config.songLimit → s.clock.accumulator = 0)
    (small : s.clock.accumulator < 1000) : s.Reached s := by
  have quotient : s.clock.accumulator / 1000 = 0 := Nat.div_eq_of_lt small
  have reach : s.clock.reach = s.clock.position := by
    rw [Clock.reach, quotient]; exact Nat.min_eq_left within
  refine ⟨fun _ => ⟨.refl s, reach.symm, ?_⟩, fun ⟨_, _, e, _, above, below⟩ => ?_⟩
  · rw [quotient, Nat.mod_eq_of_lt small]
    split
    · rfl
    next limit => exact atLimit (le_antisymm within (Nat.le_of_not_lt limit))
  · rw [reach] at below; omega

theorem advanceWhile_reached {n : Nat} {s : State} (running : s.clock.state = .running)
    (within : s.clock.position ≤ Config.songLimit)
    (atLimit : s.clock.position = Config.songLimit → s.clock.accumulator = 0)
    (fuel : s.clock.accumulator < 1000 * (n + 1)) : s.Reached (State.advanceWhile n s) := by
  induction n generalizing s with
  | zero => exact reached_refl within atLimit (by omega)
  | succ n ih =>
    unfold State.advanceWhile
    split
    next more =>
      rw [Bool.and_eq_true, decide_eq_true_eq, decide_eq_true_eq] at more
      have acc := more.2
      have room : s.clock.position < Config.songLimit := by omega
      have moved := advanced_moved s
      have clock := advanced_clock s
      have position : s.advanced.clock.position = s.clock.position + 1 := by rw [clock]; rfl
      have accumulator : s.advanced.clock.accumulator =
          if s.clock.position + 1 = Config.songLimit then 0 else s.clock.accumulator - 1000 := by
        rw [clock]; rfl
      have reach : s.advanced.clock.reach = s.clock.reach := by
        rw [Clock.reach, Clock.reach, position, accumulator]
        split <;> omega
      have onward : s.clock.position + 1 ≤ s.clock.reach := by rw [Clock.reach]; omega
      rw [advance_eq]
      by_cases first : s.Passes s.clock.position (s.clock.position + 1)
      · obtain ⟨t, stage⟩ := Option.isSome_iff_exists.mp first.2.1
        have stage : s.advanced.turn = some t := moved.turn.trans stage
        rw [passEnd_of_passes ((moved.passes_iff _ _).mpr first) stage, advanceWhile_of_not_running]
        · exact ⟨fun stays => absurd (first.extend onward) stays,
            fun _ => ⟨s.advanced, t, moved, stage, rfl⟩⟩
        · rw [endTurn_clock]; exact nofun
      · rw [passEnd_of_not_passes (mt (moved.passes_iff _ _).mp first)]
        obtain ⟨stays, ends⟩ := ih (s := s.advanced) (by rw [clock]; exact running) (by omega)
          (fun limit => by rw [accumulator, if_pos (by omega)]) (by rw [accumulator]; split <;> omega)
        rw [position, reach, moved.passes_iff] at stays ends
        refine ⟨fun quiet => ?_, fun passes => ?_⟩
        · obtain ⟨rest, there, left⟩ := stays fun later => quiet
            (later.precede (Nat.le_succ _))
          refine ⟨moved.trans rest, there, left.trans ?_⟩
          rw [accumulator]
          split_ifs <;> omega
        · obtain ⟨v, t, rest, stage, ended⟩ := ends (passes.split first)
          exact ⟨v, t, moved.trans rest, stage, ended⟩
    next done =>
      exact reached_refl within atLimit (by simpa [running] using done)

/-! ## A tick (log 11) -/

/-- The state whose accumulator has taken its tempo. -/
def State.withTempo (s : State) : State :=
  { s with clock := { s.clock with accumulator := s.clock.accumulator + s.clock.tempo } }

theorem withTempo_moved (s : State) : s.Moved s.withTempo :=
  ⟨(clock_touches s _).mono rfl, fun _ => rfl, rfl, rfl, rfl, rfl⟩

theorem tickClock_of_still {s : State}
    (h : s.clock.state ≠ .running ∨ s.clock.position = Config.songLimit) : s.tickClock = s := by
  rw [State.tickClock, if_neg]
  rcases h with still | limit
  · simp [still]
  · simp [limit]

theorem tickClock_reached {s : State} (running : s.clock.state = .running)
    (room : s.clock.position < Config.songLimit)
    (below : s.clock.accumulator + s.clock.tempo < 3000) : s.withTempo.Reached s.tickClock := by
  rw [State.tickClock, if_pos (by simp [running, room])]
  exact advanceWhile_reached (s := s.withTempo) running room.le
    (fun limit => absurd limit room.ne) below

/-- A pass makes a bound slot SCRUB only for an entry beyond its depth (R65). -/
theorem pass_slot_fate {s : State} {i : Fin 4} (busy : s.slots[i].state ≠ .free) :
    s.pass.slots[i] = s.slots[i] ∨ s.pass.slots[i].state = .scrub ∧ s.depth ≠ 0 ∧
      ∃ e ∈ s.book.entries.drop s.depth, s.slots[i].ticket = some e.ticket := by
  by_cases depth : s.depth = 0
  · exact .inl (by rw [pass_of_depth_zero depth])
  suffices fate : ∀ t, PassRun s t → t.slots[i] = s.slots[i] ∨ t.slots[i].state = .scrub ∧
      s.depth ≠ 0 ∧ ∃ e ∈ s.book.entries.drop s.depth, s.slots[i].ticket = some e.ticket from
    fate _ (pass_run s)
  intro t run
  induction run with
  | refl => exact .inl rfl
  | @bind t j e _ _ _ free ih =>
    have other : i ≠ j := by
      rintro rfl
      rcases ih with same | ⟨scrub, -⟩
      · exact busy (same ▸ free)
      · rw [scrub] at free; cases free
    rwa [bindSlot_slots, setSlot_slot_other _ other]
  | @reclaim t j e _ far bound ih =>
    rw [State.scrubSlot]
    by_cases own : i = j
    · subst own
      rw [setSlot_slot_same]
      rcases ih with same | ⟨-, entry⟩
      · exact .inr ⟨rfl, depth, e, far, same ▸ bound⟩
      · exact .inr ⟨rfl, entry⟩
    · rwa [setSlot_slot_other _ own]

theorem changed_slot_fate {s : State} {i : Fin 4} (busy : s.slots[i].state ≠ .free) :
    s.changed.slots[i] = s.slots[i] ∨ s.changed.slots[i].state = .scrub ∧ s.depth ≠ 0 ∧
      ∃ e ∈ s.book.entries.drop s.depth, s.slots[i].ticket = some e.ticket := by
  have depth : (s.raise consoleVenue (.queueChanged s.book.entries.length)).depth = s.depth :=
    raise_touches _ _ _ .depth (by decide)
  have fate := pass_slot_fate (s := s.raise consoleVenue (.queueChanged s.book.entries.length)) (i := i)
    (by rwa [raise_slots])
  rwa [raise_slots, raise_book, depth] at fate

theorem testCall_slot_fate {s : State} {i : Fin 4} (busy : s.slots[i].state ≠ .free) :
    s.testCall.slots[i] = s.slots[i] ∨ s.testCall.slots[i].state = .scrub ∧
      ∃ e ∈ s.book.entries.drop s.depth, s.slots[i].ticket = some e.ticket := by
  unfold State.testCall
  split
  next t call =>
    obtain ⟨e, rest, k, -, -, entries, -, -, -, rfl⟩ := callHead_cases call
    have called := withCalled_touches s e rest k
    have slots : (s.withCalled e rest k).slots = s.slots := called .slots (by decide)
    have depth : (s.withCalled e rest k).depth = s.depth := called .depth (by decide)
    have fate := changed_slot_fate (s := s.withCalled e rest k) (i := i) (by rwa [slots])
    rw [slots, depth, withCalled_book] at fate
    rw [retitle_slots]
    refine fate.imp_right fun ⟨scrub, behind, x, hx, ticket⟩ => ⟨scrub, x, ?_, ticket⟩
    obtain ⟨d, hd⟩ := Nat.exists_eq_succ_of_ne_zero behind
    rw [hd, List.drop_succ_cons] at hx
    rwa [entries, hd, List.drop_succ_cons]
  next => exact .inl (by rw [retitle_slots])

/-- The end of a turn leaves another slot its state, timer and ticket, or its call's pass reclaims it. -/
theorem endTurn_slot_fate {s : State} {t : Turn} {i : Fin 4} (other : i ≠ t.slot)
    (busy : s.slots[i].state ≠ .free) (r : EndReason) (b : Bool) :
    ((s.endTurn t r b).slots[i].state = s.slots[i].state ∧
      (s.endTurn t r b).slots[i].timer = s.slots[i].timer) ∨
    ((s.endTurn t r b).slots[i].state = .scrub ∧
      ∃ e ∈ s.book.entries.drop s.depth, s.slots[i].ticket = some e.ticket) := by
  have slot : (s.withEnd t r b).slots[i] = s.tallyAllOpen.slots[i] := by
    rw [withEnd_slots, State.scrubSlot, setSlot_slot_other _ other]
  rw [(tallyAllOpen_marking s).slots i] at slot
  have depth : (s.withEnd t r b).depth = s.depth := by
    rw [withEnd_touches_filed s t r b .depth (by decide), withFiled_touches s t r .depth (by decide)]
  have fate := testCall_slot_fate (s := s.withEnd t r b) (i := i) (by rw [slot]; exact busy)
  rw [withEnd_book, depth, slot] at fate
  rw [endTurn_eq]
  exact fate.imp_left fun same => by rw [same]; exact ⟨rfl, rfl⟩

theorem tickTimers_slot (s : State) (i : Fin 4) :
    s.tickTimers.slots[i] = { s.slots[i] with timer := s.slots[i].timer - 1 } := Vector.getElem_map ..

/-- The commands of a run are each made once, in their order: a run has one end. -/
theorem ran_unique {is : List Instr} {s t u : State} (h : Ran is s t) (g : Ran is s u) : t = u := by
  induction is generalizing s with
  | nil => exact Eq.trans h (Eq.symm g)
  | cons i is ih =>
    obtain ⟨v, step, rest⟩ := h
    obtain ⟨w, step', rest'⟩ := g
    obtain rfl := Host.Outcome.next.inj (step.symm.trans step')
    exact ih rest rest'

/-- What a tick leaves of the input's and the audio's quiet times and of the voice frame under way. -/
theorem State.Reached.quiet {s u : State} (h : s.Reached u) : u.video.inputQuiet = s.video.inputQuiet ∧
    u.voice.quiet = s.voice.quiet ∧ u.voice.frame = s.voice.frame := by
  by_cases passes : s.Passes s.clock.position s.clock.reach
  · obtain ⟨v, t, moved, -, rfl⟩ := h.ends passes
    have voice := (tallyAllOpen_marking v).voice
    rw [endTurn_touches_endPieces v t _ _ .video (by decide), endTurn_voice, voice, moved.video,
      moved.voice]
    exact ⟨rfl, rfl, rfl⟩
  · obtain ⟨moved, -⟩ := h.stays passes
    rw [moved.video, moved.voice]
    exact ⟨rfl, rfl, rfl⟩

theorem State.Reached.slot_fate {s u : State} (h : s.Reached u) {i : Fin 4}
    (busy : s.slots[i].state ≠ .free) (other : ∀ t, s.turn = some t → t.slot ≠ i) :
    (u.slots[i].state = s.slots[i].state ∧ u.slots[i].timer = s.slots[i].timer) ∨
    (u.slots[i].state = .scrub ∧
      ∃ e ∈ s.book.entries.drop s.depth, s.slots[i].ticket = some e.ticket) := by
  by_cases passes : s.Passes s.clock.position s.clock.reach
  · obtain ⟨v, t, moved, stage, rfl⟩ := h.ends passes
    have fate := endTurn_slot_fate (s := v) (t := t) (i := i)
      (other t (moved.turn.symm.trans stage)).symm (by rw [moved.slots]; exact busy) .complete true
    rw [moved.slots, moved.touches .book (by decide), moved.touches .depth (by decide)] at fate
    exact fate
  · obtain ⟨moved, -⟩ := h.stays passes
    rw [moved.slots]
    exact .inl ⟨rfl, rfl⟩

theorem exec_tick_of_upToDate {s : State} (h : s.upToDate) :
    exec .timebaseTick s = .next s.tickTimers.tickClock := by
  change Host.Outcome.next s.makeOverdue.tickTimers.tickClock = _
  rw [makeOverdue_of_upToDate h]

/-- What a tick leaves or moves on in every state of the clock. -/
structure State.TimersRan (s u : State) : Prop where
  touches : Touches tickPieces s u
  time : u.sessionTime = s.sessionTime + 1
  loop : u.loop = s.loop.tick
  font : u.font = s.font.tick
  input : u.video.inputQuiet = min 100 (s.video.inputQuiet + 1)
  audio : u.voice.quiet = min 50 (s.voice.quiet + 1)
  frame : u.voice.frame = s.voice.frame
  slots : ∀ i : Fin 4, s.slots[i].state ≠ .free → (∀ t, s.turn = some t → t.slot ≠ i) →
    (u.slots[i].state = s.slots[i].state ∧ u.slots[i].timer = s.slots[i].timer - 1) ∨
    (u.slots[i].state = .scrub ∧
      ∃ e ∈ s.book.entries.drop s.depth, s.slots[i].ticket = some e.ticket)

/-- A clock that is not running, or stands at its limit, is as one that has reached its place. -/
theorem tickClock_reached_or_still {s : State} (agrees : s.clockAgrees) :
    ((s.clock.state ≠ .running ∨ s.clock.position = Config.songLimit) ∧ s.tickClock = s) ∨
      (s.clock.state = .running ∧ s.clock.position < Config.songLimit ∧
        s.withTempo.Reached s.tickClock) := by
  obtain ⟨-, range, acc⟩ := (clockAgrees_iff s).mp agrees
  by_cases still : s.clock.state ≠ .running ∨ s.clock.position = Config.songLimit
  · exact .inl ⟨still, tickClock_of_still still⟩
  · rw [not_or, not_not] at still
    have room := lt_of_le_of_ne range.position still.2
    have tempo := range.tempo.2
    exact .inr ⟨still.1, room, tickClock_reached still.1 room (by omega)⟩

theorem tick_timersRan {s : State} (agrees : s.clockAgrees) (upToDate : s.upToDate) :
    s.TimersRan s.tickTimers.tickClock := by
  have touches := tick_touches s
  rw [makeOverdue_of_upToDate upToDate] at touches
  have moved := tickClock_touches s.tickTimers
  have agrees : s.tickTimers.clockAgrees :=
    clockAgrees_dependsOn.of_touches (tickTimers_touches s) rfl agrees
  obtain ⟨video, quiet, frame, slots⟩ : s.tickTimers.tickClock.video.inputQuiet =
        s.tickTimers.video.inputQuiet ∧
      s.tickTimers.tickClock.voice.quiet = s.tickTimers.voice.quiet ∧
      s.tickTimers.tickClock.voice.frame = s.tickTimers.voice.frame ∧
      ∀ i : Fin 4, s.tickTimers.slots[i].state ≠ .free →
        (∀ t, s.tickTimers.turn = some t → t.slot ≠ i) →
        (s.tickTimers.tickClock.slots[i].state = s.tickTimers.slots[i].state ∧
          s.tickTimers.tickClock.slots[i].timer = s.tickTimers.slots[i].timer) ∨
        (s.tickTimers.tickClock.slots[i].state = .scrub ∧
          ∃ e ∈ s.book.entries.drop s.depth, s.tickTimers.slots[i].ticket = some e.ticket) := by
    rcases tickClock_reached_or_still agrees with ⟨-, still⟩ | ⟨-, -, reached⟩
    · rw [still]
      exact ⟨rfl, rfl, rfl, fun _ _ _ => .inl ⟨rfl, rfl⟩⟩
    · obtain ⟨video, quiet, frame⟩ := reached.quiet
      exact ⟨video, quiet, frame, fun i busy other => reached.slot_fate busy other⟩
  refine ⟨touches, moved .sessionTime (by decide), moved .loop (by decide), moved .font (by decide),
    video, quiet, frame, fun i busy other => ?_⟩
  have fate := slots i (by rwa [tickTimers_slot]) other
  rwa [tickTimers_slot] at fate

/-- Settles O36: where no interval is overdue a tick moves every interval on, and then the clock reaches
its place, or passes the END time on the way and ends the turn there. -/
theorem ticksAdvanceTheClock : Obligations.TicksAdvanceTheClock := by
  refine ⟨fun s => ⟨_, rfl⟩, fun s t run upToDate => ?_, fun s agrees upToDate => ?_⟩
  · obtain rfl := ran_unique (ran_makeOverdue s) run
    rw [exec_tick_of_upToDate upToDate]
    rfl
  · have ran := tick_timersRan agrees upToDate
    have reached := tickClock_reached_or_still (s := s.tickTimers)
      (clockAgrees_dependsOn.of_touches (tickTimers_touches s) rfl agrees)
    refine ⟨_, exec_tick_of_upToDate upToDate, ?_⟩
    generalize s.tickTimers.tickClock = u at *
    refine ⟨ran.time, ran.touches .pending (by decide), fun q => ?_, ran.loop, ran.font, ran.input,
      ran.audio, ran.frame, fun i running other => ran.slots i ?_ other, ?_⟩
    · exact (congrArg PortState.reply (ran.touches .links (by decide) q) :)
    · rcases running with busy | busy | busy <;> rw [busy] <;> decide
    intro show_ total there ends
    have reach : s.tickTimers.withTempo.clock.reach = min there 3599999 := rfl
    have passes_iff : s.tickTimers.turn.isSome = true →
        (s.tickTimers.withTempo.Passes s.clock.position (min there 3599999) ↔ ends) := fun stage =>
      ⟨fun ⟨auto, _, e⟩ => ⟨auto, e⟩, fun ⟨auto, e⟩ => ⟨auto, stage, e⟩⟩
    have onStage : s.clock.state = .running → s.tickTimers.turn.isSome = true := fun running => by
      rw [Option.isSome_iff_ne_none]
      intro empty
      rw [((clockAgrees_iff s).mp agrees).1.mpr empty] at running
      cases running
    rcases reached with ⟨still, rfl⟩ | ⟨running, room, reached⟩
    · refine ⟨fun _ => ⟨rfl, rfl, rfl, tickTimers_slot s, rfl⟩, fun running room => ?_,
        fun running room => ?_⟩
      all_goals exact absurd still (not_or.mpr ⟨not_not.mpr running, room.ne⟩)
    · have passes_iff := passes_iff (onStage running)
      refine ⟨fun still => ?_, fun _ _ stays => ?_, fun _ _ ended => ?_⟩
      · exact absurd still (not_or.mpr ⟨not_not.mpr running, room.ne⟩)
      · obtain ⟨moved, position, accumulator⟩ := reached.stays (mt passes_iff.mp stays)
        have moved := (withTempo_moved s.tickTimers).trans moved
        refine ⟨moved.turn, moved.touches .ring (by decide), ?_, fun below => ?_, fun above => ?_,
          moved.clock, fun i => ?_, ?_⟩
        · rw [moved.clock]; exact running
        · exact ⟨position.trans (Nat.min_eq_left (Nat.le_of_lt below)),
            accumulator.trans (if_pos below)⟩
        · exact ⟨position.trans (Nat.min_eq_right above),
            accumulator.trans (if_neg (Nat.not_lt.mpr above))⟩
        · rw [moved.slots, tickTimers_slot]
        · rw [moved.lines]; rfl
      · obtain ⟨v, t, moved, stage, rfl⟩ := reached.ends (passes_iff.mpr ended)
        have moved := (withTempo_moved s.tickTimers).trans moved
        obtain ⟨-, -, -, score⟩ := endTurn_lines v t .complete true
        refine ⟨(endTurn_book_turn v t _ _).2.2, ?_, ?_, fun t' stage' => ?_⟩
        · rw [endTurn_clock]; rfl
        · rw [endTurn_clock]; rfl
        · obtain rfl := Option.some.inj ((moved.turn.symm.trans stage).symm.trans stage')
          refine ⟨v.endRecord t .complete, endTurn_ring_last _ _ _ _, rfl, rfl, score.trans ?_,
            fun q => endTurn_shows_ended v t _ _ (by cases q <;> decide)⟩
          rw [moved.lines]
          rfl

end Sys2Proof.Machine
end

section
/-! What the tallies of jumps, ends and advances leave on a channel and its marks (R166, R167). -/

namespace Sys2Proof.Machine

/-! ## One mic's view of a tally -/

/-- One mic's channel and marks are the same in two states. -/
def MicEq (m : Fin 4) (s u : State) : Prop :=
  u.voice.channels[m] = s.voice.channels[m] ∧ ∀ j, u.noteMark m j = s.noteMark m j

theorem MicEq.refl (m : Fin 4) (s : State) : MicEq m s s := ⟨rfl, fun _ => rfl⟩

theorem MicEq.trans {m : Fin 4} {s u v : State} (h : MicEq m s u) (g : MicEq m u v) : MicEq m s v :=
  ⟨g.1.trans h.1, fun j => (g.2 j).trans (h.2 j)⟩

theorem SameMic.micEq {m : Fin 4} {s u : State} (h : SameMic m s u) : MicEq m s u :=
  ⟨h.channel, h.marks⟩

theorem SameMic.tally {m : Fin 4} {s u : State} (h : SameMic m s u) (n : Nat) :
    MicEq m (s.tally m n) (u.tally m n) := by
  refine ⟨by rw [tally_channel, tally_channel, h.channel, h.marks], fun j => ?_⟩
  rw [tally_noteMark, tally_noteMark, h.channel]
  have same : u.noteMark m n = none ∧ u.marksNote m n ↔ s.noteMark m n = none ∧ s.marksNote m n := by
    rw [h.marks, h.marking.marksNote]
  by_cases marks : m = m ∧ j = n ∧ s.noteMark m n = none ∧ s.marksNote m n
  · rw [if_pos marks, if_pos ⟨rfl, marks.2.1, same.mpr marks.2.2⟩]
  · rw [if_neg marks, if_neg fun g => marks ⟨rfl, g.2.1, same.mp g.2.2⟩, h.marks]

theorem tallyAllOpen_of_none {s : State} {m : Fin 4}
    (h : s.judging m = false ∨ s.voice.channels[m].openNote = none) : MicEq m s s.tallyAllOpen := by
  obtain ⟨u, before, after⟩ := tallyAllOpen_mic s m
  have still : u.tallyJudging m = u := by
    rw [State.tallyJudging, before.judging]
    rcases h with off | closed
    · rw [off]; rfl
    · rw [State.tallyOpen, before.channel, closed]; exact ite_self u
  rw [still] at after
  exact before.micEq.trans after.micEq

theorem tallyAllOpen_of_open {s : State} {m : Fin 4} {o : OpenNote} (judging : s.judging m = true)
    (h : s.voice.channels[m].openNote = some o) : MicEq m (s.tally m o.index) s.tallyAllOpen := by
  obtain ⟨u, before, after⟩ := tallyAllOpen_mic s m
  have made : u.tallyJudging m = u.tally m o.index := by
    rw [State.tallyJudging, before.judging, if_pos judging, State.tallyOpen, before.channel, h]
  rw [made] at after
  exact (before.tally _).trans after.micEq

/-! ## What one tally leaves -/

theorem countsFor_open {c : Channel} {o : OpenNote} (h : c.openNote = some o) :
    c.countsFor o.index = (o.a, o.h) := by
  rw [Channel.countsFor, h]
  exact if_pos rfl

theorem filter_open {c : Channel} {o : OpenNote} (h : c.openNote = some o) :
    (c.openNote.filter fun x => x.index ≠ o.index) = none := by
  simp [h]

/-- The channel after the tally of a note without a mark. -/
theorem tallied_unmarked (c : Channel) (n : Nat) : c.tallied n false = { c with
    notes := c.notes + (if (c.countsFor n).1 = 0 then 0 else 1)
    kept := c.kept + (if (c.countsFor n).1 = 0 ∨ 2 * (c.countsFor n).2 < (c.countsFor n).1 then 0 else 1)
    openNote := c.openNote.filter fun o => o.index ≠ n } := by
  simp [Channel.tallied]

/-- The tally of a note without a mark: its counts taken, its mark set. -/
theorem tally_unmarked {s : State} {m : Fin 4} {n : Nat} (unmarked : s.noteMark m n = none)
    (marks : s.marksNote m n) :
    (s.tally m n).voice.channels[m] = s.voice.channels[m].tallied n false ∧
    ∀ j, (s.tally m n).noteMark m j = if j = n then
      some (markOf (s.voice.channels[m].countsFor n).1 (s.voice.channels[m].countsFor n).2)
      else s.noteMark m j := by
  refine ⟨by rw [tally_channel, unmarked]; rfl, fun j => ?_⟩
  rw [tally_noteMark]
  by_cases own : j = n
  · rw [if_pos ⟨rfl, own, unmarked, marks⟩, if_pos own]
  · rw [if_neg fun h => own h.2.1, if_neg own]

theorem tally_marked {s : State} {m : Fin 4} {n : Nat} (marked : s.noteMark m n ≠ none) :
    (s.tally m n).voice.channels[m] = { s.voice.channels[m] with
      openNote := s.voice.channels[m].openNote.filter fun o => o.index ≠ n } ∧
    ∀ j, (s.tally m n).noteMark m j = s.noteMark m j := by
  refine ⟨?_, fun j => ?_⟩
  · have some_ : (s.noteMark m n).isSome = true := Option.isSome_iff_ne_none.mpr marked
    rw [tally_channel, some_]
    simp [Channel.tallied]
  · rw [tally_noteMark, if_neg fun h => marked h.2.2.1]

/-! ## The notes that an advance passes (R167) -/

/-- A note is tallied unless it carries a mark. -/
def State.tallyUnmarked (s : State) (m : Fin 4) (n : Nat) : State :=
  if (s.noteMark m n).isSome then s else s.tally m n

theorem tallyUnmarked_of_marked {s : State} {m : Fin 4} {n : Nat} (h : s.noteMark m n ≠ none) :
    s.tallyUnmarked m n = s := if_pos (Option.isSome_iff_ne_none.mpr h)

theorem tallyUnmarked_of_unmarked {s : State} {m : Fin 4} {n : Nat} (h : s.noteMark m n = none) :
    s.tallyUnmarked m n = s.tally m n := if_neg (by rw [h]; decide)

theorem foldl_tallyUnmarked_of_marked {s : State} {m : Fin 4} {ns : List (Note × Nat)}
    (h : ∀ n ∈ ns, s.noteMark m n.2 ≠ none) :
    ns.foldl (fun s n => s.tallyUnmarked m n.2) s = s := by
  induction ns with
  | nil => rfl
  | cons n ns ih =>
    rw [List.forall_mem_cons] at h
    rw [List.foldl_cons, tallyUnmarked_of_marked h.1]
    exact ih h.2

/-- Where one note alone of those passed carries no mark, it alone is tallied. -/
theorem foldl_tallyUnmarked_of_one {s : State} {m : Fin 4} {ns : List (Note × Nat)} {n : Note × Nat}
    (mem : n ∈ ns) (unmarked : s.noteMark m n.2 = none) (marks : s.marksNote m n.2)
    (alone : ∀ x ∈ ns, s.noteMark m x.2 = none → x = n) :
    ns.foldl (fun s n => s.tallyUnmarked m n.2) s = s.tally m n.2 := by
  induction ns with
  | nil => cases mem
  | cons x ns ih =>
    rw [List.forall_mem_cons] at alone
    rw [List.foldl_cons]
    by_cases hx : s.noteMark m x.2 = none
    · obtain rfl := alone.1 hx
      rw [tallyUnmarked_of_unmarked hx]
      refine foldl_tallyUnmarked_of_marked fun y hy => ?_
      rw [(tally_unmarked unmarked marks).2]
      split
      · exact nofun
      next other => exact fun none_ => other (congrArg Prod.snd (alone.2 y hy none_))
    · rw [tallyUnmarked_of_marked hx]
      refine ih ((List.mem_cons.mp mem).resolve_left ?_) alone.2
      rintro rfl
      exact hx unmarked

/-- The notes of a mic that an advance to a time passes. -/
def State.passedNotes (s : State) (m : Fin 4) (time : Nat) : List (Note × Nat) :=
  (s.partNotes m).filter fun n => n.1.stop + s.voice.scoring.latency = time

/-- The part of one mic in the tallies of an advance. -/
def State.tallyNotes (time : Nat) (s : State) (m : Fin 4) : State :=
  if s.judging m then (s.passedNotes m time).foldl (fun s n => s.tallyUnmarked m n.2) s else s

theorem tallyNotes_onlyMic (time : Nat) (s : State) (m : Fin 4) : OnlyMic m s (s.tallyNotes time m) :=
  OnlyMic.ite (OnlyMic.foldl (fun s _ => OnlyMic.ite (.refl m s) (tally_onlyMic s m _)) _ s)
    (.refl m s)

theorem tallyPassed_mic (s : State) (time : Nat) (m : Fin 4) :
    ∃ u, SameMic m s u ∧ SameMic m (u.tallyNotes time m) (s.tallyPassed time) :=
  foldl_micNumbers (f := State.tallyNotes time) (tallyNotes_onlyMic time) m s

theorem SameMic.passedNotes {m : Fin 4} {s u : State} (h : SameMic m s u) (time : Nat) :
    u.passedNotes m time = s.passedNotes m time := by
  rw [State.passedNotes, State.passedNotes, h.partNotes, h.marking.scoring]

theorem tallyPassed_of_none {s : State} {m : Fin 4} {time : Nat} (h : s.judging m = false ∨
    ∀ n ∈ s.passedNotes m time, s.noteMark m n.2 ≠ none) : MicEq m s (s.tallyPassed time) := by
  obtain ⟨u, before, after⟩ := tallyPassed_mic s time m
  have still : u.tallyNotes time m = u := by
    rw [State.tallyNotes, before.judging, before.passedNotes]
    rcases h with off | marked
    · rw [off]; rfl
    · rw [foldl_tallyUnmarked_of_marked (by simpa only [before.marks] using marked)]
      exact ite_self u
  rw [still] at after
  exact before.micEq.trans after.micEq

theorem tallyPassed_of_one {s : State} {m : Fin 4} {time : Nat} {n : Note × Nat}
    (judging : s.judging m = true) (mem : n ∈ s.passedNotes m time)
    (unmarked : s.noteMark m n.2 = none) (marks : s.marksNote m n.2)
    (alone : ∀ x ∈ s.passedNotes m time, s.noteMark m x.2 = none → x = n) :
    MicEq m (s.tally m n.2) (s.tallyPassed time) := by
  obtain ⟨u, before, after⟩ := tallyPassed_mic s time m
  have made : u.tallyNotes time m = u.tally m n.2 := by
    rw [State.tallyNotes, before.judging, before.passedNotes, if_pos judging]
    exact foldl_tallyUnmarked_of_one mem ((before.marks _).trans unmarked)
      ((before.marking.marksNote _ _).mpr marks) (by simpa only [before.marks] using alone)
  rw [made] at after
  exact (before.tally _).trans after.micEq

/-! ## A tick with one advance -/

theorem tickClock_of_one_advance {s : State} (running : s.clock.state = .running)
    (room : s.clock.position < 3599999) (one : 1000 ≤ s.clock.accumulator + s.clock.tempo)
    (only : s.clock.accumulator + s.clock.tempo < 2000)
    (stays : ¬ (s.autoEnd = true ∧ s.clock.endTime = some (s.clock.position + 1))) :
    s.tickClock = s.withTempo.advanced := by
  have passes : ¬ s.withTempo.Passes s.withTempo.clock.position (s.withTempo.clock.position + 1) := by
    rintro ⟨auto, -, e, endTime, above, below⟩
    exact stays ⟨auto, Nat.le_antisymm below above ▸ endTime⟩
  have small : s.withTempo.advanced.clock.accumulator < 1000 := by
    rw [advanced_clock]
    change (if s.clock.position + 1 = Config.songLimit then 0
      else s.clock.accumulator + s.clock.tempo - 1000) < 1000
    split
    · decide
    · exact Nat.sub_lt_left_of_lt_add one only
  have still : State.advanceWhile 1 s.withTempo.advanced = s.withTempo.advanced := by
    simp [State.advanceWhile, Nat.not_le.mpr small]
  have within : s.clock.position < Config.songLimit := room
  rw [State.tickClock, if_pos (by simp [running, within])]
  change State.advanceWhile 2 s.withTempo = _
  rw [State.advanceWhile, if_pos (by simpa [State.withTempo, running] using one), advance_eq,
    passEnd_of_not_passes (mt ((advanced_moved _).passes_iff _ _).mp passes), still]

/-- Two states alike in the turn, its notes and marks, and the channels. -/
structure SameNotes (s u : State) : Prop where
  turn : u.turn = s.turn
  tallied : ∀ i : Fin 4, u.slots[i].tallied = s.slots[i].tallied
  track : ∀ i : Fin 4, u.slots[i].track = s.slots[i].track
  channels : u.voice.channels = s.voice.channels
  scoring : u.voice.scoring = s.voice.scoring

namespace SameNotes

variable {s u : State} (h : SameNotes s u)
include h

theorem judging (m : Fin 4) : u.judging m = s.judging m := by
  rw [State.judging, State.judging, h.channels]

theorem noteMark (m : Fin 4) (n : Nat) : u.noteMark m n = s.noteMark m n := by
  simp only [State.noteMark, h.turn, h.tallied]

theorem marksNote (m : Fin 4) (n : Nat) : u.marksNote m n ↔ s.marksNote m n := by
  simp only [State.marksNote, h.turn, h.tallied]

theorem stageTrack : u.stageTrack = s.stageTrack := by
  simp only [State.stageTrack, h.turn, h.track]

theorem passedNotes (m : Fin 4) (time : Nat) : u.passedNotes m time = s.passedNotes m time := by
  simp only [State.passedNotes, State.partNotes, h.stageTrack, h.channels, h.scoring]

end SameNotes

/-- The lines that a tick's advance takes leave notes, marks and channels to the tallies. -/
theorem tick_sameNotes (s : State) (n : Nat) : SameNotes s (State.lineEventsAt
    { s.tickTimers.withTempo with clock := s.tickTimers.withTempo.clock.stepped } n) := by
  have lines : Touches [.lines, .cache, .video]
      { s.tickTimers.withTempo with clock := s.tickTimers.withTempo.clock.stepped } _ :=
    lineEventsAt_touches _ n
  have slots : (State.lineEventsAt
    { s.tickTimers.withTempo with clock := s.tickTimers.withTempo.clock.stepped } n).slots =
      s.tickTimers.slots := lines .slots (by decide)
  have voice : (State.lineEventsAt
    { s.tickTimers.withTempo with clock := s.tickTimers.withTempo.clock.stepped } n).voice =
      s.tickTimers.voice := lines .voice (by decide)
  exact ⟨lines .turn (by decide), fun i => by rw [slots, tickTimers_slot],
    fun i => by rw [slots, tickTimers_slot], by rw [voice]; rfl, by rw [voice]; rfl⟩

theorem SameTally.trans {s u v : State} (h : SameTally s u) (g : SameTally u v) : SameTally s v :=
  ⟨g.stage.trans h.stage, g.slots.trans h.slots, g.voice.trans h.voice⟩

/-- Both commands that jump come to a jump that tallies what was open before them. -/
theorem jump_tallies {s : State} {p : Port} {x : BitVec 32} {i : Instr} (hc : s.canTake i = true)
    (within : x.toNat ≤ 3599999)
    (command : (i = .seek p x ∧ s.clock.state ≠ .stopped ∧ x.toNat ≠ s.clock.position) ∨
      (i = .sync p x ∧ s.clock.state = .running ∧
        s.clock.slipWindow < ((x.toNat : Int) - s.clock.position).natAbs))
    (stays : ¬ s.Passes s.clock.position x.toNat) :
    ∃ u, exec i s = .next u ∧ SameTally s.tallyAllOpen u := by
  rcases command with ⟨rfl, moving, other⟩ | ⟨rfl, running, beyond⟩
  · have taken := seekBlock_of_other (s := s.accept p ⟨0x22, be32 x.toNat⟩) within moving other
    rw [jump_of_not_passes (s := s.accept p _) stays] at taken
    have before : SameTally s (s.accept p ⟨0x22, be32 x.toNat⟩) := ⟨rfl, rfl, rfl⟩
    have jumped := before.tallyAllOpen.trans (jumped_sameTally _ x.toNat)
    generalize (s.accept p ⟨0x22, be32 x.toNat⟩).jumped x.toNat = w at taken jumped
    exact ⟨_, exec_taken rfl rfl hc taken, jumped.stage, jumped.slots, jumped.voice⟩
  · have taken := syncBlock_of_beyond (s := s.accept p ⟨0x23, be32 x.toNat⟩) within running beyond
    let v := (s.accept p ⟨0x23, be32 x.toNat⟩).withSlip x.toNat
    have position : v.clock.position = s.clock.position := by rw [withSlip_clock]; rfl
    have quiet : ¬ v.Passes v.clock.position x.toNat := by
      rw [position, withSlip_passes_iff]; exact stays
    rw [slip_eq, jump_of_not_passes quiet] at taken
    have before : SameTally s v := by
      refine ⟨?_, withSlip_touches _ _ .slots (by decide), withSlip_touches _ _ .voice (by decide)⟩
      rw [withSlip_turn, Option.map_map]
      rfl
    have jumped := before.tallyAllOpen.trans (jumped_sameTally v x.toNat)
    change _ = (⟨v.jumped x.toNat, _, _⟩ : Taken) at taken
    generalize v.jumped x.toNat = w at taken jumped
    exact ⟨_, exec_taken rfl rfl hc taken, jumped.stage, jumped.slots, jumped.voice⟩

theorem judging_eq_false {s : State} {m : Fin 4} (h : s.voice.channels[m].enabled = false ∨
    s.voice.channels[m].frozen = true) : s.judging m = false := by
  rcases h with off | frozen
  · rw [State.judging, off, Bool.false_and]
  · rw [State.judging, frozen, Bool.not_true, Bool.and_false]

theorem judging_eq_true {s : State} {m : Fin 4} (on : s.voice.channels[m].enabled = true)
    (running : s.voice.channels[m].frozen = false) : s.judging m = true := by
  rw [State.judging, on, running]; rfl

/-- Settles O37: each mic's part in a tally sees its own channel and marks alone. -/
theorem talliesFollowTheClock : Obligations.TalliesFollowTheClock := by
  unfold Obligations.TalliesFollowTheClock
  intro mark closed
  refine ⟨fun s t stage => ?all, fun s p x i hc within command stays => ?jump,
    fun s t upToDate stage running room one only stays => ?advance⟩
  case jump =>
    obtain ⟨u, run, tallied⟩ := jump_tallies hc within command stays
    exact ⟨u, run, tallied.voice, tallied.slots⟩
  case all =>
    intro v
    refine ⟨tallyAllOpen_touches s, fun m => ?_⟩
    intro c
    refine ⟨fun quiet => ?_, fun o on unfrozen opened => ⟨fun marked => ?_, fun unmarked marks => ?_⟩⟩
    · exact tallyAllOpen_of_none (by
        rcases quiet with off | frozen | closed
        exacts [.inl (judging_eq_false (.inl off)), .inl (judging_eq_false (.inr frozen)), .inr closed])
    · obtain ⟨channel, kept⟩ := tallyAllOpen_of_open (judging_eq_true on unfrozen) opened
      obtain ⟨tallied, same⟩ := tally_marked marked
      refine ⟨channel.trans (tallied.trans ?_), fun j => (kept j).trans (same j)⟩
      rw [filter_open opened]
    · obtain ⟨channel, kept⟩ := tallyAllOpen_of_open (judging_eq_true on unfrozen) opened
      obtain ⟨tallied, set⟩ := tally_unmarked unmarked ⟨t, stage, marks⟩
      rw [countsFor_open opened] at set
      refine ⟨channel.trans (tallied.trans ?_), fun j => (kept j).trans (set j)⟩
      rw [tallied_unmarked, countsFor_open opened, filter_open opened]
  case advance =>
    have tick := exec_tick_of_upToDate upToDate
    rw [tickClock_of_one_advance (s := s.tickTimers) running room one only stays] at tick
    have moved := (withTempo_moved s.tickTimers).trans (advanced_moved _)
    have same := tick_sameNotes s (s.clock.position + 1)
    have passed : s.tickTimers.withTempo.advanced = State.tallyPassed (State.lineEventsAt
      { s.tickTimers.withTempo with clock := s.tickTimers.withTempo.clock.stepped }
        (s.clock.position + 1)) (s.clock.position + 1) := rfl
    refine ⟨_, tick, moved.turn.trans stage, fun m => ?_⟩
    intro c due
    rw [passed]
    generalize State.lineEventsAt _ _ = v at same ⊢
    have mem : ∀ x, due x ↔
        x ∈ v.passedNotes m (s.clock.position + 1) ∧ v.noteMark m x.2 = none := by
      intro x
      rw [same.passedNotes, same.noteMark, State.passedNotes, List.mem_filter, decide_eq_true_iff,
        and_assoc]
      rfl
    have channel : v.voice.channels[m] = c := by rw [same.channels]
    refine ⟨fun quiet => ?_, fun n on unfrozen hn alone marks => ?_⟩
    · have still : MicEq m v (v.tallyPassed (s.clock.position + 1)) := tallyPassed_of_none (by
        rw [same.judging]
        rcases quiet with off | frozen | idle
        · exact .inl (judging_eq_false (.inl off))
        · exact .inl (judging_eq_false (.inr frozen))
        · exact .inr fun n hn unmarked => idle n ((mem n).mpr ⟨hn, unmarked⟩))
      exact ⟨still.1.trans channel, fun j => (still.2 j).trans (same.noteMark m j)⟩
    · intro counts
      obtain ⟨passes, unmarked⟩ := (mem n).mp hn
      have marks : v.marksNote m n.2 := (same.marksNote m n.2).mpr ⟨t, stage, marks⟩
      obtain ⟨made, kept⟩ := tallyPassed_of_one ((same.judging m).trans (judging_eq_true on unfrozen))
        passes unmarked marks fun x hx none_ => alone x ((mem x).mpr ⟨hx, none_⟩)
      obtain ⟨tallied, set⟩ := tally_unmarked unmarked marks
      have counted : c.countsFor n.2 = counts := by
        cases opened : c.openNote <;> simp [Channel.countsFor, counts, opened]
      rw [channel, counted] at set
      rw [channel, tallied_unmarked, counted] at tallied
      refine ⟨made.trans tallied, fun j => ((kept j).trans (set j)).trans ?_⟩
      rw [same.noteMark]
      rfl

end Sys2Proof.Machine
end

section
/-! The commands that load a slot, and the intervals that end a slot's state (R68 to R72, R77 to R80). -/

namespace Sys2Proof.Machine

theorem slotOf_of_lt {b : Byte} (h : b.toNat < 4) : slotOf b = some ⟨b.toNat, h⟩ := dif_pos h

theorem slotOf_of_not_lt {b : Byte} (h : ¬ b.toNat < 4) : slotOf b = none := dif_neg h

/-- A command whose block sets one slot. -/
theorem slot_runs {i : Instr} {p : Port} {f : Frame} {s : State} {r : ResultCode} {d : List Byte}
    {block : State → Taken} {n : Fin 4} {x : Slot} (hf : frameOf i = some (p, f))
    (he : exec i s = clientCommand i s block) (hc : s.canTake i = true)
    (taken : block (s.accept p f) = ⟨(s.accept p f).setSlot n x, r, d⟩) :
    ∃ u, Runs i [.slots] r d s u ∧ u.slots = s.slots.set n.val x n.isLt :=
  ⟨_, runs_block hf he hc taken (setSlot_touches _ _ _) (by decide), rfl⟩

theorem faultSlot_slots (s : State) (n : Fin 4) (r : FaultReason) (index : Option Nat) :
    (s.faultSlot n r index).slots = s.slots.set n.val
      { s.slots[n] with state := .fault, fault := some (r, index), timer := 0 } n.isLt := by
  rw [State.faultSlot, raise_slots]
  rfl

theorem faultSlot_shows (s : State) (n : Fin 4) (r : FaultReason) (index : Option Nat) {q : Port}
    (hq : q ∈ playbackConsole) :
    (s.faultSlot n r index).shows q (.slotFault n (s.slots[n].ticket.getD 0) r) :=
  raise_shows _ _ _ _ hq

/-- A command whose block faults one slot. -/
theorem fault_runs {i : Instr} {p : Port} {f : Frame} {s : State} {r : ResultCode} {d : List Byte}
    {block : State → Taken} {n : Fin 4} {reason : FaultReason} (hf : frameOf i = some (p, f))
    (he : exec i s = clientCommand i s block) (hc : s.canTake i = true)
    (taken : block (s.accept p f) = ⟨(s.accept p f).faultSlot n reason none, r, d⟩) :
    ∃ u, Runs i [.slots, .notices] r d s u ∧
      u.slots = s.slots.set n.val
        { s.slots[n] with state := .fault, fault := some (reason, none), timer := 0 } n.isLt ∧
      u.shows .playback (.slotFault n (s.slots[n].ticket.getD 0) reason) ∧
      u.shows .console (.slotFault n (s.slots[n].ticket.getD 0) reason) :=
  ⟨_, runs_block hf he hc taken (faultSlot_touches _ _ _ _) (by decide),
    faultSlot_slots (s.accept p f) n reason none,
    reply_shows.mpr (faultSlot_shows (s.accept p f) n reason none (by decide)),
    reply_shows.mpr (faultSlot_shows (s.accept p f) n reason none (by decide))⟩

/-! ## The blocks on a slot of the store -/

section

variable {s : State} {b : Byte} (h : b.toNat < 4)
include h

theorem loadBeginBlock_of_lt (t : Nat) : loadBeginBlock b t s =
    if s.slots[b.toNat].state ≠ .reserved ∨ s.slots[b.toNat].ticket ≠ some t then ⟨s, .stale, []⟩
    else if ∃ j : Fin 4, s.slots[j].state = .loading then ⟨s, .busy, []⟩
    else ⟨s.setSlot ⟨b.toNat, h⟩
      { s.slots[b.toNat] with state := .loading, bytes := [], timer := 2000 }, .ok, []⟩ := by
  have loading : s.loadingSlot.isSome = true ↔ ∃ j : Fin 4, s.slots[j].state = .loading := by
    rw [Option.isSome_iff_ne_none, ne_eq, loadingSlot_eq_none_iff]
    exact not_forall_not
  rw [loadBeginBlock, slotOf_of_lt h]
  simp only [Bool.or_eq_true, decide_eq_true_eq, loading]
  rfl

theorem loadDataBlock_of_lt {d : List Byte} (length : 1 ≤ d.length ∧ d.length ≤ 240) (o : Nat) :
    loadDataBlock b o d s =
    if s.slots[b.toNat].state ≠ .loading then ⟨s, .stale, []⟩
    else if o ≠ s.slots[b.toNat].bytes.length then
      ⟨s, .order, be16 s.slots[b.toNat].bytes.length⟩
    else if 49152 < s.slots[b.toNat].bytes.length + d.length then
      ⟨s.faultSlot ⟨b.toNat, h⟩ .overflow none, .full, []⟩
    else ⟨s.setSlot ⟨b.toNat, h⟩
      { s.slots[b.toNat] with bytes := s.slots[b.toNat].bytes ++ d, timer := 2000 }, .ok,
        be16 (s.slots[b.toNat].bytes.length + d.length)⟩ := by
  have within : outside 1 240 d.length = false :=
    Bool.eq_false_iff.mpr fun out => by rw [outside_iff] at out; omega
  rw [loadDataBlock, slotOf_of_lt h]
  simp only [within]
  rfl

theorem loadEndBlock_of_lt (l c : Nat) : loadEndBlock b l c s =
    if s.slots[b.toNat].state ≠ .loading then ⟨s, .stale, []⟩
    else if l ≠ s.slots[b.toNat].bytes.length then
      ⟨s.faultSlot ⟨b.toNat, h⟩ .length none, .ok, [7, 1, BitVec.ofNat 8 FaultReason.length.place]⟩
    else if c ≠ byteSum s.slots[b.toNat].bytes then
      ⟨s.faultSlot ⟨b.toNat, h⟩ .sum none, .ok, [7, 1, BitVec.ofNat 8 FaultReason.sum.place]⟩
    else ⟨s.setSlot ⟨b.toNat, h⟩ { s.slots[b.toNat] with
      state := .checking, timer := checkTime s.slots[b.toNat].bytes.length }, .ok, [3, 0, 0]⟩ := by
  rw [loadEndBlock, slotOf_of_lt h]
  rfl

end

theorem loadDataBlock_of_outside {s : State} {b : Byte} {d : List Byte}
    (h : ¬ (b.toNat < 4 ∧ 1 ≤ d.length ∧ d.length ≤ 240)) (o : Nat) :
    loadDataBlock b o d s = ⟨s, .range, []⟩ := by
  by_cases slot : b.toNat < 4
  · have out : outside 1 240 d.length = true := by
      rw [outside_iff]; omega
    rw [loadDataBlock, slotOf_of_lt slot]
    simp only [out]
    rfl
  · rw [loadDataBlock, slotOf_of_not_lt slot]
    rfl

/-- The sum is kept below 65,536 byte by byte; it is that of all bytes (R71). -/
theorem byteSum_eq (bytes : List Byte) : byteSum bytes = (bytes.map (·.toNat)).sum % 65536 := by
  suffices general : ∀ n, n < 65536 → bytes.foldl (fun n b => (n + b.toNat) % 65536) n =
      (n + (bytes.map (·.toNat)).sum) % 65536 by
    rw [byteSum, general 0 (by decide), Nat.zero_add]
  induction bytes with
  | nil => exact fun n hn => (Nat.mod_eq_of_lt hn).symm
  | cons b bytes ih =>
    intro n _
    rw [List.foldl_cons, ih _ (Nat.mod_lt _ (by decide)), List.map_cons, List.sum_cons]
    omega

theorem checkTime_eq (n : Nat) : checkTime n = max 1 ((n + 2047) / 2048) := by
  rw [checkTime, ceilDiv]; rfl

/-- Settles O28: each block is its chain of checks, and the last outcome of each sets the slot. -/
theorem loadsAreTakenInOrder : Obligations.LoadsAreTakenInOrder := by
  refine fun s p n => ⟨fun t hc => ?begin_, fun o d hc => ?data, fun l c hc => ?end_⟩
  case begin_ =>
    split
    next h =>
      have taken := loadBeginBlock_of_lt (s := s.accept p ⟨0x18, n :: be16 t.toNat⟩) h t.toNat
      intro x
      split
      next stale => exact runs_unchanged rfl rfl hc (taken.trans (if_pos stale))
      next fresh =>
        have taken := taken.trans (if_neg fresh)
        split
        next busy => exact runs_unchanged rfl rfl hc (taken.trans (if_pos busy))
        next idle => exact slot_runs rfl rfl hc (taken.trans (if_neg idle))
    next h =>
      exact runs_unchanged rfl rfl hc (by rw [loadBeginBlock, slotOf_of_not_lt h]; rfl)
  case data =>
    split
    next h =>
      have taken := loadDataBlock_of_lt
        (s := s.accept p ⟨0x19, n :: be16 o.toNat ++ (BitVec.ofNat 8 d.length :: d)⟩) h.1 h.2 o.toNat
      intro x
      split
      next stale => exact runs_unchanged rfl rfl hc (taken.trans (if_pos stale))
      next loading =>
        have taken := taken.trans (if_neg loading)
        split
        next gap => exact runs_unchanged rfl rfl hc (taken.trans (if_pos gap))
        next next_ =>
          have taken := taken.trans (if_neg next_)
          split
          next full => exact fault_runs rfl rfl hc (taken.trans (if_pos full))
          next room => exact slot_runs rfl rfl hc (taken.trans (if_neg room))
    next h => exact runs_unchanged rfl rfl hc (loadDataBlock_of_outside h _)
  case end_ =>
    split
    next h =>
      have taken := loadEndBlock_of_lt
        (s := s.accept p ⟨0x1A, n :: be16 l.toNat ++ be16 c.toNat⟩) h l.toNat c.toNat
      intro x
      split
      next stale => exact runs_unchanged rfl rfl hc (taken.trans (if_pos stale))
      next loading =>
        have taken := taken.trans (if_neg loading)
        intro fault
        by_cases length : l.toNat ≠ x.bytes.length
        · have reason : fault = some .length := if_pos length
          rw [reason]
          exact fault_runs rfl rfl hc (taken.trans (if_pos length))
        have taken := taken.trans (if_neg length)
        by_cases sum : c.toNat ≠ (x.bytes.map (·.toNat)).sum % 65536
        · have reason : fault = some .sum := (if_neg length).trans (if_pos sum)
          rw [reason]
          exact fault_runs rfl rfl hc (taken.trans (if_pos (by rw [byteSum_eq]; exact sum)))
        · have reason : fault = none := (if_neg length).trans (if_neg sum)
          rw [reason]
          have taken := taken.trans (if_neg (by rw [byteSum_eq]; exact sum))
          rw [checkTime_eq] at taken
          exact slot_runs rfl rfl hc taken
    next h =>
      exact runs_unchanged rfl rfl hc (by rw [loadEndBlock, slotOf_of_not_lt h]; rfl)

/-! ## Intervals (R70, R72, R77 to R80) -/

theorem slotDue_of_state {s : State} {i : Fin 4} {x : SlotState} (out : s.slots[i].timer = 0)
    (state : s.slots[i].state = x) : s.slotDue x i = true := by
  rw [State.slotDue, state, out]
  simp

/-- A fault's slot, where its interval has run out. -/
theorem faultSlot_slots_of_out {s : State} {i : Fin 4} (out : s.slots[i].timer = 0)
    (r : FaultReason) (index : Option Nat) : (s.faultSlot i r index).slots =
      s.slots.set i.val { s.slots[i] with state := .fault, fault := some (r, index) } i.isLt := by
  simp only [faultSlot_slots, out]

theorem fault_ends {s : State} {i : Fin 4} (out : s.slots[i].timer = 0) (r : FaultReason)
    (index : Option Nat) : Touches [.slots, .notices] s (s.faultSlot i r index) ∧
      (s.faultSlot i r index).slots =
        s.slots.set i { s.slots[i] with state := .fault, fault := some (r, index) } ∧
      (s.faultSlot i r index).shows .playback (.slotFault i (s.slots[i].ticket.getD 0) r) ∧
      (s.faultSlot i r index).shows .console (.slotFault i (s.slots[i].ticket.getD 0) r) :=
  ⟨faultSlot_touches _ _ _ _, faultSlot_slots_of_out out r index,
    faultSlot_shows s i r index (by decide), faultSlot_shows s i r index (by decide)⟩

theorem completeCheck_of_error {s : State} {i : Fin 4} {r : FaultReason} {index : Option Nat}
    (h : checkTrack (s.wantedSong i) s.slots[i].bytes = .error (r, index)) :
    s.completeCheck i = s.faultSlot i r index := by rw [State.completeCheck, h]

theorem completeCheck_of_ok {s : State} {i : Fin 4} {t : Track}
    (h : checkTrack (s.wantedSong i) s.slots[i].bytes = .ok t) :
    s.completeCheck i = (s.setSlot i (s.slots[i].toReady t)).testCall := by
  rw [State.completeCheck, h]

theorem testCall_of_none {s : State} (h : s.callHead = none) :
    s.testCall.slots = s.slots ∧ s.testCall.book = s.book := by
  rw [State.testCall, h]
  exact ⟨retitle_slots s, retitle_book s⟩

theorem testCall_of_some {s c : State} (h : s.callHead = some c) :
    s.testCall.slots = c.changed.slots ∧ s.testCall.book = c.book := by
  rw [State.testCall, h]
  exact ⟨retitle_slots _, (retitle_book _).trans (changed_book c)⟩

/-- Settles O29: each row makes its interval's end, the check alone with two outcomes. -/
theorem slotIntervalsEndTheirStates : Obligations.SlotIntervalsEndTheirStates := by
  refine fun s i out => ?_
  intro x
  refine ⟨fun loading => ?stall, fun checking => ?check, fun scrub => ?scrub⟩
  case stall =>
    refine ⟨s.faultSlot i .stalled none, ?_, fault_ends out _ _⟩
    change Host.Outcome.next (s.endStall i) = _
    rw [State.endStall, if_pos (slotDue_of_state out loading)]
  case check =>
    have step : exec (.checkComplete i) s = .next (s.completeCheck i) := by
      change Host.Outcome.next (s.endCheck i) = _
      rw [State.endCheck, if_pos (slotDue_of_state out checking)]
    split
    next r index failed =>
      rw [completeCheck_of_error failed] at step
      exact ⟨_, step, fault_ends out r index⟩
    next track passed =>
      have touches := (completeCheck_touches s i).mono (ls := [.book, .slots, .lines, .cache, .notices])
        rfl
      rw [completeCheck_of_ok passed] at step touches
      intro ready
      have set : s.setSlot i (s.slots[i].toReady track) = ready := by
        change s.setSlot i _ = s.setSlot i _
        rw [Slot.toReady, ← out]
      rw [set] at step touches
      refine ⟨_, step, touches, (testCall_book ready).1, ?_⟩
      split
      next none_ => exact testCall_of_none none_
      next c some_ => exact testCall_of_some some_
  case scrub =>
    have ended : s.endScrub i = (s.setSlot i Slot.empty).pass :=
      if_pos (slotDue_of_state out scrub)
    refine ⟨s.endScrub i, rfl, endScrub_touches s i, ?_⟩
    rw [ended]

end Sys2Proof.Machine
end

section
/-! The reservation pass, entry by entry and as a whole, and the commands that set off one or undo a fault
(R64 to R67, R79). -/

namespace Sys2Proof.Machine

/-! ## One entry (R64, R65) -/

/-- A slot RESERVED for an entry. -/
def reservedFor (e : Entry) : Slot := { Slot.empty with state := .reserved, ticket := some e.ticket }

theorem toScrub_eq (x : Slot) : x.toScrub =
    { x with state := .scrub, ticket := none, timer := 1 + (x.bytes.length + 4095) / 4096 } := by
  rw [Slot.toScrub, ceilDiv]; rfl

theorem passEntry_of_bound {t : State} {n : Nat} {e : Entry} {i : Fin 4}
    (h : t.slots[i].ticket = some e.ticket) : State.passEntry (t, n) e = (t, n) := by
  have bound : (t.boundSlot e.ticket).isSome = true := by
    rw [Option.isSome_iff_ne_none]
    exact fun none_ => boundSlot_eq_none_iff.mp none_ i h
  exact if_pos bound

section

variable {t : State} {n : Nat} {e : Entry} (unbound : ∀ i : Fin 4, t.slots[i].ticket ≠ some e.ticket)
include unbound

theorem passEntry_of_free {i : Fin 4} (free : t.freeSlot = some i) :
    State.passEntry (t, n) e = (t.bindSlot i e, n) := by
  rw [State.passEntry, boundSlot_eq_none_iff.mpr unbound, free]
  rfl

theorem passEntry_of_scrub (full : t.freeSlot = none) (waits : 0 < n) :
    State.passEntry (t, n) e = (t, n - 1) := by
  rw [State.passEntry, boundSlot_eq_none_iff.mpr unbound, full]
  exact if_pos waits

theorem passEntry_of_reclaimed (full : t.freeSlot = none) {i : Fin 4} (far : t.reclaimable = some i) :
    State.passEntry (t, 0) e = (t.scrubSlot i, 0) := by
  rw [State.passEntry, boundSlot_eq_none_iff.mpr unbound, full, far]
  rfl

theorem passEntry_of_none (full : t.freeSlot = none) (none_ : t.reclaimable = none) :
    State.passEntry (t, 0) e = (t, 0) := by
  rw [State.passEntry, boundSlot_eq_none_iff.mpr unbound, full, none_]
  rfl

end

theorem freeSlot_eq_some_iff {t : State} {i : Fin 4} : t.freeSlot = some i ↔
    t.slots[i].state = .free ∧ ∀ j, j < i → t.slots[j].state ≠ .free := by
  have order : slotNumbers = List.finRange 4 := by decide
  rw [State.freeSlot, order, find?_finRange_eq_some_iff]
  simp only [decide_eq_true_eq, ne_eq]

theorem reclaimable_of_last {t : State} {ahead behind : List Entry} {x : Entry} {i : Fin 4}
    (entries : t.book.entries.drop t.depth = ahead ++ x :: behind)
    (bound : t.boundSlot x.ticket = some i) (last : ∀ y ∈ behind, t.boundSlot y.ticket = none) :
    t.reclaimable = some i := by
  have passed : behind.reverse.findSome? (fun e => t.boundSlot e.ticket) = none :=
    List.findSome?_eq_none_iff.mpr fun y hy => last y (List.mem_reverse.mp hy)
  rw [State.reclaimable, entries, List.reverse_append, List.reverse_cons, List.append_assoc,
    List.findSome?_append, passed]
  simp [bound]

theorem reclaimable_eq_none_iff {t : State} :
    t.reclaimable = none ↔ ∀ y ∈ t.book.entries.drop t.depth, t.boundSlot y.ticket = none := by
  rw [State.reclaimable, List.findSome?_eq_none_iff]
  simp only [List.mem_reverse]

theorem bindSlot_shows (t : State) (i : Fin 4) (e : Entry) :
    (t.bindSlot i e).shows .playback (.stageWanted e.ticket i e.songId) := raise_shows _ _ _ _ (.head _)

theorem bindSlot_port_other (t : State) (i : Fin 4) (e : Entry) {q : Port} (h : q ≠ .playback) :
    (t.bindSlot i e).port q = t.port q := raise_elsewhere _ _ _ h

/-! ## The pass as a whole -/

/-- What a pass has made so far of the room of `s`, its entries `done` served: a slot is as it was, has
become one of theirs, or was reclaimed from an entry beyond the depth with no slot FREE; and while one of
them has no slot, none is FREE. -/
structure Served (s t : State) (done : List Entry) : Prop where
  touches : Touches [.slots, .notices] s t
  slots : ∀ i : Fin 4, t.slots[i] = s.slots[i] ∨
    (s.slots[i].state = .free ∧ ∃ e ∈ done, s.boundSlot e.ticket = none ∧
      t.slots[i] = reservedFor e) ∨
    ((∃ e ∈ s.book.entries.drop s.depth, s.slots[i].ticket = some e.ticket) ∧
      (∀ j : Fin 4, t.slots[j].state ≠ .free) ∧ t.slots[i] = s.slots[i].toScrub)
  full : (∃ e ∈ done, t.boundSlot e.ticket = none) → ∀ i : Fin 4, t.slots[i].state ≠ .free

/-- What a pass relies on: a slot FREE or in SCRUB is bound to nothing, and no entry within the depth has
the ticket of one beyond it. -/
structure State.Serves (s : State) : Prop where
  unbound : ∀ i : Fin 4, s.slots[i].state = .free ∨ s.slots[i].state = .scrub →
    s.slots[i].ticket = none
  apart : ∀ e ∈ s.book.entries.take s.depth, ∀ x ∈ s.book.entries.drop s.depth, x.ticket ≠ e.ticket

theorem served_refl (s : State) : Served s s [] :=
  ⟨.refl _ _, fun _ => .inl rfl, fun ⟨_, mem, _⟩ => absurd mem List.not_mem_nil⟩

section

variable {s t : State} {done : List Entry} {e : Entry} (serves : s.Serves) (h : Served s t done)
  (within : done ⊆ s.book.entries.take s.depth) (near : e ∈ s.book.entries.take s.depth)
include h

theorem Served.mono {more : List Entry} (sub : done ⊆ more)
    (full : (∃ x ∈ more, t.boundSlot x.ticket = none) → ∀ i : Fin 4, t.slots[i].state ≠ .free) :
    Served s t more where
  touches := h.touches
  slots i := (h.slots i).imp_right (Or.imp_left fun ⟨free, x, mem, rest⟩ => ⟨free, x, sub mem, rest⟩)
  full := full

theorem Served.of_full (full : ∀ i : Fin 4, t.slots[i].state ≠ .free) : Served s t (done ++ [e]) :=
  h.mono (List.subset_append_left _ _) fun _ => full

theorem Served.of_bound {i : Fin 4} (bound : t.slots[i].ticket = some e.ticket) :
    Served s t (done ++ [e]) := by
  refine h.mono (List.subset_append_left _ _) fun ⟨x, mem, none_⟩ => ?_
  rcases List.mem_append.mp mem with mem | mem
  · exact h.full ⟨x, mem, none_⟩
  · obtain rfl := List.mem_singleton.mp mem
    exact absurd bound (boundSlot_eq_none_iff.mp none_ i)

include serves near in
/-- An entry that has no slot now had none before the pass. -/
theorem Served.unbound_before (unbound : ∀ i : Fin 4, t.slots[i].ticket ≠ some e.ticket) :
    s.boundSlot e.ticket = none := by
  refine boundSlot_eq_none_iff.mpr fun j bound => ?_
  rcases h.slots j with same | ⟨free, -⟩ | ⟨⟨x, far, ticket⟩, -⟩
  · exact unbound j (same ▸ bound)
  · rw [serves.unbound j (.inl free)] at bound
    cases bound
  · exact serves.apart e near x far (Option.some.inj (ticket.symm.trans bound))

include serves in
theorem Served.free_before {i : Fin 4} (free : t.slots[i].state = .free) :
    t.slots[i] = s.slots[i] ∧ s.slots[i].state = .free ∧ t.slots[i].ticket = none := by
  rcases h.slots i with same | ⟨-, x, -, -, made⟩ | ⟨-, full, -⟩
  · exact ⟨same, same ▸ free, same ▸ serves.unbound i (.inl (same ▸ free))⟩
  · rw [made] at free; cases free
  · exact absurd free (full i)

include serves near in
theorem Served.bindSlot (unbound : ∀ i : Fin 4, t.slots[i].ticket ≠ some e.ticket) {i : Fin 4}
    (free : t.slots[i].state = .free) : Served s (t.bindSlot i e) (done ++ [e]) := by
  obtain ⟨-, freeBefore, ticket⟩ := h.free_before serves free
  have own : (t.bindSlot i e).slots[i] = reservedFor e := by rw [bindSlot_slots, setSlot_slot_same]; rfl
  have other : ∀ j, j ≠ i → (t.bindSlot i e).slots[j] = t.slots[j] := fun j hj => by
    rw [bindSlot_slots, setSlot_slot_other _ hj]
  refine ⟨h.touches.trans (bindSlot_touches t i e), fun j => ?_, fun ⟨x, mem, none_⟩ => ?_⟩
  · by_cases hj : j = i
    · subst hj
      exact .inr (.inl ⟨freeBefore, e, by simp, h.unbound_before serves near unbound, own⟩)
    · rw [other j hj]
      rcases h.slots j with same | ⟨free', x, mem, rest⟩ | ⟨-, full, -⟩
      · exact .inl same
      · exact .inr (.inl ⟨free', x, List.mem_append_left _ mem, rest⟩)
      · exact absurd free (full i)
  · have tickets := boundSlot_eq_none_iff.mp none_
    rcases List.mem_append.mp mem with mem | mem
    · refine absurd free (h.full ⟨x, mem, boundSlot_eq_none_iff.mpr fun j => ?_⟩ i)
      by_cases hj : j = i
      · rw [hj, ticket]; exact nofun
      · exact other j hj ▸ tickets j
    · obtain rfl := List.mem_singleton.mp mem
      exact absurd (congrArg Slot.ticket own) (tickets i)

include serves within in
theorem Served.scrubSlot (full : ∀ i : Fin 4, t.slots[i].state ≠ .free) {i : Fin 4} {x : Entry}
    (far : x ∈ s.book.entries.drop s.depth) (bound : t.slots[i].ticket = some x.ticket) :
    Served s (t.scrubSlot i) (done ++ [e]) := by
  have own : (t.scrubSlot i).slots[i] = t.slots[i].toScrub := setSlot_slot_same _ _ _
  have other : ∀ j, j ≠ i → (t.scrubSlot i).slots[j] = t.slots[j] := fun j hj =>
    setSlot_slot_other _ hj _
  have busy : ∀ j : Fin 4, (t.scrubSlot i).slots[j].state ≠ .free := fun j => by
    by_cases hj : j = i
    · subst hj; rw [own]; exact nofun
    · rw [other j hj]; exact full j
  refine ⟨h.touches.trans ((scrubSlot_touches t i).mono rfl), fun j => ?_, fun _ => busy⟩
  by_cases hj : j = i
  · subst hj
    rcases h.slots j with same | ⟨-, y, mem, -, made⟩ | ⟨-, -, made⟩
    · exact .inr (.inr ⟨⟨x, far, same ▸ bound⟩, busy, by rw [own, same]⟩)
    · rw [made] at bound
      exact absurd (Option.some.inj bound).symm (serves.apart y (within mem) x far)
    · rw [made] at bound; cases bound
  · rw [other j hj]
    rcases h.slots j with same | ⟨free, y, mem, rest⟩ | ⟨entry, -, made⟩
    · exact .inl same
    · exact .inr (.inl ⟨free, y, List.mem_append_left _ mem, rest⟩)
    · exact .inr (.inr ⟨entry, busy, made⟩)

include serves within near in
theorem Served.passEntry (n : Nat) : Served s (State.passEntry (t, n) e).1 (done ++ [e]) := by
  by_cases bound : ∃ i : Fin 4, t.slots[i].ticket = some e.ticket
  · obtain ⟨i, bound⟩ := bound
    rw [passEntry_of_bound bound]
    exact h.of_bound bound
  have unbound : ∀ i : Fin 4, t.slots[i].ticket ≠ some e.ticket := not_exists.mp bound
  cases free : t.freeSlot with
  | some i =>
    rw [passEntry_of_free unbound free]
    exact h.bindSlot serves near unbound (freeSlot_some free)
  | none =>
    have full := freeSlot_eq_none_iff.mp free
    rcases Nat.eq_zero_or_pos n with rfl | waits
    · cases far : t.reclaimable with
      | none =>
        rw [passEntry_of_none unbound free far]
        exact h.of_full full
      | some i =>
        rw [passEntry_of_reclaimed unbound free far]
        obtain ⟨x, mem, bound⟩ := reclaimable_some far
        rw [h.touches .book (by decide), h.touches .depth (by decide)] at mem
        exact h.scrubSlot serves within full mem bound
    · rw [passEntry_of_scrub unbound free waits]
      exact h.of_full full

end

theorem foldl_passEntry_served {s : State} (serves : s.Serves) {es : List Entry}
    (near : es ⊆ s.book.entries.take s.depth) {t : State} {done : List Entry} (h : Served s t done)
    (within : done ⊆ s.book.entries.take s.depth) (n : Nat) :
    Served s (es.foldl State.passEntry (t, n)).1 (done ++ es) := by
  induction es generalizing t done n with
  | nil => rwa [List.append_nil]
  | cons e es ih =>
    rw [List.cons_subset] at near
    have served := ih near.2 (h.passEntry serves within near.1 n)
      (List.append_subset.mpr ⟨within, List.cons_subset.mpr ⟨near.1, List.nil_subset _⟩⟩)
      (State.passEntry (t, n) e).2
    rwa [List.append_assoc, List.singleton_append] at served

theorem pass_served {s : State} (serves : s.Serves) :
    Served s s.pass (s.book.entries.take s.depth) :=
  foldl_passEntry_served serves (List.Subset.refl _) (served_refl s) (List.nil_subset _) _

theorem State.ticketsDistinct.serves {s : State} (distinct : s.ticketsDistinct)
    (unbound : ∀ i : Fin 4, s.slots[i].state = .free ∨ s.slots[i].state = .scrub →
      s.slots[i].ticket = none) : s.Serves := by
  refine ⟨unbound, fun e he x hx same => ?_⟩
  obtain ⟨-, nodup, -⟩ := distinct
  rw [← List.take_append_drop s.depth s.book.entries, List.map_append, List.nodup_append] at nodup
  exact nodup.2.2 _ (List.mem_map_of_mem he) _ (List.mem_map_of_mem hx) same.symm

/-! ## SET-LOOKAHEAD and RETRY-STAGE (R66, R79) -/

/-- Two states alike in all that a pass reads and makes of slots. -/
structure SameRoom (s u : State) : Prop where
  book : u.book = s.book
  depth : u.depth = s.depth
  slots : u.slots = s.slots

theorem SameRoom.passEntry {s u : State} (h : SameRoom s u) (n : Nat) (e : Entry) :
    SameRoom (State.passEntry (s, n) e).1 (State.passEntry (u, n) e).1 ∧
      (State.passEntry (u, n) e).2 = (State.passEntry (s, n) e).2 := by
  have bound : ∀ m, u.boundSlot m = s.boundSlot m := boundSlot_congr h.slots
  have free : u.freeSlot = s.freeSlot := by rw [State.freeSlot, State.freeSlot, h.slots]
  have far : u.reclaimable = s.reclaimable := by
    simp only [State.reclaimable, h.book, h.depth, bound]
  have set : ∀ i x, SameRoom (s.setSlot i x) (u.setSlot i x) := fun i x =>
    ⟨h.book, h.depth, congrArg (fun v : Vector Slot 4 => v.set i.val x i.isLt) h.slots⟩
  simp only [State.passEntry, bound, free, far]
  split
  · exact ⟨h, rfl⟩
  · split
    next i _ =>
      refine ⟨⟨?_, ?_, ?_⟩, rfl⟩
      · exact (bindSlot_touches u i e .book (by decide)).trans
          (h.book.trans (bindSlot_touches s i e .book (by decide)).symm)
      · exact (bindSlot_touches u i e .depth (by decide)).trans
          (h.depth.trans (bindSlot_touches s i e .depth (by decide)).symm)
      · rw [bindSlot_slots, bindSlot_slots]
        exact (set i _).slots
    next =>
      split
      · exact ⟨h, rfl⟩
      · split
        next i _ =>
          have scrubbed := set i s.slots[i].toScrub
          rw [State.scrubSlot, State.scrubSlot, h.slots]
          exact ⟨scrubbed, rfl⟩
        next => exact ⟨h, rfl⟩

theorem SameRoom.pass {s u : State} (h : SameRoom s u) : SameRoom s.pass u.pass := by
  have count : u.scrubCount = s.scrubCount := by rw [State.scrubCount, State.scrubCount, h.slots]
  rw [State.pass, State.pass, h.book, h.depth, count]
  generalize s.book.entries.take s.depth = es
  generalize s.scrubCount = n
  induction es generalizing s u n with
  | nil => exact h
  | cons e es ih =>
    obtain ⟨entry, left⟩ := h.passEntry n e
    have step := ih entry (by rw [State.scrubCount, State.scrubCount, entry.slots])
      (State.passEntry (s, n) e).2
    have same : State.passEntry (u, n) e =
        ((State.passEntry (u, n) e).1, (State.passEntry (s, n) e).2) := Prod.ext rfl left
    rw [List.foldl_cons, List.foldl_cons, same]
    exact step

/-- The lookahead depth set. -/
def State.withDepth (s : State) (n : Nat) : State := { s with depth := n }

/-- SET-LOOKAHEAD at the Slot Store. -/
def setLookaheadBlock (n : Nat) (s : State) : Taken :=
  ⟨(s.withDepth (clampNat 1 3 n)).pass, okCode (outside 1 3 n), []⟩

theorem exec_setLookahead (p : Port) (d : Byte) (s : State) : exec (.setLookahead p d) s =
    clientCommand (.setLookahead p d) s (setLookaheadBlock d.toNat) := rfl

/-- RETRY-STAGE at the Slot Store. -/
def retryStageBlock (n : Nat) (s : State) : Taken :=
  match s.holder n with
  | .stage => refuse s .state
  | .nobody => refuse s .notFound
  | .entry e =>
    match s.boundSlot e.ticket with
    | some i => if s.slots[i].state = .fault then readOk (s.scrubSlot i) [] else refuse s .state
    | none => refuse s .state

theorem exec_retryStage (p : Port) (t : BitVec 16) (s : State) : exec (.retryStage p t) s =
    clientCommand (.retryStage p t) s (retryStageBlock t.toNat) := rfl

theorem retryStageBlock_of_stage {s : State} {n : Nat} (h : s.holder n = .stage) :
    retryStageBlock n s = ⟨s, .state, []⟩ := by rw [retryStageBlock, h]; rfl

theorem retryStageBlock_of_nobody {s : State} {n : Nat} (h : s.holder n = .nobody) :
    retryStageBlock n s = ⟨s, .notFound, []⟩ := by rw [retryStageBlock, h]; rfl

theorem retryStageBlock_of_unbound {s : State} {n : Nat} {e : Entry} (h : s.holder n = .entry e)
    (none_ : s.boundSlot e.ticket = none) : retryStageBlock n s = ⟨s, .state, []⟩ := by
  rw [retryStageBlock, h]; simp only [none_]; rfl

theorem retryStageBlock_of_bound {s : State} {n : Nat} {e : Entry} {i : Fin 4}
    (h : s.holder n = .entry e) (bound : s.boundSlot e.ticket = some i) : retryStageBlock n s =
      if s.slots[i].state = .fault then ⟨s.scrubSlot i, .ok, []⟩ else ⟨s, .state, []⟩ := by
  rw [retryStageBlock, h]; simp only [bound]; rfl

/-- Settles O30: the pass is followed entry by entry, keeping what it has made of each slot so far. -/
theorem passesServeTheFirstEntries : Obligations.PassesServeTheFirstEntries := by
  refine ⟨fun s => ?whole, fun t n e => ⟨fun ⟨i, bound⟩ => passEntry_of_bound bound, fun unbound =>
    ⟨fun i free first => ?bind, fun full => ?full⟩⟩, fun s distinct unbound _ => ?served, fun s p =>
      ⟨fun d hc => ?depth, fun t hc => ?retry⟩⟩
  case whole => rw [State.pass, State.scrubCount, List.countP_eq_length_filter]
  case bind =>
    refine ⟨t.bindSlot i e, passEntry_of_free unbound (freeSlot_eq_some_iff.mpr ⟨free, first⟩),
      bindSlot_touches t i e, bindSlot_slots t i e, bindSlot_shows t i e, fun q hq =>
        bindSlot_port_other t i e hq⟩
  case full =>
    have full := freeSlot_eq_none_iff.mpr full
    refine ⟨passEntry_of_scrub unbound full, ?_⟩
    rintro rfl
    refine ⟨fun ahead x behind i entries bound last => ?_, fun none_ =>
      passEntry_of_none unbound full (reclaimable_eq_none_iff.mpr none_)⟩
    rw [passEntry_of_reclaimed unbound full (reclaimable_of_last entries bound last), State.scrubSlot,
      toScrub_eq]
    rfl
  case served =>
    intro first u
    have served := pass_served (distinct.serves unbound)
    refine ⟨fun i => ?_, served.full⟩
    rw [← toScrub_eq]
    exact (served.slots i).imp_right (Or.imp_right id)
  case depth =>
    intro depth
    have clamped : clampNat 1 3 d.toNat = depth := clampNat_byte (by decide) d
    let a := (s.accept p ⟨0x1B, [d]⟩).withDepth depth
    have taken : setLookaheadBlock d.toNat (s.accept p ⟨0x1B, [d]⟩) =
        ⟨a.pass, if 1 ≤ d.toNat ∧ d.toNat ≤ 3 then .ok else .okClamped, []⟩ := by
      rw [setLookaheadBlock, clamped, okCode_of_outside]
    have touches : Touches [.depth, .slots, .notices] (s.accept p ⟨0x1B, [d]⟩) a.pass :=
      ((depth_touches _ _).mono rfl).trans ((pass_touches a).mono rfl)
    have same : SameRoom { s with depth := depth } a := ⟨rfl, rfl, rfl⟩
    exact ⟨_, runs_block rfl (exec_setLookahead p d s) hc taken touches (by decide),
      pass_touches a .depth (by decide), same.pass.slots⟩
  case retry =>
    split
    next stage => exact runs_unchanged rfl rfl hc (retryStageBlock_of_stage (s := s.accept p _) stage)
    next nobody =>
      exact runs_unchanged rfl rfl hc (retryStageBlock_of_nobody (s := s.accept p _) nobody)
    next e entry =>
      split
      next none_ =>
        exact runs_unchanged rfl rfl hc (retryStageBlock_of_unbound (s := s.accept p _) entry none_)
      next i bound =>
        have taken := retryStageBlock_of_bound (s := s.accept p ⟨0x1C, be16 t.toNat⟩) entry bound
        split
        next fault =>
          have taken := taken.trans (if_pos fault)
          rw [State.scrubSlot, toScrub_eq] at taken
          exact slot_runs rfl rfl hc taken
        next other => exact runs_unchanged rfl rfl hc (taken.trans (if_neg other))

end Sys2Proof.Machine
end

section
/-! The bytes of a track's records, read back (12.4, R194, R196). -/

namespace Sys2Proof.Machine

/-! ## Bytes and fields -/

theorem takeBytes_eq (n : Nat) (bs : List Byte) :
    takeBytes n bs = if n ≤ bs.length then some (bs.take n, bs.drop n) else none := by
  induction n generalizing bs with
  | zero => simp [takeBytes]
  | succ n ih =>
    cases bs with
    | nil => simp [takeBytes]
    | cons b bs =>
      rw [takeBytes, ih]
      by_cases h : n ≤ bs.length <;> simp [h]

theorem takeBytes_append {n : Nat} {xs : List Byte} (h : xs.length = n) (rest : List Byte) :
    takeBytes n (xs ++ rest) = some (xs, rest) := by
  rw [takeBytes_eq, if_pos (by simp [← h])]
  simp [← h]

theorem takeBytes_of_short {n : Nat} {bs : List Byte} (h : bs.length < n) : takeBytes n bs = none := by
  rw [takeBytes_eq, if_neg (Nat.not_le.mpr h)]

theorem takeBytes_some {n : Nat} {bs xs rest : List Byte} (h : takeBytes n bs = some (xs, rest)) :
    bs = xs ++ rest ∧ xs.length = n := by
  rw [takeBytes_eq] at h
  split at h
  next le =>
    obtain ⟨rfl, rfl⟩ := Prod.mk.inj (Option.some.inj h)
    exact ⟨(List.take_append_drop n bs).symm, List.length_take_of_le le⟩
  next => cases h

theorem beValue_append (xs ys : List Byte) :
    beValue (xs ++ ys) = beValue xs * 256 ^ ys.length + beValue ys := by
  have general : ∀ n, ys.foldl (fun n (b : Byte) => n * 256 + b.toNat) n =
      n * 256 ^ ys.length + beValue ys := by
    induction ys with
    | nil => simp [beValue]
    | cons y ys ih =>
      intro n
      rw [beValue, List.foldl_cons, List.foldl_cons, ih, ih, List.length_cons]
      ring
  rw [beValue, List.foldl_append, general]
  rfl

theorem beValue_lt (xs : List Byte) : beValue xs < 256 ^ xs.length := by
  induction xs using List.reverseRecOn with
  | nil => decide
  | append_singleton xs b ih =>
    have byte : b.toNat < 256 := b.isLt
    rw [beValue_append, List.length_append, List.length_singleton, Nat.pow_one, Nat.pow_succ]
    have value : beValue [b] = b.toNat := by simp [beValue]
    rw [value]
    omega

theorem beValue_be8 (n : Nat) : beValue (be8 n) = n % 256 := by simp [beValue, be8]

theorem beValue_be16 {n : Nat} (h : n < 2 ^ 16) : beValue (be16 n) = n := by
  simp only [beValue, be16, List.foldl_cons, List.foldl_nil, BitVec.toNat_ofNat]
  omega

theorem beValue_be24 {n : Nat} (h : n < 2 ^ 24) : beValue (be24 n) = n := by
  simp only [beValue, be24, List.foldl_cons, List.foldl_nil, BitVec.toNat_ofNat]
  omega

theorem beValue_be32 {n : Nat} (h : n < 2 ^ 32) : beValue (be32 n) = n := by
  simp only [beValue, be32, List.foldl_cons, List.foldl_nil, BitVec.toNat_ofNat]
  omega

/-- A field that stands behind some bytes and before others. -/
theorem fieldAt_append {bs field : List Byte} {offset width : Nat} (ahead behind : List Byte)
    (h : bs = ahead ++ field ++ behind) (ho : ahead.length = offset) (hw : field.length = width) :
    fieldAt bs offset width = beValue field := by
  rw [h, fieldAt, List.append_assoc, ← ho, List.drop_left, ← hw, List.take_left]

theorem fieldAt_lt (bs : List Byte) (offset width : Nat) : fieldAt bs offset width < 256 ^ width := by
  refine (beValue_lt _).trans_le (Nat.pow_le_pow_right (by decide) ?_)
  exact List.length_take_le _ _

theorem codesOf_flatMap (codes : List Code) : codesOf (codes.flatMap beCode) = codes := by
  induction codes with
  | nil => rfl
  | cons c codes ih =>
    have code : BitVec.ofNat 16 ((BitVec.ofNat 8 (c.toNat / 256)).toNat * 256 +
        (BitVec.ofNat 8 c.toNat).toNat) = c := by
      have := c.isLt
      apply BitVec.eq_of_toNat_eq
      simp only [BitVec.toNat_ofNat]
      omega
    change BitVec.ofNat 16 _ :: codesOf (codes.flatMap beCode) = _
    rw [ih, code]

theorem length_flatMap_beCode (codes : List Code) : (codes.flatMap beCode).length = 2 * codes.length := by
  induction codes with
  | nil => rfl
  | cons c codes ih =>
    rw [List.flatMap_cons, List.length_append, ih, List.length_cons]
    change 2 + _ = _
    omega

theorem length_codesOf {bs : List Byte} {n : Nat} (h : bs.length = 2 * n) :
    (codesOf bs).length = n := by
  induction n generalizing bs with
  | zero =>
    obtain rfl := List.length_eq_zero_iff.mp h
    rfl
  | succ n ih =>
    match bs, h with
    | a :: b :: bs, h =>
      have : bs.length = 2 * n := by simp only [List.length_cons] at h; omega
      rw [codesOf, List.length_cons, ih this]

/-! ## Syllables (R74, R196) -/

/-- A syllable's bytes before its glyph codes. -/
def Syllable.head (z : Syllable) : List Byte := be32 z.start ++ be16 z.duration ++ be8 z.glyphs.length

theorem Syllable.head_length (z : Syllable) : z.head.length = 7 := rfl

theorem Syllable.bytes_eq (z : Syllable) : z.bytes = z.head ++ z.glyphs.flatMap beCode := rfl

/-- The fields of a syllable with any glyph count byte. -/
theorem syllableHead_fields {start duration : Nat} (hs : start < 2 ^ 32) (hd : duration < 2 ^ 16)
    (g : Byte) : let bs := be32 start ++ be16 duration ++ [g]
    fieldAt bs 0 4 = start ∧ fieldAt bs 4 2 = duration ∧ fieldAt bs 6 1 = g.toNat := by
  refine ⟨?_, ?_, ?_⟩
  · exact (fieldAt_append [] (be16 duration ++ [g]) (by simp) rfl rfl).trans (beValue_be32 hs)
  · exact (fieldAt_append (be32 start) [g] rfl rfl rfl).trans (beValue_be16 hd)
  · have value : beValue [g] = g.toNat := by simp [beValue]
    rw [← value]
    exact fieldAt_append (field := [g]) (be32 start ++ be16 duration) [] (by simp) rfl rfl

theorem glyphCount_toNat {z : Syllable} (h : z.fits) :
    (BitVec.ofNat 8 z.glyphs.length).toNat = z.glyphs.length := by
  obtain ⟨-, -, -, most⟩ := h
  rw [BitVec.toNat_ofNat]
  omega

/-- One syllable whole, then the others. -/
theorem readSyllables_cons {z : Syllable} (h : z.fits) (n : Nat) (rest : List Byte) :
    readSyllables (n + 1) (z.bytes ++ rest) = match readSyllables n rest with
      | .error r => .error r
      | .ok (zs, rest) => .ok (z :: zs, rest) := by
  have ⟨hs, hd, least, most⟩ := h
  obtain ⟨start, duration, count⟩ := syllableHead_fields hs hd (BitVec.ofNat 8 z.glyphs.length)
  rw [glyphCount_toNat h] at count
  change fieldAt z.head 0 4 = _ at start
  change fieldAt z.head 4 2 = _ at duration
  change fieldAt z.head 6 1 = _ at count
  rw [readSyllables, Syllable.bytes_eq, List.append_assoc, takeBytes_append z.head_length]
  simp only [start, duration, count]
  rw [if_neg (by omega), if_neg (by omega), takeBytes_append (length_flatMap_beCode _)]
  simp only [codesOf_flatMap] <;> rfl

theorem readSyllables_append {zs : List Syllable} (h : ∀ z ∈ zs, z.fits) (n : Nat) (rest : List Byte) :
    readSyllables (zs.length + n) (zs.flatMap Syllable.bytes ++ rest) = match readSyllables n rest with
      | .error r => .error r
      | .ok (ys, rest) => .ok (zs ++ ys, rest) := by
  induction zs with
  | nil =>
    rw [List.length_nil, Nat.zero_add, List.flatMap_nil, List.nil_append]
    split <;> simp_all
  | cons z zs ih =>
    rw [List.forall_mem_cons] at h
    rw [List.length_cons, Nat.add_right_comm, List.flatMap_cons, List.append_assoc,
      readSyllables_cons h.1, ih h.2]
    cases readSyllables n rest <;> rfl

theorem readSyllables_bytes {zs : List Syllable} (h : ∀ z ∈ zs, z.fits) (rest : List Byte) :
    readSyllables zs.length (zs.flatMap Syllable.bytes ++ rest) = .ok (zs, rest) := by
  have whole := readSyllables_append h 0 rest
  simpa [readSyllables] using whole

/-- Bytes that end within a syllable. -/
theorem readSyllables_cut_head {z : Syllable} (h : z.fits) {bs rest : List Byte}
    (cut : z.bytes = bs ++ rest) (more : rest ≠ []) (n : Nat) :
    readSyllables (n + 1) bs = .error .truncated := by
  rw [readSyllables]
  by_cases short : bs.length < 7
  · rw [takeBytes_of_short short]
  have ⟨hs, hd, least, most⟩ := h
  obtain ⟨start, duration, count⟩ := syllableHead_fields hs hd (BitVec.ofNat 8 z.glyphs.length)
  rw [glyphCount_toNat h] at count
  change fieldAt z.head 6 1 = _ at count
  have head : bs.take 7 = z.head := by
    have := congrArg (List.take 7) cut
    rw [Syllable.bytes_eq, ← z.head_length, List.take_left, z.head_length,
      List.take_append_of_le_length (by omega)] at this
    exact this.symm
  have left : (bs.drop 7).length < 2 * z.glyphs.length := by
    have := congrArg List.length cut
    have := List.length_pos_iff.mpr more
    rw [Syllable.bytes_eq, List.length_append, List.length_append, length_flatMap_beCode,
      z.head_length] at *
    rw [List.length_drop]
    omega
  rw [takeBytes_eq, if_pos (by omega), head]
  simp only [count]
  rw [if_neg (by omega), if_neg (by omega), takeBytes_of_short left]

theorem readSyllables_cut {zs : List Syllable} (h : ∀ z ∈ zs, z.fits) {bs rest : List Byte}
    (cut : zs.flatMap Syllable.bytes = bs ++ rest) (more : rest ≠ []) :
    readSyllables zs.length bs = .error .truncated := by
  induction zs generalizing bs with
  | nil => exact absurd (List.append_eq_nil_iff.mp cut.symm).2 more
  | cons z zs ih =>
    rw [List.forall_mem_cons] at h
    rw [List.flatMap_cons, List.append_eq_append_iff] at cut
    rcases cut with ⟨within, rfl, cut⟩ | ⟨left, cut, rest_eq⟩
    · rw [List.length_cons, readSyllables_cons h.1, ih h.2 cut]
    · rw [List.length_cons]
      by_cases none_ : left = []
      · subst none_
        rw [List.append_nil] at cut
        subst cut
        rw [List.nil_append] at rest_eq
        have := readSyllables_cons h.1 zs.length []
        rw [List.append_nil] at this
        rw [this, ih h.2 (bs := []) rest_eq.symm]
      · exact readSyllables_cut_head h.1 cut none_ _

/-- Reading within the limits gives syllables that fit, as many as asked for. -/
theorem readSyllables_ok {n : Nat} {bs rest : List Byte} {zs : List Syllable}
    (h : readSyllables n bs = .ok (zs, rest)) : zs.length = n ∧ ∀ z ∈ zs, z.fits := by
  induction n generalizing bs zs rest with
  | zero =>
    obtain ⟨rfl, -⟩ := Prod.mk.inj (Except.ok.inj h)
    exact ⟨rfl, nofun⟩
  | succ n ih =>
    rw [readSyllables] at h
    split at h
    next => cases h
    next head rest' taken =>
      simp only at h
      split_ifs at h with empty many
      split at h
      next => cases h
      next codes rest'' codesTaken =>
        split at h
        next => cases h
        next zs' rest3 more =>
          obtain ⟨rfl, -⟩ := Prod.mk.inj (Except.ok.inj h)
          obtain ⟨length, fits⟩ := ih more
          have count := length_codesOf (takeBytes_some codesTaken).2
          refine ⟨by rw [List.length_cons, length], List.forall_mem_cons.mpr ⟨⟨?_, ?_, ?_, ?_⟩, fits⟩⟩
          · exact (fieldAt_lt _ _ _).trans_le (by decide)
          · exact (fieldAt_lt _ _ _).trans_le (by decide)
          · rw [count]; omega
          · rw [count]; omega

end Sys2Proof.Machine
end

section
/-! The records of a track one by one: their bytes, and what each does once read (R74, R75, R196). -/

namespace Sys2Proof.Machine

/-- A record once its bytes have been read: what it fails, or the walk with it. -/
def TrackRecord.enter (h : Header) (index : Nat) (w : Walk) : TrackRecord → Except FaultReason Walk
  | .line l =>
    if w.lines.length < h.lineCount then
      if !lineInRange h.partCount l then .error .range
      else if (w.lines.getLast?.any fun p => l.start < p.start) then .error .order
      else .ok { w with lines := w.lines ++ [l] }
    else .error .range
  | .note n =>
    if w.notes.length < h.noteCount then
      if (n.tag = .b && h.partCount = 1) || outside 36 96 n.number || n.duration = 0 ||
          Config.songLimit < n.stop then .error .range
      else if (w.notes.getLast?.any fun p => n.start < p.start) then .error .order
      else if (n.tag.isOf .a && n.start < w.endA) || (n.tag.isOf .b && n.start < w.endB) then
        .error .overlap
      else .ok { w with
        notes := w.notes ++ [n]
        endA := if n.tag.isOf .a then max w.endA n.stop else w.endA
        endB := if n.tag.isOf .b then max w.endB n.stop else w.endB }
    else .error .range
  | .mark kind time =>
    if w.marks.length < h.markCount then
      if Config.songLimit < time then .error .range
      else if (w.marks.getLast?.any fun p => time < p.time) then .error .order
      else .ok { w with marks := w.marks ++ [{ index := index, kind := kind, time := time }] }
    else .error .range

/-- What a step of the walk comes to with the bytes left behind it. -/
def andRest (rest : List Byte) : Except FaultReason Walk → Except FaultReason (Walk × List Byte)
  | .error r => .error r
  | .ok w => .ok (w, rest)

theorem andRest_ok {rest rest' : List Byte} {x : Except FaultReason Walk} {w : Walk}
    (h : andRest rest x = .ok (w, rest')) : x = .ok w := by
  cases x with
  | error => cases h
  | ok v =>
    obtain ⟨rfl, -⟩ := Prod.mk.inj (Except.ok.inj h)
    rfl

theorem tagAt_byte (t : PartTag) : tagAt t.byte.toNat = t ∧ t.byte.toNat ≤ 2 := by
  cases t <;> decide

/-! ## Lines -/

/-- A line's bytes behind its kind byte, where its syllables are still to be read. -/
theorem readLine_of_counts {h : Header} {w : Walk} {tag count : Byte} (bs : List Byte)
    (known : tag.toNat ≤ 2) (least : 1 ≤ count.toNat) (most : count.toNat ≤ 16) :
    readLine h w (tag :: count :: bs) = match readSyllables count.toNat bs with
      | .error r => .error r
      | .ok (zs, rest) =>
        let line : Line := { tag := tagAt tag.toNat, syllables := zs }
        if !lineInRange h.partCount line then .error .range
        else if (w.lines.getLast?.any fun p => line.start < p.start) then .error .order
        else .ok ({ w with lines := w.lines ++ [line] }, rest) := by
  rw [readLine]
  simp only
  exact (if_neg (by omega)).trans ((if_neg (by omega)).trans (if_neg (by omega)))

theorem readRecord_line (h : Header) (index : Nat) (w : Walk) (bs : List Byte) :
    readRecord h index w (1 :: bs) =
      if w.lines.length < h.lineCount then readLine h w bs else .error .range := rfl

theorem readRecord_note (h : Header) (index : Nat) (w : Walk) (bs : List Byte) :
    readRecord h index w (2 :: bs) =
      if w.notes.length < h.noteCount then readNote h w bs else .error .range := rfl

theorem readRecord_mark (h : Header) (index : Nat) (w : Walk) (bs : List Byte) :
    readRecord h index w (3 :: bs) =
      if w.marks.length < h.markCount then readMark index w bs else .error .range := rfl

theorem syllableCount_toNat {l : Line} (fits : (TrackRecord.line l).fits) :
    (BitVec.ofNat 8 l.syllables.length).toNat = l.syllables.length := by
  obtain ⟨-, most, -⟩ := fits
  rw [BitVec.toNat_ofNat]
  omega

theorem lineBytes_eq (l : Line) : (TrackRecord.line l).bytes =
    1 :: l.tag.byte :: BitVec.ofNat 8 l.syllables.length :: l.syllables.flatMap Syllable.bytes := rfl

theorem readRecord_lineBytes {h : Header} {l : Line} (fits : (TrackRecord.line l).fits) (index : Nat)
    (w : Walk) (rest : List Byte) : readRecord h index w ((TrackRecord.line l).bytes ++ rest) =
      andRest rest ((TrackRecord.line l).enter h index w) := by
  obtain ⟨tag, known⟩ := tagAt_byte l.tag
  have count := syllableCount_toNat fits
  obtain ⟨least, most, syllables⟩ := fits
  rw [lineBytes_eq, List.cons_append, List.cons_append, List.cons_append, readRecord_line,
    TrackRecord.enter]
  split
  · have least' : 1 ≤ (BitVec.ofNat 8 l.syllables.length).toNat := by omega
    have most' : (BitVec.ofNat 8 l.syllables.length).toNat ≤ 16 := by omega
    rw [readLine_of_counts _ known least' most', count,
      readSyllables_bytes syllables, tag]
    simp only
    split
    · rfl
    · split <;> rfl
  · rfl

/-! ## Notes -/

/-- The fields of a note with any tag byte. -/
theorem noteFields {start duration number : Nat} (hs : start < 2 ^ 32) (hd : duration < 2 ^ 16)
    (hn : number < 2 ^ 8) (tag : Byte) :
    let bs := be32 start ++ be16 duration ++ be8 number ++ [tag]
    fieldAt bs 0 4 = start ∧ fieldAt bs 4 2 = duration ∧ fieldAt bs 6 1 = number ∧
      fieldAt bs 7 1 = tag.toNat := by
  refine ⟨?_, ?_, ?_, ?_⟩
  · exact (fieldAt_append [] (be16 duration ++ be8 number ++ [tag]) (by simp) rfl rfl).trans
      (beValue_be32 hs)
  · exact (fieldAt_append (be32 start) (be8 number ++ [tag]) (by simp) rfl rfl).trans
      (beValue_be16 hd)
  · exact (fieldAt_append (be32 start ++ be16 duration) [tag] (by simp) rfl rfl).trans
      ((beValue_be8 _).trans (Nat.mod_eq_of_lt hn))
  · have value : beValue [tag] = tag.toNat := by simp [beValue]
    rw [← value]
    exact fieldAt_append (field := [tag]) (be32 start ++ be16 duration ++ be8 number) [] (by simp)
      rfl rfl

theorem noteBytes_eq (n : Note) : (TrackRecord.note n).bytes =
    2 :: (be32 n.start ++ be16 n.duration ++ be8 n.number ++ [n.tag.byte]) := rfl

theorem readRecord_noteBytes {h : Header} {n : Note} (fits : (TrackRecord.note n).fits) (index : Nat)
    (w : Walk) (rest : List Byte) : readRecord h index w ((TrackRecord.note n).bytes ++ rest) =
      andRest rest ((TrackRecord.note n).enter h index w) := by
  obtain ⟨hs, hd, hn⟩ := fits
  obtain ⟨start, duration, number, tagByte⟩ := noteFields hs hd hn n.tag.byte
  obtain ⟨tag, known⟩ := tagAt_byte n.tag
  rw [noteBytes_eq, List.cons_append, readRecord_note, TrackRecord.enter]
  split
  · rw [readNote, takeBytes_append (n := 8) (xs := _ ++ [n.tag.byte]) rfl]
    simp only [start, duration, number, tagByte, tag, decide_eq_false (Nat.not_lt.mpr known),
      Bool.false_or]
    split
    · rfl
    · split
      · rfl
      · split <;> rfl
  · rfl

/-! ## Marks -/

theorem readRecord_markBytes {h : Header} {kind time : Nat} (fits : (TrackRecord.mark kind time).fits)
    (index : Nat) (w : Walk) (rest : List Byte) :
    readRecord h index w ((TrackRecord.mark kind time).bytes ++ rest) =
      andRest rest ((TrackRecord.mark kind time).enter h index w) := by
  obtain ⟨known, ht⟩ := fits
  have field : fieldAt (be32 time) 0 4 = time := by
    exact (fieldAt_append [] [] (by simp) rfl rfl).trans (beValue_be32 ht)
  have byte : (BitVec.ofNat 8 kind).toNat = kind := by rw [BitVec.toNat_ofNat]; omega
  have bytes : (TrackRecord.mark kind time).bytes ++ rest =
      3 :: BitVec.ofNat 8 kind :: (be32 time ++ rest) := rfl
  rw [bytes, readRecord_mark, TrackRecord.enter]
  split
  · rw [readMark]
    simp only
    rw [if_neg (by omega), takeBytes_append (n := 4) rfl]
    simp only [field, byte]
    split
    · rfl
    · split <;> rfl
  · rfl

/-! ## Every record -/

theorem readRecord_bytes {h : Header} {r : TrackRecord} (fits : r.fits) (index : Nat) (w : Walk)
    (rest : List Byte) :
    readRecord h index w (r.bytes ++ rest) = andRest rest (r.enter h index w) := by
  cases r with
  | line l => exact readRecord_lineBytes fits index w rest
  | note n => exact readRecord_noteBytes fits index w rest
  | mark kind time => exact readRecord_markBytes fits index w rest

/-! ## Counts and kinds outside their limits -/

theorem readLine_of_tag {h : Header} {w : Walk} {tag : Byte} (unknown : 2 < tag.toNat)
    (bs : List Byte) : readLine h w (tag :: bs) = .error .range := by
  unfold readLine
  exact if_pos unknown

theorem readLine_of_tag_alone {h : Header} {w : Walk} {tag : Byte} (known : tag.toNat ≤ 2) :
    readLine h w [tag] = .error .truncated := by
  unfold readLine
  exact if_neg (Nat.not_lt.mpr known)

theorem readLine_of_no_syllables {h : Header} {w : Walk} {tag count : Byte} (known : tag.toNat ≤ 2)
    (empty : count.toNat = 0) (bs : List Byte) :
    readLine h w (tag :: count :: bs) = .error .range := by
  rw [readLine]
  exact (if_neg (Nat.not_lt.mpr known)).trans (if_pos empty)

theorem readLine_of_many_syllables {h : Header} {w : Walk} {tag count : Byte}
    (known : tag.toNat ≤ 2) (many : 16 < count.toNat) (bs : List Byte) :
    readLine h w (tag :: count :: bs) = .error .limit := by
  rw [readLine]
  exact (if_neg (Nat.not_lt.mpr known)).trans ((if_neg (by omega)).trans (if_pos many))

theorem readRecord_of_kind {h : Header} {index : Nat} {w : Walk} {k : Byte} (line : k ≠ 1)
    (note : k ≠ 2) (mark : k ≠ 3) (bs : List Byte) :
    readRecord h index w (k :: bs) = .error .range := by
  have other : ∀ n : Fin 4, k ≠ BitVec.ofNat 8 n → k.toNat ≠ n := fun n ne eq =>
    ne (BitVec.eq_of_toNat_eq (by rw [eq, BitVec.toNat_ofNat]; omega))
  rw [readRecord]
  exact (if_neg (other 1 line)).trans ((if_neg (other 2 note)).trans (if_neg (other 3 mark)))

/-! ## What has been read was a record -/

theorem readLine_ok {h : Header} {w w' : Walk} {bs rest : List Byte}
    (room : w.lines.length < h.lineCount) (index : Nat) (ok : readLine h w bs = .ok (w', rest)) :
    ∃ l : Line, (TrackRecord.line l).fits ∧ (TrackRecord.line l).enter h index w = .ok w' := by
  match bs with
  | [] => cases ok
  | tag :: bs =>
    by_cases known : tag.toNat ≤ 2
    swap
    · cases (readLine_of_tag (Nat.not_le.mp known) bs).symm.trans ok
    match bs with
    | [] => cases (readLine_of_tag_alone known).symm.trans ok
    | count :: bs =>
      rcases Nat.eq_zero_or_pos count.toNat with empty | least
      · cases (readLine_of_no_syllables known empty bs).symm.trans ok
      by_cases most : count.toNat ≤ 16
      swap
      · cases (readLine_of_many_syllables known (Nat.not_le.mp most) bs).symm.trans ok
      rw [readLine_of_counts bs known least most] at ok
      split at ok
      next => cases ok
      next zs rest' syllables =>
        obtain ⟨length, fits⟩ := readSyllables_ok syllables
        refine ⟨{ tag := tagAt tag.toNat, syllables := zs }, ⟨length ▸ least, length ▸ most, fits⟩, ?_⟩
        rw [TrackRecord.enter, if_pos room]
        simp only at ok
        split_ifs at ok with range order
        obtain ⟨rfl, -⟩ := Prod.mk.inj (Except.ok.inj ok)
        rw [if_neg range, if_neg order]

theorem readNote_ok {h : Header} {w w' : Walk} {bs rest : List Byte}
    (room : w.notes.length < h.noteCount) (index : Nat) (ok : readNote h w bs = .ok (w', rest)) :
    ∃ n : Note, (TrackRecord.note n).fits ∧ (TrackRecord.note n).enter h index w = .ok w' := by
  rw [readNote] at ok
  split at ok
  next => cases ok
  next f rest' taken =>
    refine ⟨{ start := fieldAt f 0 4, duration := fieldAt f 4 2, number := fieldAt f 6 1
              tag := tagAt (fieldAt f 7 1) },
      ⟨fieldAt_lt f 0 4, fieldAt_lt f 4 2, fieldAt_lt f 6 1⟩, ?_⟩
    rw [TrackRecord.enter, if_pos room]
    simp only [Bool.or_assoc] at ok ⊢
    split at ok
    next => cases ok
    next range =>
      rw [Bool.or_eq_true, not_or] at range
      rw [if_neg range.2]
      split at ok
      next => cases ok
      next order =>
        rw [if_neg order]
        split at ok
        next => cases ok
        next overlap =>
          rw [if_neg overlap]
          exact congrArg Except.ok (Prod.mk.inj (Except.ok.inj ok)).1

theorem readMark_ok {h : Header} {w w' : Walk} {bs rest : List Byte} {index : Nat}
    (room : w.marks.length < h.markCount) (ok : readMark index w bs = .ok (w', rest)) :
    ∃ kind time, (TrackRecord.mark kind time).fits ∧
      (TrackRecord.mark kind time).enter h index w = .ok w' := by
  match bs with
  | [] => cases ok
  | kind :: bs =>
    rw [readMark] at ok
    split_ifs at ok with unknown
    split at ok
    next => cases ok
    next f rest' taken =>
      refine ⟨kind.toNat, fieldAt f 0 4, ⟨Nat.not_lt.mp unknown, fieldAt_lt f 0 4⟩, ?_⟩
      rw [TrackRecord.enter, if_pos room]
      simp only at ok
      split_ifs at ok with range order
      obtain ⟨rfl, -⟩ := Prod.mk.inj (Except.ok.inj ok)
      rw [if_neg range, if_neg order]

theorem readRecord_ok {h : Header} {index : Nat} {w w' : Walk} {bs rest : List Byte}
    (ok : readRecord h index w bs = .ok (w', rest)) :
    ∃ r : TrackRecord, r.fits ∧ r.enter h index w = .ok w' := by
  match bs with
  | [] => cases ok
  | kind :: bs =>
    rw [readRecord] at ok
    split_ifs at ok with line room note room mark room
    · obtain ⟨l, fits, entered⟩ := readLine_ok room index ok
      exact ⟨.line l, fits, entered⟩
    · obtain ⟨n, fits, entered⟩ := readNote_ok room index ok
      exact ⟨.note n, fits, entered⟩
    · obtain ⟨k, time, fits, entered⟩ := readMark_ok room ok
      exact ⟨.mark k time, fits, entered⟩

end Sys2Proof.Machine
end

section
/-! The walk over a track's records, as the records read so far make it (R74, R75). -/

namespace Sys2Proof.Machine

/-! ## What has been read -/

/-- The end of the latest-ending note of a part. -/
def latestEnd (p : Part) (notes : List Note) : Nat :=
  notes.foldl (fun e n => if n.tag.isOf p then max e n.stop else e) 0

/-- The walk with these records read. -/
def walkOf (rs : List TrackRecord) : Walk :=
  { lines := linesOf rs, notes := notesOf rs, marks := marksOf rs
    endA := latestEnd .a (notesOf rs), endB := latestEnd .b (notesOf rs) }

theorem linesOf_append (rs : List TrackRecord) (r : TrackRecord) :
    linesOf (rs ++ [r]) = linesOf rs ++ linesOf [r] := List.filterMap_append

theorem notesOf_append (rs : List TrackRecord) (r : TrackRecord) :
    notesOf (rs ++ [r]) = notesOf rs ++ notesOf [r] := List.filterMap_append

theorem marksOf_append (rs : List TrackRecord) (r : TrackRecord) :
    marksOf (rs ++ [r]) = marksOf rs ++ match r with
      | .mark kind time => [{ index := rs.length + 1, kind := kind, time := time }]
      | .line _ | .note _ => [] := by
  rw [marksOf, List.zipIdx_append, List.filterMap_append, Nat.zero_add]
  cases r <;> rfl

theorem latestEnd_append (p : Part) (notes : List Note) (n : Note) :
    latestEnd p (notes ++ [n]) =
      if n.tag.isOf p then max (latestEnd p notes) n.stop else latestEnd p notes := by
  rw [latestEnd, List.foldl_append]
  rfl

theorem lt_latestEnd_iff {p : Part} {notes : List Note} {t : Nat} :
    t < latestEnd p notes ↔ ∃ n ∈ notes, n.tag.isOf p = true ∧ t < n.stop := by
  induction notes using List.reverseRecOn with
  | nil => simp [latestEnd]
  | append_singleton notes n ih =>
    rw [latestEnd_append]
    split
    next ofPart => simp [or_and_right, exists_or, ih, ofPart]
    next other => simp [or_and_right, exists_or, ih, other]

/-! ## The order of syllables, and parts in common -/

theorem syllablesInOrder_iff_isChain (zs : List Syllable) : syllablesInOrder zs = true ↔
    zs.IsChain fun x y => x.start + x.duration ≤ y.start := by
  induction zs with
  | nil => simp [syllablesInOrder]
  | cons z zs ih =>
    cases zs with
    | nil => simp [syllablesInOrder]
    | cons y zs => rw [syllablesInOrder, Bool.and_eq_true, ih, decide_eq_true_iff, List.isChain_cons_cons]

theorem syllablesInOrder_iff (zs : List Syllable) : syllablesInOrder zs = true ↔
    zs.Pairwise fun x y => x.start + x.duration ≤ y.start := by
  have trans : IsTrans Syllable fun x y => x.start + x.duration ≤ y.start :=
    ⟨fun x y z xy yz => xy.trans (by omega)⟩
  rw [syllablesInOrder_iff_isChain, List.isChain_iff_pairwise]

theorem lineInRange_iff {partCount : Nat} {l : Line} : lineInRange partCount l = true ↔
    ¬ (l.tag = .b ∧ partCount = 1) ∧
      (l.syllables.Pairwise fun x y => x.start + x.duration ≤ y.start) ∧
      ∀ z ∈ l.syllables, z.start + z.duration ≤ 3599999 := by
  rw [lineInRange, Bool.and_eq_true, Bool.and_eq_true, syllablesInOrder_iff, and_assoc]
  have limit : Config.songLimit = 3599999 := rfl
  simp only [limit, Bool.not_eq_true', Bool.and_eq_false_iff, decide_eq_false_iff_not,
    List.all_eq_true, decide_eq_true_iff, not_and_or]

theorem sharesPart_iff {m n : Note} : m.sharesPart n ↔
    (m.tag.isOf .a = true ∧ n.tag.isOf .a = true) ∨ (m.tag.isOf .b = true ∧ n.tag.isOf .b = true) := by
  rw [Note.sharesPart]
  cases m.tag <;> cases n.tag <;> decide

theorem getLast?_any_iff {α : Type} {xs : List α} {p : α → Bool} :
    xs.getLast?.any p = true ↔ ∃ x, xs.getLast? = some x ∧ p x = true :=
  Option.any_eq_true ..

/-! ## What a record fails -/

def TrackRecord.OutOfRange (h : Header) (before : List TrackRecord) : TrackRecord → Prop
  | .line l => h.lineCount ≤ (linesOf before).length ∨ (l.tag = .b ∧ h.partCount = 1) ∨
      (∃ z ∈ l.syllables, 3599999 < z.start + z.duration) ∨
      ¬ l.syllables.Pairwise fun x y => x.start + x.duration ≤ y.start
  | .note n => h.noteCount ≤ (notesOf before).length ∨ (n.tag = .b ∧ h.partCount = 1) ∨
      n.number < 36 ∨ 96 < n.number ∨ n.duration = 0 ∨ 3599999 < n.start + n.duration
  | .mark _ time => h.markCount ≤ (marksOf before).length ∨ 3599999 < time

def TrackRecord.OutOfOrder (before : List TrackRecord) : TrackRecord → Prop
  | .line l => ∃ p, (linesOf before).getLast? = some p ∧ l.start < p.start
  | .note n => ∃ p, (notesOf before).getLast? = some p ∧ n.start < p.start
  | .mark _ time => ∃ p, (marksOf before).getLast? = some p ∧ time < p.time

def TrackRecord.Overlaps (before : List TrackRecord) : TrackRecord → Prop
  | .note n => ∃ p ∈ notesOf before, p.sharesPart n ∧ n.start < p.start + p.duration
  | .line _ | .mark _ _ => False

theorem fails_iff {h : Header} {before : List TrackRecord} {r : TrackRecord} {reason : FaultReason} :
    r.fails h before reason ↔
      (reason = .range ∧ r.OutOfRange h before) ∨
      (reason = .order ∧ ¬ r.OutOfRange h before ∧ r.OutOfOrder before) ∨
      (reason = .overlap ∧ ¬ r.OutOfRange h before ∧ ¬ r.OutOfOrder before ∧ r.Overlaps before) := by
  cases r with
  | note n => exact Iff.rfl
  | line l =>
    refine or_congr Iff.rfl ((or_iff_left ?_).symm)
    exact fun ⟨_, _, _, none_⟩ => none_
  | mark kind time =>
    refine or_congr Iff.rfl ((or_iff_left ?_).symm)
    exact fun ⟨_, _, _, none_⟩ => none_

theorem passes_iff {h : Header} {before : List TrackRecord} {r : TrackRecord} :
    (∀ reason, ¬ r.fails h before reason) ↔
      ¬ r.OutOfRange h before ∧ ¬ r.OutOfOrder before ∧ ¬ r.Overlaps before := by
  simp only [fails_iff]
  refine ⟨fun none_ => ?_, fun ⟨range, order, overlap⟩ reason fails => ?_⟩
  · have range : ¬ r.OutOfRange h before := fun x => none_ _ (.inl ⟨rfl, x⟩)
    have order : ¬ r.OutOfOrder before := fun x => none_ _ (.inr (.inl ⟨rfl, range, x⟩))
    exact ⟨range, order, fun x => none_ _ (.inr (.inr ⟨rfl, range, order, x⟩))⟩
  · rcases fails with ⟨-, x⟩ | ⟨-, -, x⟩ | ⟨-, -, -, x⟩
    · exact range x
    · exact order x
    · exact overlap x

theorem walkOf_line (rs : List TrackRecord) (l : Line) :
    walkOf (rs ++ [.line l]) = { walkOf rs with lines := linesOf rs ++ [l] } := by
  rw [walkOf, linesOf_append, notesOf_append, marksOf_append]
  simp [walkOf, linesOf, notesOf]

theorem walkOf_note (rs : List TrackRecord) (n : Note) :
    walkOf (rs ++ [.note n]) =
      { walkOf rs with
        notes := notesOf rs ++ [n]
        endA := if n.tag.isOf .a then max (walkOf rs).endA n.stop else (walkOf rs).endA
        endB := if n.tag.isOf .b then max (walkOf rs).endB n.stop else (walkOf rs).endB } := by
  rw [walkOf, linesOf_append, notesOf_append, marksOf_append]
  simp [walkOf, linesOf, notesOf, latestEnd_append]

theorem walkOf_mark (rs : List TrackRecord) (kind time : Nat) :
    walkOf (rs ++ [.mark kind time]) =
      { walkOf rs with
        marks := marksOf rs ++ [{ index := rs.length + 1, kind := kind, time := time }] } := by
  rw [walkOf, linesOf_append, notesOf_append, marksOf_append]
  simp [walkOf, linesOf, notesOf]

open Classical in
/-- A record read behind others: its first failure, or the walk with it. -/
theorem enter_walkOf (h : Header) (rs : List TrackRecord) (r : TrackRecord) :
    r.enter h (rs.length + 1) (walkOf rs) =
      if r.OutOfRange h rs then .error .range
      else if r.OutOfOrder rs then .error .order
      else if r.Overlaps rs then .error .overlap
      else .ok (walkOf (rs ++ [r])) := by
  cases r with
  | line l =>
    by_cases room : (linesOf rs).length < h.lineCount
    swap
    · exact (if_neg room).trans (if_pos (.inl (Nat.not_lt.mp room))).symm
    have range : (!lineInRange h.partCount l) = true ↔ (TrackRecord.line l).OutOfRange h rs := by
      rw [Bool.not_eq_true', ← Bool.not_eq_true, lineInRange_iff, TrackRecord.OutOfRange,
        or_iff_right (Nat.not_le.mpr room), not_and_or, not_not, not_and_or]
      simp only [not_forall, not_le, exists_prop]
      exact or_congr Iff.rfl or_comm
    have order : (((walkOf rs).lines.getLast?.any fun p => decide (l.start < p.start)) = true) ↔
        (TrackRecord.line l).OutOfOrder rs := by
      simp only [getLast?_any_iff, decide_eq_true_iff]
      rfl
    rw [walkOf_line]
    exact (if_pos room).trans (if_congr range rfl (if_congr order rfl (if_neg id).symm))
  | note n =>
    by_cases room : (notesOf rs).length < h.noteCount
    swap
    · exact (if_neg room).trans (if_pos (.inl (Nat.not_lt.mp room))).symm
    have range : ((n.tag = .b && h.partCount = 1) || outside 36 96 n.number || n.duration = 0 ||
        Config.songLimit < n.stop) = true ↔ (TrackRecord.note n).OutOfRange h rs := by
      have limit : Config.songLimit = 3599999 := rfl
      rw [TrackRecord.OutOfRange, or_iff_right (Nat.not_le.mpr room)]
      simp only [Bool.or_eq_true, Bool.and_eq_true, decide_eq_true_iff, outside, limit, Note.stop,
        or_assoc]
    have order : (((walkOf rs).notes.getLast?.any fun p => decide (n.start < p.start)) = true) ↔
        (TrackRecord.note n).OutOfOrder rs := by
      simp only [getLast?_any_iff, decide_eq_true_iff]
      rfl
    have overlap : ((n.tag.isOf .a && n.start < (walkOf rs).endA) ||
        (n.tag.isOf .b && n.start < (walkOf rs).endB)) = true ↔
        (TrackRecord.note n).Overlaps rs := by
      have ends : (walkOf rs).endA = latestEnd .a (notesOf rs) ∧
          (walkOf rs).endB = latestEnd .b (notesOf rs) := ⟨rfl, rfl⟩
      rw [ends.1, ends.2, TrackRecord.Overlaps]
      simp only [Bool.or_eq_true, Bool.and_eq_true, decide_eq_true_iff, lt_latestEnd_iff,
        sharesPart_iff, Note.stop]
      constructor
      · rintro (⟨part, p, mem, shares, before⟩ | ⟨part, p, mem, shares, before⟩)
        · exact ⟨p, mem, .inl ⟨shares, part⟩, before⟩
        · exact ⟨p, mem, .inr ⟨shares, part⟩, before⟩
      · rintro ⟨p, mem, ⟨shares, part⟩ | ⟨shares, part⟩, before⟩
        · exact .inl ⟨part, p, mem, shares, before⟩
        · exact .inr ⟨part, p, mem, shares, before⟩
    rw [walkOf_note]
    exact (if_pos room).trans (if_congr range rfl (if_congr order rfl (if_congr overlap rfl rfl)))
  | mark kind time =>
    by_cases room : (marksOf rs).length < h.markCount
    swap
    · exact (if_neg room).trans (if_pos (.inl (Nat.not_lt.mp room))).symm
    have range : Config.songLimit < time ↔ (TrackRecord.mark kind time).OutOfRange h rs :=
      (or_iff_right (Nat.not_le.mpr room)).symm
    have order : (((walkOf rs).marks.getLast?.any fun p => decide (time < p.time)) = true) ↔
        (TrackRecord.mark kind time).OutOfOrder rs := by
      simp only [getLast?_any_iff, decide_eq_true_iff]
      rfl
    rw [walkOf_mark]
    exact (if_pos room).trans (if_congr range rfl (if_congr order rfl (if_neg id).symm))

theorem enter_of_fails {h : Header} {rs : List TrackRecord} {r : TrackRecord} {reason : FaultReason}
    (fails : r.fails h rs reason) :
    r.enter h (rs.length + 1) (walkOf rs) = .error reason := by
  rw [enter_walkOf]
  rcases fails_iff.mp fails with ⟨rfl, range⟩ | ⟨rfl, range, order⟩ | ⟨rfl, range, order, overlap⟩
  · exact if_pos range
  · exact (if_neg range).trans (if_pos order)
  · exact (if_neg range).trans ((if_neg order).trans (if_pos overlap))

theorem enter_of_passes {h : Header} {rs : List TrackRecord} {r : TrackRecord}
    (passes : ∀ reason, ¬ r.fails h rs reason) :
    r.enter h (rs.length + 1) (walkOf rs) = .ok (walkOf (rs ++ [r])) := by
  obtain ⟨range, order, overlap⟩ := passes_iff.mp passes
  rw [enter_walkOf]
  exact (if_neg range).trans ((if_neg order).trans (if_neg overlap))

theorem passes_of_enter {h : Header} {rs : List TrackRecord} {r : TrackRecord} {w : Walk}
    (entered : r.enter h (rs.length + 1) (walkOf rs) = .ok w) :
    (∀ reason, ¬ r.fails h rs reason) ∧ w = walkOf (rs ++ [r]) := by
  have passes : ∀ reason, ¬ r.fails h rs reason := fun reason fails => by
    cases (enter_of_fails fails).symm.trans entered
  exact ⟨passes, Except.ok.inj (entered.symm.trans (enter_of_passes passes))⟩

/-! ## Records in a row -/

theorem recordsPass_append {h : Header} {rs : List TrackRecord} {r : TrackRecord} :
    recordsPass h (rs ++ [r]) ↔ recordsPass h rs ∧ ∀ reason, ¬ r.fails h rs reason := by
  constructor
  · exact fun pass => ⟨fun ahead x behind split => pass ahead x (behind ++ [r]) (by simp [split]),
      pass rs r [] rfl⟩
  · rintro ⟨pass, last⟩ ahead x behind split
    rcases List.eq_nil_or_concat behind with rfl | ⟨behind, y, rfl⟩
    · obtain ⟨rfl, eq⟩ := List.append_inj' split rfl
      obtain rfl := List.cons.inj eq |>.1
      exact last
    · have split : rs ++ [r] = (ahead ++ x :: behind) ++ [y] := by simp [split]
      exact pass ahead x behind (List.append_inj' split rfl).1

theorem recordsPass_nil (h : Header) : recordsPass h [] := fun _ _ _ eq _ => by simp at eq

/-- The walk through records that pass, from those read before them. -/
theorem readRecords_of_pass {h : Header} {before rs : List TrackRecord} (fits : ∀ r ∈ rs, r.fits)
    (pass : recordsPass h (before ++ rs)) (n : Nat) (rest : List Byte) :
    readRecords h (rs.length + n) (before.length + 1) (walkOf before)
        (rs.flatMap TrackRecord.bytes ++ rest) =
      readRecords h n ((before ++ rs).length + 1) (walkOf (before ++ rs)) rest := by
  induction rs generalizing before with
  | nil => simp
  | cons r rs ih =>
    have split : before ++ r :: rs = (before ++ [r]) ++ rs := by simp
    rw [List.forall_mem_cons] at fits
    have passes : ∀ reason, ¬ r.fails h before reason := pass before r rs rfl
    rw [List.length_cons, Nat.add_right_comm, List.flatMap_cons, List.append_assoc, readRecords,
      readRecord_bytes fits.1, enter_of_passes passes]
    rw [split] at pass ⊢
    have := ih fits.2 pass
    rw [List.length_append, List.length_singleton] at this
    exact this

/-- Whatever a walk comes to by itself was records that pass. -/
theorem readRecords_ok {h : Header} {n : Nat} {before : List TrackRecord} {bs : List Byte} {w : Walk}
    (ok : readRecords h n (before.length + 1) (walkOf before) bs = .ok w)
    (pass : recordsPass h before) (fits : ∀ r ∈ before, r.fits) :
    ∃ rs, rs.length = before.length + n ∧ recordsPass h rs ∧ (∀ r ∈ rs, r.fits) ∧
      w = walkOf rs := by
  induction n generalizing before bs with
  | zero => exact ⟨before, rfl, pass, fits, (Except.ok.inj ok).symm⟩
  | succ n ih =>
    rw [readRecords] at ok
    split at ok
    next => cases ok
    next w' rest read =>
      obtain ⟨r, rfits, entered⟩ := readRecord_ok read
      obtain ⟨passes, rfl⟩ := passes_of_enter entered
      have length : before.length + 1 + 1 = (before ++ [r]).length + 1 := by simp
      rw [length] at ok
      obtain ⟨rs, count, all⟩ := ih ok (recordsPass_append.mpr ⟨pass, passes⟩)
        (List.forall_mem_append.mpr ⟨fits, by simpa using rfits⟩)
      exact ⟨rs, by rw [count, List.length_append, List.length_singleton]; omega, all⟩

end Sys2Proof.Machine
end

section
/-! Bytes that spoil a track where its next record should stand (R74, R196). -/

namespace Sys2Proof.Machine

theorem readSyllables_of_glyphCount {start duration : Nat} (hs : start < 2 ^ 32)
    (hd : duration < 2 ^ 16) {g : Byte} {reason : FaultReason}
    (bad : (g = 0 ∧ reason = .range) ∨ (6 < g.toNat ∧ reason = .limit)) (n : Nat) (bs : List Byte) :
    readSyllables (n + 1) (be32 start ++ be16 duration ++ [g] ++ bs) = .error reason := by
  obtain ⟨-, -, count⟩ := syllableHead_fields hs hd g
  rw [readSyllables, takeBytes_append (n := 7) rfl]
  simp only [count]
  rcases bad with ⟨rfl, rfl⟩ | ⟨many, rfl⟩
  · exact if_pos rfl
  · exact (if_neg (by omega)).trans (if_pos many)

/-- Bytes that end within a record. -/
theorem readRecord_cut {h : Header} {rs : List TrackRecord} {r : TrackRecord} {bs rest : List Byte}
    (room : roomFor h rs r) (fits : r.fits) (cut : r.bytes = bs ++ rest) (more : rest ≠ [])
    (index : Nat) : readRecord h index (walkOf rs) bs = .error .truncated := by
  have short := congrArg List.length cut
  have left := List.length_pos_iff.mpr more
  rw [List.length_append] at short
  cases r with
  | line l =>
    obtain ⟨tag, known⟩ := tagAt_byte l.tag
    have count := syllableCount_toNat fits
    obtain ⟨least, most, syllables⟩ := fits
    have least' : 1 ≤ (BitVec.ofNat 8 l.syllables.length).toNat := by omega
    have most' : (BitVec.ofNat 8 l.syllables.length).toNat ≤ 16 := by omega
    rw [lineBytes_eq] at cut
    match bs with
    | [] => rfl
    | [k] =>
      obtain ⟨rfl, -⟩ := List.cons.inj cut
      exact (readRecord_line ..).trans (if_pos room)
    | [k, t] =>
      obtain ⟨rfl, cut₁⟩ := List.cons.inj cut
      obtain ⟨rfl, -⟩ := List.cons.inj cut₁
      exact (readRecord_line ..).trans ((if_pos room).trans (readLine_of_tag_alone known))
    | k :: t :: c :: bs =>
      obtain ⟨rfl, cut₁⟩ := List.cons.inj cut
      obtain ⟨rfl, cut₂⟩ := List.cons.inj cut₁
      obtain ⟨rfl, cut₃⟩ := List.cons.inj cut₂
      refine (readRecord_line ..).trans ((if_pos room).trans ?_)
      rw [readLine_of_counts _ known least' most', count, readSyllables_cut syllables cut₃ more]
  | note n =>
    change 9 = _ at short
    match bs with
    | [] => rfl
    | k :: bs =>
      obtain ⟨rfl, -⟩ := List.cons.inj cut
      refine (readRecord_note ..).trans ((if_pos room).trans ?_)
      rw [List.length_cons] at short
      rw [readNote, takeBytes_of_short (by omega)]
  | mark kind time =>
    have byte : (BitVec.ofNat 8 kind).toNat ≤ 2 := by
      have := fits.1
      rw [BitVec.toNat_ofNat]
      omega
    change 6 = _ at short
    match bs with
    | [] => rfl
    | [k] =>
      obtain ⟨rfl, -⟩ := List.cons.inj cut
      exact (readRecord_mark ..).trans (if_pos room)
    | k :: c :: bs =>
      obtain ⟨rfl, cut₁⟩ := List.cons.inj cut
      obtain ⟨rfl, -⟩ := List.cons.inj cut₁
      refine (readRecord_mark ..).trans ((if_pos room).trans ?_)
      rw [List.length_cons, List.length_cons] at short
      rw [readMark, if_neg (Nat.not_lt.mpr byte), takeBytes_of_short (by omega)]

/-- A kind that has had all its records. -/
theorem readRecord_full {h : Header} {rs : List TrackRecord} {r : TrackRecord} {k : Byte}
    (full : ¬ roomFor h rs r) (kind : r.bytes.head? = some k) (index : Nat) (bs : List Byte) :
    readRecord h index (walkOf rs) (k :: bs) = .error .range := by
  cases r with
  | line l =>
    obtain rfl : 1 = k := Option.some.inj kind
    exact (readRecord_line ..).trans (if_neg full)
  | note n =>
    obtain rfl : 2 = k := Option.some.inj kind
    exact (readRecord_note ..).trans (if_neg full)
  | mark _ _ =>
    obtain rfl : 3 = k := Option.some.inj kind
    exact (readRecord_mark ..).trans (if_neg full)

/-- Bytes that spoil the next record spoil it with their reason. -/
theorem readRecord_bad {h : Header} {rs : List TrackRecord} {bs : List Byte} {reason : FaultReason}
    (bad : BadRecord h rs bs reason) (index : Nat) :
    readRecord h index (walkOf rs) bs = .error reason := by
  cases bad with
  | ended => rfl
  | cut r _ rest room fits cut more => exact readRecord_cut room fits cut more index
  | kind k bs line note mark => exact readRecord_of_kind line note mark bs
  | full r k bs full kind => exact readRecord_full full kind index bs
  | lineTag tag bs room unknown =>
    exact (readRecord_line ..).trans ((if_pos room).trans (readLine_of_tag unknown bs))
  | syllableCount tag n bs _ room known count =>
    refine (readRecord_line ..).trans ((if_pos room).trans ?_)
    rcases count with ⟨rfl, rfl⟩ | ⟨many, rfl⟩
    · exact readLine_of_no_syllables known rfl bs
    · exact readLine_of_many_syllables known many bs
  | glyphCount tag n g zs start duration bs _ room known ahead most fits hs hd count =>
    have bytes : [1, tag, n] ++ zs.flatMap Syllable.bytes ++ be32 start ++ be16 duration ++ g :: bs =
        1 :: tag :: n :: (zs.flatMap Syllable.bytes ++
          (be32 start ++ be16 duration ++ [g] ++ bs)) := by simp
    obtain ⟨m, eq⟩ : ∃ m, n.toNat = zs.length + (m + 1) := ⟨n.toNat - zs.length - 1, by omega⟩
    rw [bytes]
    refine (readRecord_line ..).trans ((if_pos room).trans ?_)
    rw [readLine_of_counts _ known (by omega) most, eq, readSyllables_append fits,
      readSyllables_of_glyphCount hs hd count]
  | noteTag n tag bs room unknown =>
    have bytes : be32 n.start ++ be16 n.duration ++ be8 n.number ++ tag :: bs =
        (be32 n.start ++ be16 n.duration ++ be8 n.number ++ [tag]) ++ bs := by simp
    have value : beValue [tag] = tag.toNat := by simp [beValue]
    have field : fieldAt (be32 n.start ++ be16 n.duration ++ be8 n.number ++ [tag]) 7 1 = tag.toNat :=
      (fieldAt_append (field := [tag]) (be32 n.start ++ be16 n.duration ++ be8 n.number) []
        (by simp) rfl rfl).trans value
    refine (readRecord_note ..).trans ((if_pos room).trans ?_)
    rw [bytes, readNote, takeBytes_append (n := 8) rfl]
    simp only [field, decide_eq_true unknown, Bool.true_or, if_true]
  | markKind kind bs room unknown =>
    refine (readRecord_mark ..).trans ((if_pos room).trans ?_)
    rw [readMark]
    exact if_pos unknown

end Sys2Proof.Machine
end

section
/-! The header of a track: its tests, and its values read back (R73, 12.4). -/

namespace Sys2Proof.Machine

/-- A field within the first bytes is told by them. -/
theorem fieldAt_take {bs : List Byte} {n offset width : Nat} (h : offset + width ≤ n) :
    fieldAt (bs.take n) offset width = fieldAt bs offset width := by
  rw [fieldAt, fieldAt, List.drop_take, List.take_take, Nat.min_eq_left (by omega)]

/-- The glyph codes of title and artist. -/
def glyphCount (bs : List Byte) : Nat := fieldAt bs 19 1 + fieldAt bs 20 1

/-- The header as its bytes give it. -/
def headerAt (bs : List Byte) : Header :=
  { partCount := fieldAt bs 5 1, duration := fieldAt bs 9 4, originalKey := fieldAt bs 13 1
    lineCount := fieldAt bs 14 2, noteCount := fieldAt bs 16 2, markCount := fieldAt bs 18 1
    title := codesOf (((bs.drop 21).take (2 * glyphCount bs)).take (2 * fieldAt bs 19 1))
    artist := codesOf (((bs.drop 21).take (2 * glyphCount bs)).drop (2 * fieldAt bs 19 1)) }

theorem checkHeader_of_short {song : Nat} {bs : List Byte} (short : bs.length < 21) :
    checkHeader song bs = .error (.truncated, some 0) := by
  rw [checkHeader, takeBytes_of_short short]

theorem checkHeader_of_cut {song : Nat} {bs : List Byte} (cut : bs.length < 21 + 2 * glyphCount bs) :
    checkHeader song bs = .error (.truncated, some 0) := by
  by_cases short : bs.length < 21
  · exact checkHeader_of_short short
  rw [checkHeader, takeBytes_eq, if_pos (Nat.not_lt.mp short)]
  simp only [fieldAt_take (bs := bs) (n := 21) (offset := 19) (width := 1) (by decide),
    fieldAt_take (bs := bs) (n := 21) (offset := 20) (width := 1) (by decide)]
  rw [takeBytes_of_short]
  rw [List.length_drop]
  unfold glyphCount at cut
  omega

theorem checkHeader_of_whole {bs : List Byte} (song : Nat)
    (whole : 21 + 2 * glyphCount bs ≤ bs.length) :
    checkHeader song bs =
      if bs.take 4 ≠ [0x55, 0x46, 0x54, 0x4B] then .error (.signature, some 0)
      else if fieldAt bs 4 1 ≠ 1 then .error (.version, some 0)
      else if fieldAt bs 6 3 ≠ song then .error (.songMismatch, some 0)
      else if outside 1 2 (fieldAt bs 5 1) || outside 36 96 (fieldAt bs 13 1) ||
          Config.songLimit < fieldAt bs 9 4 then .error (.range, some 0)
      else if 512 < fieldAt bs 14 2 || 2048 < fieldAt bs 16 2 || 64 < fieldAt bs 18 1 ||
          40 < fieldAt bs 19 1 || 40 < fieldAt bs 20 1 then .error (.limit, some 0)
      else .ok (headerAt bs, bs.drop (21 + 2 * glyphCount bs)) := by
  have fields : ∀ offset width, offset + width ≤ 21 →
      fieldAt (bs.take 21) offset width = fieldAt bs offset width := fun _ _ => fieldAt_take
  have signature : (bs.take 21).take 4 = bs.take 4 := List.take_take ..
  rw [checkHeader, takeBytes_eq, if_pos (by omega)]
  simp only [fields 19 1 (by decide), fields 20 1 (by decide)]
  rw [takeBytes_eq, if_pos (by rw [List.length_drop]; unfold glyphCount at whole; omega)]
  simp only [fields 4 1 (by decide), fields 5 1 (by decide), fields 6 3 (by decide),
    fields 9 4 (by decide), fields 13 1 (by decide), fields 14 2 (by decide),
    fields 16 2 (by decide), fields 18 1 (by decide), signature, List.drop_drop]
  rfl

/-! ## A header's own bytes -/

/-- A header's bytes before the glyph codes. -/
def Header.head (song : Nat) (h : Header) : List Byte :=
  [0x55, 0x46, 0x54, 0x4B, 1] ++ be8 h.partCount ++ be24 song ++ be32 h.duration ++
    be8 h.originalKey ++ be16 h.lineCount ++ be16 h.noteCount ++ be8 h.markCount ++
    be8 h.title.length ++ be8 h.artist.length

theorem Header.bytes_eq (song : Nat) (h : Header) :
    h.bytes song = h.head song ++ (h.title.flatMap beCode ++ h.artist.flatMap beCode) := by
  rw [Header.bytes, Header.head, List.append_assoc]

theorem Header.head_fields {song : Nat} {h : Header} (hs : song < 2 ^ 24) (fits : h.fits) :
    let bs := h.head song
    fieldAt bs 4 1 = 1 ∧ fieldAt bs 5 1 = h.partCount ∧ fieldAt bs 6 3 = song ∧
      fieldAt bs 9 4 = h.duration ∧ fieldAt bs 13 1 = h.originalKey ∧
      fieldAt bs 14 2 = h.lineCount ∧ fieldAt bs 16 2 = h.noteCount ∧
      fieldAt bs 18 1 = h.markCount ∧ fieldAt bs 19 1 = h.title.length ∧
      fieldAt bs 20 1 = h.artist.length := by
  obtain ⟨parts, duration, lowKey, highKey, lines, notes, marks, title, artist⟩ := fits
  have byte : ∀ n, n < 256 → beValue (be8 n) = n := fun n small =>
    (beValue_be8 n).trans (Nat.mod_eq_of_lt small)
  refine ⟨rfl, ?_, ?_, ?_, ?_, ?_, ?_, ?_, ?_, ?_⟩
  · exact byte _ (by omega)
  · exact beValue_be24 hs
  · exact beValue_be32 (by omega)
  · exact byte _ (by omega)
  · exact beValue_be16 (by omega)
  · exact beValue_be16 (by omega)
  · exact byte _ (by omega)
  · exact byte _ (by omega)
  · exact byte _ (by omega)

/-- A header's own bytes are that header. -/
theorem checkHeader_bytes {song : Nat} {h : Header} (hs : song < 2 ^ 24) (fits : h.fits)
    (rest : List Byte) : checkHeader song (h.bytes song ++ rest) = .ok (h, rest) := by
  obtain ⟨version, parts, songId, duration, key, lines, notes, marks, title, artist⟩ :=
    h.head_fields hs fits
  rw [checkHeader, Header.bytes_eq, List.append_assoc, takeBytes_append (n := 21) rfl]
  simp only [version, parts, songId, duration, key, lines, notes, marks, title, artist]
  rw [takeBytes_append (by simp only [List.length_append, length_flatMap_beCode]; omega)]
  obtain ⟨partCount, duration, lowKey, highKey, lines, notes, marks, title, artist⟩ := fits
  have inRange : (outside 1 2 h.partCount || outside 36 96 h.originalKey ||
      decide (Config.songLimit < h.duration)) = false := by
    have limit : Config.songLimit = 3599999 := rfl
    simp only [outside, limit, Bool.or_eq_false_iff, decide_eq_false_iff_not]
    omega
  have inLimits : (decide (512 < h.lineCount) || decide (2048 < h.noteCount) ||
      decide (64 < h.markCount) || decide (40 < h.title.length) ||
      decide (40 < h.artist.length)) = false := by
    simp only [Bool.or_eq_false_iff, decide_eq_false_iff_not]
    omega
  have cut := length_flatMap_beCode h.title
  simp only [inRange, inLimits, ← cut, List.take_left, List.drop_left, codesOf_flatMap]
  have same : ∀ {α : Type} {x : α}, ¬ x ≠ x := fun ne => ne rfl
  exact (if_neg same).trans ((if_neg same).trans ((if_neg same).trans
    ((if_neg Bool.false_ne_true).trans (if_neg Bool.false_ne_true))))

end Sys2Proof.Machine
end

section
/-! The marks of a track as a whole (R76). -/

namespace Sys2Proof.Machine

/-! ## Spans of the interlude marks -/

/-- An interlude mark out of its turn, or after the END time. -/
def badCue (endTime : Nat) (m : MarkRecord × Nat) : Bool :=
  m.1.kind ≠ m.2 % 2 || decide (endTime < m.1.time)

/-- The times of a start mark and of the end mark behind it. -/
def spansOf (cues : List MarkRecord) : List (Nat × Nat) :=
  (List.range (cues.length / 2)).map fun n =>
    (((cues[2 * n]?).map (·.time)).getD 0, ((cues[2 * n + 1]?).map (·.time)).getD 0)

theorem spansOf_cons (m n : MarkRecord) (rest : List MarkRecord) :
    spansOf (m :: n :: rest) = (m.time, n.time) :: spansOf rest := by
  have half : (m :: n :: rest).length / 2 = rest.length / 2 + 1 := by
    rw [List.length_cons, List.length_cons]; omega
  rw [spansOf, half, List.range_succ_eq_map, List.map_cons, List.map_map]
  rfl

/-- The first mark at fault, or a start without an end, or the spans. -/
theorem pairSpans_eq (endTime : Nat) (cues : List MarkRecord) {k : Nat} (even : k % 2 = 0) :
    pairSpans endTime cues = match (cues.zipIdx k).find? (badCue endTime) with
      | some m => .error m.1.index
      | none =>
        if cues.length % 2 = 1 then .error ((cues.getLast?.map (·.index)).getD 0)
        else .ok (spansOf cues) := by
  match cues with
  | [] => rfl
  | [m] =>
    rw [pairSpans, List.zipIdx_singleton, List.find?_singleton]
    cases badCue endTime (m, k) <;> rfl
  | m :: n :: rest =>
    have first : badCue endTime (m, k) = (decide (m.kind ≠ 0) || decide (endTime < m.time)) := by
      rw [badCue, even]
    have second : badCue endTime (n, k + 1) = (decide (n.kind ≠ 1) || decide (endTime < n.time)) := by
      rw [badCue, show (k + 1) % 2 = 1 by omega]
    have length : (m :: n :: rest).length % 2 = rest.length % 2 := by
      rw [List.length_cons, List.length_cons]; omega
    rw [pairSpans, List.zipIdx_cons, List.zipIdx_cons, List.find?_cons, List.find?_cons,
      length, ← first, ← second]
    cases badCue endTime (m, k) with
    | true => rfl
    | false =>
      cases badCue endTime (n, k + 1) with
      | true => rfl
      | false =>
        rw [pairSpans_eq endTime rest (k := k + 1 + 1) (by omega)]
        cases (rest.zipIdx (k + 1 + 1)).find? (badCue endTime) with
        | some x => rfl
        | none =>
          by_cases odd : rest.length % 2 = 1
          · have last : (m :: n :: rest).getLast? = rest.getLast? := by
              cases rest with
              | nil => cases odd
              | cons x xs => rw [List.getLast?_cons_cons, List.getLast?_cons_cons]
            simp only [if_pos odd, last, Bool.false_eq_true, if_false]
          · simp only [if_neg odd, spansOf_cons, Bool.false_eq_true, if_false]

/-- Spans of marks in order of time: each within the END time, one after another. -/
theorem pairSpans_sound {endTime : Nat} {cues : List MarkRecord} {spans : List (Nat × Nat)}
    (ok : pairSpans endTime cues = .ok spans)
    (sorted : cues.Pairwise fun x y => x.time ≤ y.time) :
    2 * spans.length = cues.length ∧ (∀ x ∈ spans, x.1 ≤ x.2 ∧ x.2 ≤ endTime) ∧
      (∀ x ∈ spans, ∃ m ∈ cues, m.time = x.1) ∧ spans.Pairwise fun x y => x.2 ≤ y.1 := by
  match cues with
  | [] =>
    obtain rfl := Except.ok.inj ok
    exact ⟨rfl, nofun, nofun, .nil⟩
  | [m] => cases ok
  | m :: n :: rest =>
    rw [pairSpans] at ok
    split_ifs at ok with bad bad'
    split at ok
    next => cases ok
    next more pairs =>
      obtain rfl := Except.ok.inj ok
      obtain ⟨ahead, sorted'⟩ := List.pairwise_cons.mp sorted
      obtain ⟨ahead', sorted''⟩ := List.pairwise_cons.mp sorted'
      obtain ⟨length, within, from_, ordered⟩ := pairSpans_sound pairs sorted''
      simp only [Bool.or_eq_true, decide_eq_true_iff, not_or, not_lt] at bad bad'
      refine ⟨?_, ?_, ?_, List.pairwise_cons.mpr ⟨fun x mem => ?_, ordered⟩⟩
      · rw [List.length_cons, List.length_cons, List.length_cons]; omega
      · exact List.forall_mem_cons.mpr ⟨⟨ahead n (by simp), bad'.2⟩, within⟩
      · refine List.forall_mem_cons.mpr ⟨⟨m, by simp, rfl⟩, fun x mem => ?_⟩
        obtain ⟨y, mem, eq⟩ := from_ x mem
        exact ⟨y, by simp [mem], eq⟩
      · obtain ⟨y, mem, eq⟩ := from_ x mem
        exact eq ▸ ahead' y mem

end Sys2Proof.Machine
end

section
/-! What the records of a track are that all pass (R74, R75). -/

namespace Sys2Proof.Machine

/-- Behind values in order, one not below the last of them is in order. -/
theorem pairwise_concat {α : Type} {f : α → Nat} {xs : List α} {x : α}
    (sorted : xs.Pairwise fun a b => f a ≤ f b)
    (last : ¬ ∃ p, xs.getLast? = some p ∧ f x < f p) :
    (xs ++ [x]).Pairwise fun a b => f a ≤ f b := by
  refine List.pairwise_append.mpr ⟨sorted, List.pairwise_singleton .., fun a mem b eq => ?_⟩
  obtain rfl := List.mem_singleton.mp eq
  rcases List.eq_nil_or_concat xs with rfl | ⟨ys, p, rfl⟩
  · cases mem
  have least : f p ≤ f b := Nat.not_lt.mp fun lt => last ⟨p, by simp, lt⟩
  rw [List.concat_eq_append] at mem sorted
  rcases List.mem_append.mp mem with mem | mem
  · exact ((List.pairwise_append.mp sorted).2.2 a mem p (by simp)).trans least
  · exact List.mem_singleton.mp mem ▸ least

/-- What the lines, notes and marks of passing records are. -/
structure SoundRecords (h : Header) (rs : List TrackRecord) : Prop where
  counts : (linesOf rs).length + (notesOf rs).length + (marksOf rs).length = rs.length
  fewLines : (linesOf rs).length ≤ h.lineCount
  fewNotes : (notesOf rs).length ≤ h.noteCount
  fewMarks : (marksOf rs).length ≤ h.markCount
  lines : ∀ l ∈ linesOf rs, (TrackRecord.line l).fits ∧
    (l.syllables.Pairwise fun x y => x.start + x.duration ≤ y.start) ∧ ¬ (l.tag = .b ∧ h.partCount = 1)
  lineOrder : (linesOf rs).Pairwise fun x y => x.start ≤ y.start
  notes : ∀ n ∈ notesOf rs, 36 ≤ n.number ∧ n.number ≤ 96 ∧ 1 ≤ n.duration ∧
    ¬ (n.tag = .b ∧ h.partCount = 1)
  noteOrder : (notesOf rs).Pairwise fun x y => x.start ≤ y.start
  apart : (notesOf rs).Pairwise fun x y => x.sharesPart y → x.start + x.duration ≤ y.start
  marks : ∀ m ∈ marksOf rs, 1 ≤ m.index ∧ m.time ≤ 3599999
  markOrder : (marksOf rs).Pairwise fun x y => x.time ≤ y.time

theorem soundRecords_nil (h : Header) : SoundRecords h [] where
  counts := rfl
  fewLines := Nat.zero_le _
  fewNotes := Nat.zero_le _
  fewMarks := Nat.zero_le _
  lines := nofun
  lineOrder := .nil
  notes := nofun
  noteOrder := .nil
  apart := .nil
  marks := nofun
  markOrder := .nil

theorem SoundRecords.line {h : Header} {rs : List TrackRecord} {l : Line} (sound : SoundRecords h rs)
    (fits : (TrackRecord.line l).fits) (range : ¬ (TrackRecord.line l).OutOfRange h rs)
    (order : ¬ (TrackRecord.line l).OutOfOrder rs) : SoundRecords h (rs ++ [.line l]) := by
  have lines : linesOf (rs ++ [.line l]) = linesOf rs ++ [l] := linesOf_append ..
  have notes : notesOf (rs ++ [.line l]) = notesOf rs := (notesOf_append ..).trans (List.append_nil _)
  have marks : marksOf (rs ++ [.line l]) = marksOf rs := (marksOf_append ..).trans (List.append_nil _)
  obtain ⟨room, part, -, apart⟩ : _ ∧ _ ∧ _ ∧ _ := by
    simpa only [TrackRecord.OutOfRange, not_or] using range
  refine ⟨?_, ?_, ?_, ?_, ?_, ?_, ?_, ?_, ?_, ?_, ?_⟩ <;> simp only [lines, notes, marks]
  · rw [List.length_append, List.length_append, ← sound.counts, List.length_singleton,
      List.length_singleton]; omega
  · rw [List.length_append]; exact Nat.not_le.mp room
  · exact sound.fewNotes
  · exact sound.fewMarks
  · refine List.forall_mem_append.mpr ⟨sound.lines, fun x mem => ?_⟩
    obtain rfl := List.mem_singleton.mp mem
    exact ⟨fits, not_not.mp apart, part⟩
  · exact pairwise_concat sound.lineOrder order
  · exact sound.notes
  · exact sound.noteOrder
  · exact sound.apart
  · exact sound.marks
  · exact sound.markOrder

theorem SoundRecords.note {h : Header} {rs : List TrackRecord} {n : Note} (sound : SoundRecords h rs)
    (range : ¬ (TrackRecord.note n).OutOfRange h rs)
    (order : ¬ (TrackRecord.note n).OutOfOrder rs) (overlap : ¬ (TrackRecord.note n).Overlaps rs) :
    SoundRecords h (rs ++ [.note n]) := by
  have lines : linesOf (rs ++ [.note n]) = linesOf rs := (linesOf_append ..).trans (List.append_nil _)
  have notes : notesOf (rs ++ [.note n]) = notesOf rs ++ [n] := notesOf_append ..
  have marks : marksOf (rs ++ [.note n]) = marksOf rs := (marksOf_append ..).trans (List.append_nil _)
  obtain ⟨room, part, low, high, empty, -⟩ : _ ∧ _ ∧ _ ∧ _ ∧ _ ∧ _ := by
    simpa only [TrackRecord.OutOfRange, not_or] using range
  refine ⟨?_, ?_, ?_, ?_, ?_, ?_, ?_, ?_, ?_, ?_, ?_⟩ <;> simp only [lines, notes, marks]
  · rw [List.length_append, List.length_append, ← sound.counts, List.length_singleton,
      List.length_singleton]; omega
  · exact sound.fewLines
  · rw [List.length_append]; exact Nat.not_le.mp room
  · exact sound.fewMarks
  · exact sound.lines
  · exact sound.lineOrder
  · refine List.forall_mem_append.mpr ⟨sound.notes, fun x mem => ?_⟩
    obtain rfl := List.mem_singleton.mp mem
    exact ⟨Nat.not_lt.mp low, Nat.not_lt.mp high, Nat.one_le_iff_ne_zero.mpr empty, part⟩
  · exact pairwise_concat sound.noteOrder order
  · refine List.pairwise_append.mpr ⟨sound.apart, List.pairwise_singleton .., fun p mem x eq => ?_⟩
    obtain rfl := List.mem_singleton.mp eq
    exact fun shares => Nat.not_lt.mp fun lt => overlap ⟨p, mem, shares, lt⟩
  · exact sound.marks
  · exact sound.markOrder

theorem SoundRecords.mark {h : Header} {rs : List TrackRecord} {kind time : Nat}
    (sound : SoundRecords h rs) (range : ¬ (TrackRecord.mark kind time).OutOfRange h rs)
    (order : ¬ (TrackRecord.mark kind time).OutOfOrder rs) :
    SoundRecords h (rs ++ [.mark kind time]) := by
  have lines : linesOf (rs ++ [.mark kind time]) = linesOf rs :=
    (linesOf_append ..).trans (List.append_nil _)
  have notes : notesOf (rs ++ [.mark kind time]) = notesOf rs :=
    (notesOf_append ..).trans (List.append_nil _)
  have marks : marksOf (rs ++ [.mark kind time]) =
      marksOf rs ++ [{ index := rs.length + 1, kind := kind, time := time }] := marksOf_append ..
  obtain ⟨room, late⟩ : _ ∧ _ := by
    simpa only [TrackRecord.OutOfRange, not_or] using range
  refine ⟨?_, ?_, ?_, ?_, ?_, ?_, ?_, ?_, ?_, ?_, ?_⟩ <;> simp only [lines, notes, marks]
  · rw [List.length_append, List.length_append, ← sound.counts, List.length_singleton,
      List.length_singleton]; omega
  · exact sound.fewLines
  · exact sound.fewNotes
  · rw [List.length_append]; exact Nat.not_le.mp room
  · exact sound.lines
  · exact sound.lineOrder
  · exact sound.notes
  · exact sound.noteOrder
  · exact sound.apart
  · refine List.forall_mem_append.mpr ⟨sound.marks, fun x mem => ?_⟩
    obtain rfl := List.mem_singleton.mp mem
    exact ⟨Nat.succ_pos _, Nat.not_lt.mp late⟩
  · exact pairwise_concat sound.markOrder order

theorem soundRecords_of_pass {h : Header} {rs : List TrackRecord} (fits : ∀ r ∈ rs, r.fits)
    (pass : recordsPass h rs) : SoundRecords h rs := by
  induction rs using List.reverseRecOn with
  | nil => exact soundRecords_nil h
  | append_singleton rs r ih =>
    obtain ⟨pass, last⟩ := recordsPass_append.mp pass
    obtain ⟨range, order, overlap⟩ := passes_iff.mp last
    have sound := ih (fun x mem => fits x (by simp [mem])) pass
    have rfits : r.fits := fits r (by simp)
    cases r with
    | line l => exact sound.line rfits range order
    | note n => exact sound.note range order overlap
    | mark kind time => exact sound.mark range order

/-- The notes of one part never overlap. -/
theorem SoundRecords.apart_of_part {h : Header} {rs : List TrackRecord} (sound : SoundRecords h rs)
    (p : Part) : ((notesOf rs).filter fun n => n.tag.isOf p).Pairwise
      fun x y => x.start + x.duration ≤ y.start := by
  rw [List.pairwise_filter]
  refine sound.apart.imp fun apart x y => apart (sharesPart_iff.mpr ?_)
  cases p
  · exact .inl ⟨x, y⟩
  · exact .inr ⟨x, y⟩

end Sys2Proof.Machine
end

section
/-! The whole check of a track (O31). -/

namespace Sys2Proof.Machine

theorem checkTrack_of_header {song : Nat} {bs : List Byte} {f : CheckFault}
    (header : checkHeader song bs = .error f) : checkTrack song bs = .error f := by
  rw [checkTrack, header]

theorem checkTrack_of_records {song : Nat} {bs records : List Byte} {h : Header} {f : CheckFault}
    (header : checkHeader song bs = .ok (h, records))
    (read : readRecords h h.recordCount 1 Walk.start records = .error f) :
    checkTrack song bs = .error f := by
  rw [Header.recordCount] at read
  rw [checkTrack, header]
  simp only
  rw [read]

/-- The values of a track that passes. -/
def checkedTrack (h : Header) (rs : List TrackRecord) (endTime : Nat) (spans : List (Nat × Nat)) : Track :=
  { partCount := h.partCount, originalKey := h.originalKey, duration := h.duration
    lineCount := h.lineCount, title := h.title, artist := h.artist, lines := linesOf rs
    notes := notesOf rs, endTime := endTime, spans := spans }

theorem checkTrack_of_marks {song : Nat} {bs records : List Byte} {h : Header} {rs : List TrackRecord}
    (header : checkHeader song bs = .ok (h, records))
    (read : readRecords h h.recordCount 1 Walk.start records = .ok (walkOf rs)) :
    checkTrack song bs = match checkMarks (walkOf rs) with
      | .error f => .error f
      | .ok (endTime, spans) => .ok (checkedTrack h rs endTime spans) := by
  rw [Header.recordCount] at read
  rw [checkTrack, header]
  simp only
  rw [read]
  rfl

/-! ## The header (R73) -/

theorem headerRange_iff {parts key duration : Nat} :
    (outside 1 2 parts || outside 36 96 key || decide (Config.songLimit < duration)) = true ↔
      parts = 0 ∨ 2 < parts ∨ key < 36 ∨ 96 < key ∨ 3599999 < duration := by
  have limit : Config.songLimit = 3599999 := rfl
  simp only [outside, limit, Bool.or_eq_true, decide_eq_true_iff]
  omega

theorem headerLimit_iff {lines notes marks title artist : Nat} :
    (decide (512 < lines) || decide (2048 < notes) || decide (64 < marks) || decide (40 < title) ||
      decide (40 < artist)) = true ↔
      512 < lines ∨ 2048 < notes ∨ 64 < marks ∨ 40 < title ∨ 40 < artist := by
  simp only [Bool.or_eq_true, decide_eq_true_iff, or_assoc]

/-- A header that passes its tests is in range. -/
theorem checkHeader_ok {song : Nat} {bs rest : List Byte} {h : Header}
    (ok : checkHeader song bs = .ok (h, rest)) : h.fits := by
  by_cases whole : 21 + 2 * glyphCount bs ≤ bs.length
  swap
  · cases (checkHeader_of_cut (Nat.not_le.mp whole)).symm.trans ok
  rw [checkHeader_of_whole song whole] at ok
  split_ifs at ok with signature version songId range limit
  rw [headerRange_iff] at range
  rw [headerLimit_iff] at limit
  obtain ⟨rfl, -⟩ := Prod.mk.inj (Except.ok.inj ok)
  have glyphs : ((bs.drop 21).take (2 * glyphCount bs)).length = 2 * glyphCount bs := by
    rw [List.length_take, List.length_drop]; omega
  have title : (headerAt bs).title.length = fieldAt bs 19 1 := by
    refine length_codesOf ?_
    rw [List.length_take, glyphs]
    unfold glyphCount
    omega
  have artist : (headerAt bs).artist.length = fieldAt bs 20 1 := by
    refine length_codesOf ?_
    rw [List.length_drop, glyphs]
    unfold glyphCount
    omega
  have parts : (headerAt bs).partCount = fieldAt bs 5 1 := rfl
  refine ⟨?_, ?_, ?_, ?_, ?_, ?_, ?_, ?_, ?_⟩
  · omega
  · exact Nat.not_lt.mp fun x => range (by tauto)
  · exact Nat.not_lt.mp fun x => range (by tauto)
  · exact Nat.not_lt.mp fun x => range (by tauto)
  · exact Nat.not_lt.mp fun x => limit (by tauto)
  · exact Nat.not_lt.mp fun x => limit (by tauto)
  · exact Nat.not_lt.mp fun x => limit (by tauto)
  · omega
  · omega

/-- A failure within the records names a record from 1 on. -/
theorem readRecords_index {h : Header} {n index : Nat} {w : Walk} {bs : List Byte} {f : CheckFault}
    (error : readRecords h n index w bs = .error f) : ∃ i, f.2 = some i ∧ index ≤ i := by
  induction n generalizing index w bs with
  | zero => cases error
  | succ n ih =>
    rw [readRecords] at error
    split at error
    next =>
      obtain rfl := Except.error.inj error
      exact ⟨index, rfl, le_rfl⟩
    next =>
      obtain ⟨i, eq, le⟩ := ih error
      exact ⟨i, eq, by omega⟩

theorem pairSpans_index {endTime i : Nat} {cues : List MarkRecord}
    (error : pairSpans endTime cues = .error i) : ∃ m ∈ cues, m.index = i := by
  match cues with
  | [] => cases error
  | [m] => exact ⟨m, by simp, Except.error.inj error⟩
  | m :: n :: rest =>
    rw [pairSpans] at error
    split_ifs at error
    · exact ⟨m, by simp, Except.error.inj error⟩
    · exact ⟨n, by simp, Except.error.inj error⟩
    · split at error
      next i' more =>
        obtain ⟨x, mem, eq⟩ := pairSpans_index more
        exact ⟨x, by simp [mem], eq.trans (Except.error.inj error)⟩
      next => cases error

/-- A failure of the marks names one of them, or none where there is no END. -/
theorem checkMarks_index {w : Walk} {f : CheckFault} (error : checkMarks w = .error f) :
    f.2 = none ∨ ∃ m ∈ w.marks, f.2 = some m.index := by
  have of_filter : ∀ {p : MarkRecord → Bool} {m}, m ∈ w.marks.filter p → m ∈ w.marks :=
    fun mem => (List.mem_filter.mp mem).1
  rw [checkMarks] at error
  split at error
  next =>
    obtain rfl := Except.error.inj error
    exact .inl rfl
  next e ends =>
    have mem : e ∈ w.marks := of_filter (p := fun m => m.kind = 2) (ends ▸ List.mem_singleton_self e)
    split_ifs at error
    · obtain rfl := Except.error.inj error
      exact .inr ⟨e, mem, rfl⟩
    · split at error
      next i bad =>
        obtain rfl := Except.error.inj error
        obtain ⟨m, mem, eq⟩ := pairSpans_index bad
        exact .inr ⟨m, of_filter mem, congrArg some eq.symm⟩
      next => cases error
  next e e' rest ends =>
    obtain rfl := Except.error.inj error
    exact .inr ⟨e', of_filter (p := fun m => m.kind = 2) (ends ▸ by simp), rfl⟩

/-- Only the header's tests fail with index 0. -/
theorem checkTrack_index {song : Nat} {bs records : List Byte} {h : Header}
    (header : checkHeader song bs = .ok (h, records)) (reason : FaultReason) :
    checkTrack song bs ≠ .error (reason, some 0) := by
  intro error
  cases read : readRecords h h.recordCount 1 Walk.start records with
  | error f =>
    obtain rfl := Except.error.inj ((checkTrack_of_records header read).symm.trans error)
    obtain ⟨i, eq, le⟩ := readRecords_index read
    obtain rfl := Option.some.inj eq
    omega
  | ok w =>
    obtain ⟨rs, -, pass, fits, rfl⟩ :=
      readRecords_ok (before := []) read (recordsPass_nil h) nofun
    have whole := checkTrack_of_marks header read
    rw [error] at whole
    cases marks : checkMarks (walkOf rs) with
    | ok => rw [marks] at whole; cases whole
    | error f =>
      rw [marks] at whole
      obtain rfl := Except.error.inj whole
      rcases checkMarks_index marks with eq | ⟨m, mem, eq⟩
      · cases eq
      · have := ((soundRecords_of_pass fits pass).marks m mem).1
        rw [← Option.some.inj eq] at this
        omega

/-! ## The records and the marks (R74 to R76) -/

/-- A header and passing records behind it, read up to the next record. -/
theorem read_passing {song : Nat} {h : Header} {rs : List TrackRecord} (hs : song < 2 ^ 24)
    (header : h.fits) (fits : ∀ r ∈ rs, r.fits) (pass : recordsPass h rs) (rest : List Byte)
    (n : Nat) (count : h.recordCount = rs.length + n) :
    checkHeader song (h.bytes song ++ rs.flatMap TrackRecord.bytes ++ rest) =
        .ok (h, rs.flatMap TrackRecord.bytes ++ rest) ∧
      readRecords h h.recordCount 1 Walk.start (rs.flatMap TrackRecord.bytes ++ rest) =
        readRecords h n (rs.length + 1) (walkOf rs) rest := by
  refine ⟨?_, ?_⟩
  · rw [List.append_assoc]
    exact checkHeader_bytes hs header _
  · rw [count]
    exact readRecords_of_pass (before := []) fits pass n rest

/-- What the next record's bytes spoil ends the check there. -/
theorem checkTrack_spoiled {song : Nat} {h : Header} {rs : List TrackRecord} {rest : List Byte}
    {reason : FaultReason} (hs : song < 2 ^ 24) (header : h.fits) (fits : ∀ r ∈ rs, r.fits)
    (pass : recordsPass h rs) (more : rs.length < h.recordCount)
    (bad : readRecord h (rs.length + 1) (walkOf rs) rest = .error reason) :
    checkTrack song (h.bytes song ++ rs.flatMap TrackRecord.bytes ++ rest) =
      .error (reason, some (rs.length + 1)) := by
  obtain ⟨n, count⟩ : ∃ n, h.recordCount = rs.length + (n + 1) :=
    ⟨h.recordCount - rs.length - 1, by omega⟩
  obtain ⟨head, read⟩ := read_passing hs header fits pass rest (n + 1) count
  refine checkTrack_of_records head (read.trans ?_)
  rw [readRecords, bad]

theorem any_or_any_iff {ls : List Line} {ns : List Note} {t : Nat} :
    ((ls.any fun l => t < l.stop) || ns.any fun n => t < n.stop) = true ↔
      (∃ l ∈ ls, t < l.stop) ∨ ∃ n ∈ ns, t < n.start + n.duration := by
  rw [Bool.or_eq_true, List.any_eq_true, List.any_eq_true]
  simp only [decide_eq_true_iff]
  rfl

theorem checkMarks_of_no_end {w : Walk} (ends : (w.marks.filter fun m => m.kind = 2) = []) :
    checkMarks w = .error (.marks, none) := by
  rw [checkMarks, ends]

theorem checkMarks_of_ends {w : Walk} {e e' : MarkRecord} {more : List MarkRecord}
    (ends : (w.marks.filter fun m => m.kind = 2) = e :: e' :: more) :
    checkMarks w = .error (.marks, some e'.index) := by
  rw [checkMarks, ends]

theorem checkMarks_of_late {w : Walk} {e : MarkRecord}
    (ends : (w.marks.filter fun m => m.kind = 2) = [e])
    (late : (∃ l ∈ w.lines, e.time < l.stop) ∨ ∃ n ∈ w.notes, e.time < n.start + n.duration) :
    checkMarks w = .error (.marks, some e.index) := by
  rw [checkMarks, ends]
  exact if_pos (any_or_any_iff.mpr late)

theorem checkMarks_of_bad_pairs {w : Walk} {e : MarkRecord} {i : Nat}
    (ends : (w.marks.filter fun m => m.kind = 2) = [e])
    (timely : ¬ ((∃ l ∈ w.lines, e.time < l.stop) ∨ ∃ n ∈ w.notes, e.time < n.start + n.duration))
    (pairs : pairSpans e.time (w.marks.filter fun m => m.kind ≠ 2) = .error i) :
    checkMarks w = .error (.marks, some i) := by
  rw [checkMarks, ends]
  refine (if_neg (timely ∘ any_or_any_iff.mp)).trans ?_
  rw [pairs]

theorem checkMarks_of_pairs {w : Walk} {e : MarkRecord} {spans : List (Nat × Nat)}
    (ends : (w.marks.filter fun m => m.kind = 2) = [e])
    (timely : ¬ ((∃ l ∈ w.lines, e.time < l.stop) ∨ ∃ n ∈ w.notes, e.time < n.start + n.duration))
    (pairs : pairSpans e.time (w.marks.filter fun m => m.kind ≠ 2) = .ok spans) :
    checkMarks w = .ok (e.time, spans) := by
  rw [checkMarks, ends]
  refine (if_neg (timely ∘ any_or_any_iff.mp)).trans ?_
  rw [pairs]

/-- What marks that pass as a whole are. -/
theorem checkMarks_ok {w : Walk} {endTime : Nat} {spans : List (Nat × Nat)}
    (ok : checkMarks w = .ok (endTime, spans)) :
    ∃ e, (w.marks.filter fun m => m.kind = 2) = [e] ∧ e.time = endTime ∧
      (∀ l ∈ w.lines, l.stop ≤ endTime) ∧ (∀ n ∈ w.notes, n.start + n.duration ≤ endTime) ∧
      pairSpans endTime (w.marks.filter fun m => m.kind ≠ 2) = .ok spans := by
  cases ends : w.marks.filter fun m => m.kind = 2 with
  | nil => cases (checkMarks_of_no_end ends).symm.trans ok
  | cons e more =>
    cases more with
    | cons e' more => cases (checkMarks_of_ends ends).symm.trans ok
    | nil =>
      by_cases late : (∃ l ∈ w.lines, e.time < l.stop) ∨ ∃ n ∈ w.notes, e.time < n.start + n.duration
      · cases (checkMarks_of_late ends late).symm.trans ok
      cases pairs : pairSpans e.time (w.marks.filter fun m => m.kind ≠ 2) with
      | error i => cases (checkMarks_of_bad_pairs ends late pairs).symm.trans ok
      | ok spans' =>
        obtain ⟨rfl, rfl⟩ := Prod.mk.inj
          (Except.ok.inj ((checkMarks_of_pairs ends late pairs).symm.trans ok))
        rw [not_or] at late
        exact ⟨e, rfl, rfl, fun l mem => Nat.not_lt.mp fun lt => late.1 ⟨l, mem, lt⟩,
          fun n mem => Nat.not_lt.mp fun lt => late.2 ⟨n, mem, lt⟩, pairs⟩

/-- Settles O31: the header by its fields, the records by what each does to the walk of those before it, the
marks as a whole; a track that passes is sound since every record of it passed behind the others. -/
theorem checkedTracksAreSound : Obligations.CheckedTracksAreSound := by
  refine ⟨fun song bytes => ?header, fun song h rs hs header fits pass => ⟨?fails, ?spoiled, ?whole⟩,
    fun song bytes t ok => ?sound⟩
  case header =>
    intro field
    change if bytes.length < 21 ∨ bytes.length < 21 + 2 * glyphCount bytes then _ else _
    split_ifs with short signature version songId range limit
    · exact checkTrack_of_header (checkHeader_of_cut (by omega))
    all_goals have whole := checkHeader_of_whole song (by omega : 21 + 2 * glyphCount bytes ≤ _)
    · exact checkTrack_of_header (whole.trans (if_pos signature))
    all_goals have whole := whole.trans (if_neg signature)
    · exact checkTrack_of_header (whole.trans (if_pos version))
    all_goals have whole := whole.trans (if_neg version)
    · exact checkTrack_of_header (whole.trans (if_pos songId))
    all_goals have whole := whole.trans (if_neg songId)
    · exact checkTrack_of_header (whole.trans (if_pos (headerRange_iff.mpr range)))
    all_goals have whole := whole.trans (if_neg (range ∘ headerRange_iff.mp))
    · exact checkTrack_of_header (whole.trans (if_pos (headerLimit_iff.mpr limit)))
    · exact checkTrack_index (whole.trans (if_neg (limit ∘ headerLimit_iff.mp)))
  case fails =>
    intro r rest reason rfits more bad
    rw [List.append_assoc]
    refine checkTrack_spoiled hs header fits pass more ?_
    rw [readRecord_bytes rfits, enter_of_fails bad]
    rfl
  case spoiled =>
    intro rest reason more bad
    exact checkTrack_spoiled hs header fits pass more (readRecord_bad bad _)
  case whole =>
    intro rest count cues
    obtain ⟨head, read⟩ := read_passing hs header fits pass rest 0 count.symm
    rw [checkTrack_of_marks head read]
    cases ends : (marksOf rs).filter fun m => m.kind = 2 with
    | nil => rw [checkMarks_of_no_end ends]
    | cons e more =>
      cases more with
      | cons e' more => rw [checkMarks_of_ends ends]
      | nil =>
        simp only
        by_cases late : (∃ l ∈ linesOf rs, e.time < l.stop) ∨
            ∃ n ∈ notesOf rs, e.time < n.start + n.duration
        · rw [if_pos late, checkMarks_of_late (w := walkOf rs) ends late]
        rw [if_neg late]
        have pairs := pairSpans_eq e.time cues (k := 0) rfl
        have same : cues.zipIdx.find? (fun m => decide (m.1.kind ≠ m.2 % 2) ||
            decide (e.time < m.1.time)) = cues.zipIdx.find? (badCue e.time) := rfl
        rw [same]
        cases found : cues.zipIdx.find? (badCue e.time) with
        | some m =>
          rw [found] at pairs
          rw [checkMarks_of_bad_pairs (w := walkOf rs) ends late pairs]
        | none =>
          rw [found] at pairs
          simp only
          by_cases odd : cues.length % 2 = 1
          · simp only [if_pos odd] at pairs
            rw [if_pos odd, checkMarks_of_bad_pairs (w := walkOf rs) ends late pairs]
            cases last : cues.getLast? with
            | none =>
              rw [List.getLast?_eq_none_iff.mp last] at odd
              cases odd
            | some m => rfl
          · simp only [if_neg odd] at pairs
            rw [if_neg odd, checkMarks_of_pairs (w := walkOf rs) ends late pairs]
            rfl
  case sound =>
    rw [checkTrack] at ok
    split at ok
    next => cases ok
    next h records header =>
      split at ok
      next => cases ok
      next w read =>
        split at ok
        next => cases ok
        next endTime spans marks =>
          obtain rfl := Except.ok.inj ok
          obtain ⟨rs, length, pass, fits, rfl⟩ :=
            readRecords_ok (before := []) read (recordsPass_nil h) nofun
          obtain ⟨parts, duration, lowKey, highKey, lines, notes, markCount, title, artist⟩ :=
            checkHeader_ok header
          have sound := soundRecords_of_pass fits pass
          obtain ⟨e, ends, rfl, lineEnds, noteEnds, pairs⟩ := checkMarks_ok marks
          have endMem : e ∈ marksOf rs :=
            (List.mem_filter.mp (ends ▸ List.mem_singleton_self e : e ∈ (marksOf rs).filter _)).1
          have cues : ((marksOf rs).filter fun m => m.kind ≠ 2).length + 1 = (marksOf rs).length := by
            have split := List.length_eq_length_filter_add (l := marksOf rs) fun m => decide (m.kind = 2)
            have one := congrArg List.length ends
            change ((marksOf rs).filter _).length = 1 at one
            rw [one, Nat.add_comm] at split
            simpa only [decide_not] using split.symm
          obtain ⟨spanCount, within, -, ordered⟩ :=
            pairSpans_sound pairs (sound.markOrder.filter _)
          change 2 * spans.length = ((marksOf rs).filter fun m => m.kind ≠ 2).length at spanCount
          have counts := sound.counts
          have fewLines := sound.fewLines
          have fewNotes := sound.fewNotes
          have fewMarks := sound.fewMarks
          rw [length, List.length_nil, Nat.zero_add] at counts
          refine ⟨parts, lowKey, highKey, duration, ?_, lines, fewNotes.trans notes, title, artist,
            (sound.marks e endMem).2, ?_, fun l mem => ?_, sound.lineOrder, fun n mem => ?_,
            sound.noteOrder, sound.apart_of_part, within, ordered⟩
          · change (linesOf rs).length = h.lineCount
            omega
          · change spans.length ≤ 31
            omega
          · obtain ⟨⟨least, most, syllables⟩, apart, part⟩ := sound.lines l mem
            exact ⟨least, most, fun z mem => ⟨(syllables z mem).2.2.1, (syllables z mem).2.2.2⟩, apart,
              lineEnds l mem, fun one b => part ⟨b, one⟩⟩
          · obtain ⟨low, high, least, part⟩ := sound.notes n mem
            exact ⟨low, high, least, noteEnds n mem, fun one b => part ⟨b, one⟩⟩

end Sys2Proof.Machine
end

section
/-! Glyph lookups, releases and prefetches, outcome by outcome (R124 to R127, R131; O43). -/

namespace Sys2Proof.Machine

section
variable {c : Cache} {k : Code} {i : Nat}

/-! ## A held code -/

/-- The entry of a held code after a lookup with pin. -/
def CacheEntry.pinned (e : CacheEntry) (store : StoreState) : CacheEntry :=
  { e with
    pins := e.pins + 1
    state := if e.state = .fetching .prefetch ∨ (e.state = .stale ∧ store = .ready) then
      .fetching .demand else e.state }

theorem lookupPin_of_held (store : StoreState) (found : c.find k = some i) :
    c.lookupPin store k = { (c.setEntry i ((c.entry i).pinned store)).touch i with
      fetchOrder := if (c.entry i).state = .stale ∧ store = .ready then
        c.fetchOrder.filter (· ≠ i) ++ [i] else c.fetchOrder } := by
  rw [Cache.lookupPin, found]
  simp only
  generalize c.entry i = e
  obtain ⟨code, state, bitmap, substitute, pins, late⟩ := e
  cases state with
  | free => simp [CacheEntry.pinned]; rfl
  | resident => simp [CacheEntry.pinned]; rfl
  | fetching cls => cases cls <;> simp [CacheEntry.pinned] <;> rfl
  | stale =>
    by_cases ready : store = .ready
    · simp [CacheEntry.pinned, ready, Cache.enqueue]
    · simp [CacheEntry.pinned, ready]; rfl

theorem prefetch_of_held (store : StoreState) (found : c.find k = some i) :
    c.prefetch store k = c.touch i := by
  rw [Cache.prefetch, found]

/-- A release that leaves a pin, or whose entry has no fetch that could be withdrawn. -/
theorem release_of_kept (found : c.find k = some i)
    (kept : 1 < (c.entry i).pins ∨ ((c.entry i).pins = 1 ∧
      (c.inProgress = some i ∨ ∀ cls, (c.entry i).state ≠ .fetching cls))) :
    c.release k = c.setEntry i { c.entry i with pins := (c.entry i).pins - 1 } := by
  rw [Cache.release, found]
  refine if_neg fun withdrawn => ?_
  simp only [Bool.and_eq_true, decide_eq_true_iff, CacheEntry.isFetching_iff] at withdrawn
  obtain ⟨⟨last, cls, fetching⟩, notStarted⟩ := withdrawn
  rcases kept with more | ⟨-, started | still⟩
  · omega
  · exact notStarted started
  · exact still cls fetching

/-- The last pin of a fetch not begun goes: the fetch is withdrawn. -/
theorem release_of_withdrawn (found : c.find k = some i) (last : (c.entry i).pins = 1)
    (notStarted : c.inProgress ≠ some i) (fetching : ∃ cls, (c.entry i).state = .fetching cls) :
    c.release k = (c.setEntry i { c.entry i with pins := 0 }).withdraw i := by
  rw [Cache.release, found]
  simp only [last]
  refine if_pos ?_
  simp only [Bool.and_eq_true, decide_eq_true_iff, CacheEntry.isFetching_iff]
  exact ⟨⟨trivial, fetching⟩, notStarted⟩

theorem withdraw_of_bare (bare : (c.entry i).bitmap = none) : c.withdraw i =
    { c with
      entries := c.entries.set i CacheEntry.empty
      recency := c.recency.filter (· ≠ i)
      fetchOrder := c.fetchOrder.filter (· ≠ i) } := by
  rw [Cache.withdraw, bare]

theorem withdraw_of_bitmap {b : Bitmap} (bitmap : (c.entry i).bitmap = some b) : c.withdraw i =
    (c.setEntry i { c.entry i with state := .stale }).dequeue i := by
  rw [Cache.withdraw, bitmap]

/-! ## The entry a miss takes (R125) -/

theorem entry_of_beyond (h : c.entries.length ≤ i) : c.entry i = CacheEntry.empty :=
  List.getD_eq_default _ _ h

theorem victim_of_free (hi : i < c.entries.length) (free : (c.entry i).state = .free)
    (first : ∀ j, j < i → (c.entry j).state ≠ .free) : c.victim = some i := by
  have found : (c.entries.findIdx? fun e => decide (e.state = .free)) = some i := by
    refine List.findIdx?_eq_some_iff_getElem.mpr ⟨hi, ?_, fun j hj => ?_⟩
    · rw [← entry_eq_getElem hi]
      exact decide_eq_true free
    · rw [← entry_eq_getElem (hj.trans hi)]
      exact fun h => first j hj (of_decide_eq_true h)
  rw [Cache.victim, found]

theorem victim_of_recency (inUse : ∀ j, j < c.entries.length → (c.entry j).state ≠ .free)
    {before after : List Nat} (split : c.recency = before ++ i :: after)
    (unpinned : (c.entry i).pins = 0) (still : (c.entry i).isFetching = false)
    (kept : ∀ j ∈ before, 0 < (c.entry j).pins ∨ (c.entry j).isFetching = true) :
    c.victim = some i := by
  have none_ : (c.entries.findIdx? fun e => decide (e.state = .free)) = none := by
    refine List.findIdx?_eq_none_iff.mpr fun e mem => decide_eq_false ?_
    obtain ⟨j, hj, rfl⟩ := List.getElem_of_mem mem
    rw [← entry_eq_getElem hj]
    exact inUse j hj
  have passed : (before.find? fun j => decide ((c.entry j).pins = 0) && !(c.entry j).isFetching) =
      none := by
    refine List.find?_eq_none.mpr fun j mem taken => ?_
    simp only [Bool.and_eq_true, decide_eq_true_iff, Bool.not_eq_true'] at taken
    rcases kept j mem with pinned | fetching
    · omega
    · rw [taken.2] at fetching; cases fetching
  rw [Cache.victim, none_]
  simp only
  rw [split, List.find?_append, passed, List.find?_cons_of_pos (by simp [unpinned, still])]
  rfl

/-! ## A code not held -/

/-- The entry a lookup with pin gives a code that was not held, by the state of the store. -/
def CacheEntry.taken (k : Code) (store : StoreState) : CacheEntry :=
  { code := some k, pins := 1, late := false
    state := match store with
      | .scanning | .ready => .fetching .demand
      | .absent => .resident
      | .maintenance | .busy _ _ => .stale
    bitmap := match store with
      | .scanning | .ready => none
      | .absent | .maintenance | .busy _ _ => some { coverage := .substitute, advance := 24 }
    substitute := match store with
      | .scanning | .ready => false
      | .absent | .maintenance | .busy _ _ => true }

theorem lookupPin_of_missed (store : StoreState) (missed : c.find k = none)
    (victim : c.victim = some i) :
    c.lookupPin store k = { c.assign i (CacheEntry.taken k store) with
      fetchOrder := if store = .scanning ∨ store = .ready then
        c.fetchOrder.filter (· ≠ i) ++ [i] else c.fetchOrder } := by
  rw [Cache.lookupPin, missed, victim]
  cases store <;> rfl

theorem prefetch_of_missed {store : StoreState} (missed : c.find k = none)
    (victim : c.victim = some i) (working : store = .scanning ∨ store = .ready)
    (room : c.countFetching .prefetch < 64) :
    c.prefetch store k = (c.assign i { CacheEntry.empty with
      code := some k, state := .fetching .prefetch }).enqueue i := by
  have limit : c.countFetching .prefetch < Config.prefetchLimit := room
  rw [Cache.prefetch, missed]
  refine (if_pos ?_).trans ?_
  · simp only [Bool.and_eq_true, Bool.or_eq_true, decide_eq_true_iff]
    exact ⟨working, limit⟩
  · rw [victim]

theorem prefetch_of_refused {store : StoreState} (missed : c.find k = none)
    (refused : ¬ ((store = .scanning ∨ store = .ready) ∧ c.countFetching .prefetch < 64)) :
    c.prefetch store k = c := by
  rw [Cache.prefetch, missed]
  refine if_neg fun taken => refused ?_
  simp only [Bool.and_eq_true, Bool.or_eq_true, decide_eq_true_iff] at taken
  exact taken

end

/-- Settles O43, by whether the code is held and, for one not held, by the entry the miss takes. -/
theorem cacheLookupsTakeAndKeepEntries : Obligations.CacheLookupsTakeAndKeepEntries := by
  refine fun c k store length => ⟨fun i found hi => ?held, fun missed => ⟨?missed, fun i hi which => ?taken⟩⟩
  case held =>
    have hlt : i < c.entries.length := length.symm ▸ hi
    intro e d
    have held : d = _ := lookupPin_of_held store found
    rw [held]
    refine ⟨c.entry_setEntry_self i _ hlt, rfl, rfl, fun j hj => c.entry_setEntry_of_ne i j _ hj, rfl,
      prefetch_of_held store found, release_of_kept found, ?_⟩
    · intro last notStarted fetching r
      have unpinned := c.entry_setEntry_self i { c.entry i with pins := 0 } hlt
      have withdrawn : r = _ := release_of_withdrawn found last notStarted fetching
      cases bitmap : (c.entry i).bitmap with
      | none =>
        rw [withdraw_of_bare (by rw [unpinned]; exact bitmap)] at withdrawn
        rw [withdrawn]
        refine ⟨?_, rfl, rfl, rfl, fun j hj => ?_⟩
        · exact Cache.entry_setEntry_self _ i CacheEntry.empty (by simpa using hlt)
        · exact (Cache.entry_setEntry_of_ne _ i j CacheEntry.empty hj).trans
            (c.entry_setEntry_of_ne i j _ hj)
      | some b =>
        rw [withdraw_of_bitmap (by rw [unpinned]; exact bitmap), unpinned] at withdrawn
        rw [withdrawn]
        refine ⟨?_, rfl, rfl, rfl, fun j hj => ?_⟩
        · exact (Cache.entry_setEntry_self _ i _ (by simpa using hlt)).trans ((if_pos (Option.isSome_some (a := b))).trans (by rw [← bitmap])).symm
        · exact (Cache.entry_setEntry_of_ne _ i j _ hj).trans (c.entry_setEntry_of_ne i j _ hj)
  case missed => rw [Cache.release, missed]
  case taken =>
    have victim : c.victim = some i := by
      rcases which with ⟨free, first⟩ | ⟨inUse, before, after, split, unpinned, still, kept⟩
      · exact victim_of_free (length.symm ▸ hi) free first
      · exact victim_of_recency (length.symm ▸ inUse) split unpinned still kept
    have hlt : i < c.entries.length := length.symm ▸ hi
    have other : ∀ e j, j ≠ i → (c.assign i e).entry j = c.entry j := fun e j hj =>
      c.entry_setEntry_of_ne i j e hj
    have count : (c.entries.filter fun e => e.state = .fetching .prefetch).length =
        c.countFetching .prefetch := List.countP_eq_length_filter.symm
    intro d p
    have taken : d = _ := lookupPin_of_missed store missed victim
    rw [taken]
    refine ⟨other _, rfl, rfl, rfl, c.entry_setEntry_self i _ hlt, ?_⟩
    rw [count]
    split
    next room =>
      have taken : p = _ := prefetch_of_missed missed victim room.1 room.2
      rw [taken]
      exact ⟨c.entry_setEntry_self i _ hlt, rfl, rfl, rfl, other _⟩
    next refused => exact prefetch_of_refused missed refused

end Sys2Proof.Machine
end

section
/-! Glyph fetches: the entry served next, what a fetch finds, and the substitute (R128, R129, R135;
O44). -/

namespace Sys2Proof.Machine

/-! ## The entry served next (R128) -/

theorem find?_of_split {α : Type} {p : α → Bool} {xs before after : List α} {x : α}
    (split : xs = before ++ x :: after) (here : p x = true) (passed : ∀ y ∈ before, p y = false) :
    xs.find? p = some x := by
  rw [split, List.find?_append, List.find?_eq_none.mpr fun y mem => by simp [passed y mem],
    List.find?_cons_of_pos here]
  rfl

theorem nextFetch_of_demand {c : Cache} {i : Nat} {before after : List Nat}
    (split : c.fetchOrder = before ++ i :: after) (here : (c.entry i).state = .fetching .demand)
    (passed : ∀ j ∈ before, (c.entry j).state ≠ .fetching .demand) : c.nextFetch = some i := by
  rw [Cache.nextFetch, find?_of_split split (decide_eq_true here) fun j mem =>
    decide_eq_false (passed j mem)]

theorem nextFetch_of_prefetch {c : Cache} {i : Nat} {before after : List Nat}
    (split : c.fetchOrder = before ++ i :: after) (here : (c.entry i).state = .fetching .prefetch)
    (passed : ∀ j ∈ before, (c.entry j).state ≠ .fetching .prefetch)
    (noDemand : ∀ j ∈ c.fetchOrder, (c.entry j).state ≠ .fetching .demand) :
    c.nextFetch = some i := by
  have demand : (c.fetchOrder.find? fun j => decide ((c.entry j).state = .fetching .demand)) = none :=
    List.find?_eq_none.mpr fun j mem => by simp [noDemand j mem]
  rw [Cache.nextFetch, demand]
  exact find?_of_split split (decide_eq_true here) fun j mem => decide_eq_false (passed j mem)

theorem nextFetch_of_none {c : Cache}
    (idle : ∀ i ∈ c.fetchOrder, ∀ cls, (c.entry i).state ≠ .fetching cls) : c.nextFetch = none := by
  have none_ : ∀ cls, (c.fetchOrder.find? fun j => decide ((c.entry j).state = .fetching cls)) = none :=
    fun cls => List.find?_eq_none.mpr fun j mem => by simp [idle j mem cls]
  rw [Cache.nextFetch, none_, none_]

theorem fetchToStart_of_able {s : State} (idle : s.cache.inProgress = none)
    (ready : s.font.store = .ready) (unwanted : s.font.maintWanted = false)
    (active : s.video.power = .active) : s.fetchToStart = s.cache.nextFetch := by
  rw [State.fetchToStart, idle, ready, unwanted, active]
  rfl

theorem fetchToStart_of_unable {s : State} (unable : s.cache.inProgress ≠ none ∨
    s.font.store ≠ .ready ∨ s.font.maintWanted = true ∨ s.video.power ≠ .active) :
    s.fetchToStart = none := by
  refine if_neg fun able => ?_
  simp only [Bool.and_eq_true, Option.isNone_iff_eq_none, decide_eq_true_iff,
    Bool.not_eq_true'] at able
  obtain ⟨⟨⟨idle, ready⟩, unwanted⟩, active⟩ := able
  rcases unable with h | h | h | h
  · exact h idle
  · exact h ready
  · rw [unwanted] at h; cases h
  · exact h active

/-! ## A fetch completed (R129) -/

theorem entry_of_code {c : Cache} {i : Nat} {k : Code} (code : (c.entry i).code = some k) :
    i < c.entries.length := by
  by_contra beyond
  rw [entry_of_beyond (Nat.not_lt.mp beyond)] at code
  cases code

/-- The completion changes its own entry and takes it out of the order of fetches. -/
theorem completeFetch_cache (s : State) {i : Nat} {k : Code} (code : (s.cache.entry i).code = some k) :
    let c := (s.completeFetch i).cache
    c.inProgress = none ∧ c.recency = s.cache.recency ∧
      c.fetchOrder = s.cache.fetchOrder.filter (· ≠ i) ∧
      (∀ j, j ≠ i → c.entry j = s.cache.entry j) ∧
      c.entry i = (s.cache.entry i).fetched (fetchedBitmap s.font.header s.flash k) := by
  refine ⟨rfl, rfl, rfl, fun j hj => s.cache.entry_setEntry_of_ne i j _ hj, ?_⟩
  refine (s.cache.entry_setEntry_self i _ (entry_of_code code)).trans ?_
  rw [code]
  rfl

theorem memory_bytes_eq (m : List Host.Cell) (a n : Nat) :
    Memory.bytes m a n = (List.range n).map fun k => Memory.read m (a + k) := by
  induction n generalizing a with
  | zero => rfl
  | succ n ih =>
    rw [Memory.bytes, ih, List.range_succ_eq_map, List.map_cons, List.map_map]
    simp only [Nat.add_zero, List.cons.injEq, true_and]
    refine List.map_congr_left fun k _ => ?_
    rw [Function.comp_apply, Nat.succ_eq_add_one, Nat.add_right_comm, Nat.add_assoc]

theorem lowBit_iff (b : Byte) : b.getLsbD 0 = true ↔ b.toNat % 2 = 1 := by
  rw [BitVec.getLsbD, Nat.testBit_zero, decide_eq_true_iff]

/-- What a fetch finds: the record of a PRESENT glyph below the glyph count. -/
theorem fetched_eq (e : CacheEntry) (h : FontHeader) (m : List Host.Cell) (k : Code) :
    let at_ := h.tableBase + k.toNat * 388
    let there := k.toNat < h.glyphCount ∧ (Memory.read m at_).toNat % 2 = 1
    let advance := (Memory.read m (at_ + 1)).toNat
    e.fetched (fetchedBitmap (some h) m k) = { e with
      state := .resident, late := false, substitute := decide (¬ there)
      bitmap := some (if there then
          { coverage := .record (Memory.bytes m (at_ + 4) 384)
            advance := if advance < 4 then 4 else min advance 32 }
        else { coverage := .substitute, advance := 24 }) } := by
  intro at_ there advance
  have record : h.tableBase + k.toNat * Config.glyphRecordBytes = at_ := rfl
  by_cases yes : there
  · have found : fetchedBitmap (some h) m k = some
        { coverage := .record (Memory.bytes m (at_ + 4) 384)
          advance := if advance < 4 then 4 else min advance 32 } := by
      rw [fetchedBitmap]
      simp only [record]
      rw [if_neg (Nat.not_le.mpr yes.1), if_pos ((lowBit_iff _).mpr yes.2),
        clampNat_eq (lo := 4) (hi := 32) (by decide)]
    rw [found, if_pos yes, decide_eq_false (not_not.mpr yes)]
    rfl
  · have found : fetchedBitmap (some h) m k = none := by
      rw [fetchedBitmap]
      simp only [record]
      split
      · rfl
      next below =>
        exact if_neg fun present => yes ⟨Nat.not_le.mp below, (lowBit_iff _).mp present⟩
    rw [found, if_neg yes, decide_eq_true yes]
    rfl

theorem fetched_of_noRecord (e : CacheEntry) {h : FontHeader} (m : List Host.Cell) {k : Code}
    (beyond : h.glyphCount ≤ k.toNat) : e.fetched (fetchedBitmap (some h) m k) = { e with
      state := .resident, late := false, substitute := true
      bitmap := some { coverage := .substitute, advance := 24 } } := by
  have found : fetchedBitmap (some h) m k = none := if_pos beyond
  rw [found]
  rfl

theorem hasNoRecord_iff {f : FontPort} {h : FontHeader} (header : f.header = some h) (k : Code) :
    f.hasNoRecord k = true ↔ h.glyphCount ≤ k.toNat := by
  rw [FontPort.hasNoRecord, header]
  exact decide_eq_true_iff

theorem startFetch_of_record {s : State} {i : Nat} {k : Code} {h : FontHeader}
    (code : (s.cache.entry i).code = some k) (header : s.font.header = some h)
    (below : k.toNat < h.glyphCount) :
    s.startFetch i = { s with cache := { s.cache with inProgress := some i } } := by
  rw [State.startFetch, code]
  exact if_neg fun none_ => Nat.not_le.mpr below ((hasNoRecord_iff header k).mp none_)

theorem startFetch_of_noRecord {s : State} {i : Nat} {k : Code} {h : FontHeader}
    (code : (s.cache.entry i).code = some k) (header : s.font.header = some h)
    (beyond : h.glyphCount ≤ k.toNat) : s.startFetch i =
      ({ s with cache := { s.cache with inProgress := some i } } : State).completeFetch i := by
  rw [State.startFetch, code]
  exact if_pos ((hasNoRecord_iff header k).mpr beyond)

/-- The substitute is a rectangle without a smaller one within it, all within the cell. -/
theorem substitute_level : ∃ left holeLeft holeRight right top holeTop holeBottom bottom : Nat,
    left < holeLeft ∧ holeLeft < holeRight ∧ holeRight < right ∧ right ≤ 32 ∧
    top < holeTop ∧ holeTop < holeBottom ∧ holeBottom < bottom ∧ bottom ≤ 48 ∧
    ∀ x y : Nat, Coverage.substitute.level x y =
      if (left ≤ x ∧ x < right ∧ top ≤ y ∧ y < bottom) ∧
          ¬ (holeLeft ≤ x ∧ x < holeRight ∧ holeTop ≤ y ∧ y < holeBottom) then 3 else 0 := by
  have across := Config.substituteSpan_in_order 32 0 (by decide)
  have down := Config.substituteSpan_in_order 48 4 (by decide)
  obtain ⟨left, hollow, hollowEnd, right⟩ := across
  obtain ⟨top, hollowTop, hollowBottom, bottom⟩ := down
  refine ⟨_, _, _, _, _, _, _, _, left, hollow, hollowEnd, right, top, hollowTop, hollowBottom, bottom,
    fun x y => if_congr ?_ rfl rfl⟩
  rw [Config.substituteOutline]
  simp only [Bool.and_eq_true, decide_eq_true_iff, Bool.not_eq_true', ← Bool.not_eq_true, and_assoc]
  exact Iff.rfl

/-- Settles O44: the order of service picks the entry, and a completion changes that entry alone. -/
theorem glyphFetchesAreServed : Obligations.GlyphFetchesAreServed := by
  refine ⟨fun s i k h idle ready unwanted active code header next => ?start, fun s unable => ?idle,
    fun s idle => ?none_, substitute_level, fun s i k h started lt code header => ?complete⟩
  case start =>
    have chosen : s.fetchToStart = some i := by
      rw [fetchToStart_of_able idle ready unwanted active]
      obtain ⟨before, after, split, ⟨here, passed⟩ | ⟨here, passed, noDemand⟩⟩ := next
      · exact nextFetch_of_demand split here passed
      · exact nextFetch_of_prefetch split here passed noDemand
    have run : exec .glyphFetchStart s = .next (s.startFetch i) := by
      change execGlyphFetchStart s = _
      rw [execGlyphFetchStart, chosen]
    refine ⟨fun below => ?_, fun beyond => ⟨_, run, startFetch_touches s i, ?_⟩⟩
    · rw [run, startFetch_of_record code header below]
    · obtain ⟨progress, recency, order, other, entry⟩ :=
        completeFetch_cache { s with cache := { s.cache with inProgress := some i } } code
      rw [startFetch_of_noRecord code header beyond]
      refine ⟨progress, recency, order, other, entry.trans ?_⟩
      change CacheEntry.fetched (s.cache.entry i) (fetchedBitmap s.font.header s.flash k) = _
      rw [header, fetched_of_noRecord _ _ beyond]
  case idle =>
    have none_ : s.fetchToStart = none := by
      rcases unable with h | h | h | h | idle
      · exact fetchToStart_of_unable (.inl h)
      · exact fetchToStart_of_unable (.inr (.inl h))
      · exact fetchToStart_of_unable (.inr (.inr (.inl h)))
      · exact fetchToStart_of_unable (.inr (.inr (.inr h)))
      · rw [State.fetchToStart, nextFetch_of_none idle, ite_self]
    change execGlyphFetchStart s = _
    rw [execGlyphFetchStart, none_]
  case none_ =>
    change execGlyphFetchComplete s = _
    rw [execGlyphFetchComplete, idle]
  case complete =>
    intro at_ there advance
    have run : exec .glyphFetchComplete s = .next (s.completeFetch i) := by
      change execGlyphFetchComplete s = _
      rw [execGlyphFetchComplete, started]
    obtain ⟨progress, recency, order, other, entry⟩ := completeFetch_cache s code
    refine ⟨_, run, completeFetch_touches s i, progress, recency, order, other, entry.trans ?_⟩
    rw [header]
    exact fetched_eq ..

end Sys2Proof.Machine
end

section
/-! The completion of a scan (R131, R134, R141, R147; O45). -/

namespace Sys2Proof.Machine

/-! ## Pinned STALE entries queued again (R131) -/

/-- An entry that a valid scan queues again. -/
def Cache.waitsFor (c : Cache) (i : Nat) : Bool :=
  (c.entry i).state = .stale && decide (0 < (c.entry i).pins)

theorem waitsFor_iff {c : Cache} {i : Nat} :
    c.waitsFor i = true ↔ (c.entry i).state = .stale ∧ 0 < (c.entry i).pins := by
  rw [Cache.waitsFor, Bool.and_eq_true, decide_eq_true_iff, decide_eq_true_iff]

theorem refetch_of_waits {c : Cache} {i : Nat} (waits : c.waitsFor i = true) : c.refetch i =
    (c.setEntry i { c.entry i with state := .fetching .demand }).enqueue i := if_pos waits

theorem refetch_of_not_waits {c : Cache} {i : Nat} (still : ¬ c.waitsFor i = true) :
    c.refetch i = c := if_neg still

/-- Entries queued again one by one: each once, in their order, behind those queued before. -/
theorem foldl_refetch {is : List Nat} {c : Cache} (once : is.Nodup)
    (there : ∀ i ∈ is, i < c.entries.length)
    (fresh : ∀ i ∈ is, i ∈ c.fetchOrder → (c.entry i).state ≠ .stale) :
    let d := is.foldl Cache.refetch c
    d.recency = c.recency ∧
      (∀ i, d.entry i = if i ∈ is ∧ c.waitsFor i = true then
        { c.entry i with state := .fetching .demand } else c.entry i) ∧
      d.fetchOrder = c.fetchOrder ++ is.filter c.waitsFor := by
  induction is generalizing c with
  | nil => simp
  | cons i is ih =>
    obtain ⟨first, once⟩ := List.nodup_cons.mp once
    rw [List.forall_mem_cons] at there fresh
    rw [List.foldl_cons]
    by_cases waits : c.waitsFor i = true
    swap
    · rw [refetch_of_not_waits waits, List.filter_cons_of_neg waits]
      obtain ⟨recency, entry, order⟩ := ih once there.2 fresh.2
      refine ⟨recency, fun j => (entry j).trans (if_congr ?_ rfl rfl), order⟩
      rw [List.mem_cons]
      refine ⟨fun h => ⟨.inr h.1, h.2⟩, fun h => ⟨h.1.resolve_left ?_, h.2⟩⟩
      rintro rfl
      exact waits h.2
    have stale := (waitsFor_iff.mp waits).1
    rw [refetch_of_waits waits, List.filter_cons_of_pos waits]
    generalize hd : (c.setEntry i { c.entry i with state := .fetching .demand }).enqueue i = d
    have same : d.entry i = { c.entry i with state := .fetching .demand } := by
      rw [← hd]; exact c.entry_setEntry_self i _ there.1
    have other : ∀ j, j ≠ i → d.entry j = c.entry j := fun j hj => by
      rw [← hd]; exact c.entry_setEntry_of_ne i j _ hj
    have otherWaits : ∀ j, j ≠ i → d.waitsFor j = c.waitsFor j := fun j hj => by
      rw [Cache.waitsFor, other j hj, Cache.waitsFor]
    have order : d.fetchOrder = c.fetchOrder ++ [i] := by
      rw [← hd]
      refine congrArg (· ++ [i]) (List.filter_eq_self.mpr fun j mem => decide_eq_true ?_)
      rintro rfl
      exact fresh.1 mem stale
    have apart : ∀ j ∈ is, j ≠ i := fun j mem eq => first (eq ▸ mem)
    have fresh' : ∀ j ∈ is, j ∈ d.fetchOrder → (d.entry j).state ≠ .stale := by
      intro j mem queued
      rw [other j (apart j mem)]
      rw [order, List.mem_append, List.mem_singleton] at queued
      exact fresh.2 j mem (queued.resolve_right (apart j mem))
    obtain ⟨recency, entry, fetchOrder⟩ := ih (c := d) once
      (fun j mem => by rw [← hd]; simpa using there.2 j mem) fresh'
    refine ⟨recency.trans (by rw [← hd]; rfl), fun j => ?_, ?_⟩
    · rw [entry]
      by_cases hj : j = i
      · subst hj
        rw [if_neg fun h => first h.1, same, if_pos ⟨List.mem_cons_self, waits⟩]
      · rw [other j hj, otherWaits j hj]
        refine if_congr (and_congr_left' ?_) rfl rfl
        rw [List.mem_cons, or_iff_right hj]
    · rw [fetchOrder, order, List.append_assoc, List.singleton_append]
      exact congrArg (c.fetchOrder ++ i :: ·) (List.filter_congr fun j mem =>
        otherWaits j (apart j mem))

/-! ## The header in the flash (R134) -/

theorem byte_eq_iff (b c : Byte) : b = c ↔ b.toNat = c.toNat := BitVec.toNat_inj.symm

theorem readHeader_eq (m : List Host.Cell) :
    let byte := fun a => (Memory.read m a).toNat
    let count := byte 6 * 256 + byte 7
    let base := ((byte 8 * 256 + byte 9) * 256 + byte 10) * 256 + byte 11
    let size := byte 5
    readHeader m = if byte 0 = 0x55 ∧ byte 1 = 0x46 ∧ byte 2 = 0x46 ∧ byte 3 = 0x4E ∧ byte 4 = 1 ∧
      1 ≤ count ∧ (size = 4 ∨ size = 8 ∨ size = 16 ∨ size = 32 ∨ size = 64) ∧
      base + count * 388 ≤ size * 1048576 then some ⟨count, base, size⟩ else none := by
  intro byte count base size
  have counts : beValue (Memory.bytes m 6 2) = count := by
    simp [beValue, Memory.bytes, count, byte]
  have bases : beValue (Memory.bytes m 8 4) = base := by
    simp [beValue, Memory.bytes, base, byte]
  have signature : Memory.bytes m 0 4 = [0x55, 0x46, 0x46, 0x4E] ↔
      byte 0 = 0x55 ∧ byte 1 = 0x46 ∧ byte 2 = 0x46 ∧ byte 3 = 0x4E := by
    simp only [Memory.bytes, List.cons.injEq, and_true, byte_eq_iff]
    exact Iff.rfl
  have version : Memory.read m 4 = 1 ↔ byte 4 = 1 := byte_eq_iff _ _
  have sizes : [4, 8, 16, 32, 64].contains size = true ↔
      size = 4 ∨ size = 8 ∨ size = 16 ∨ size = 32 ∨ size = 64 := by simp
  have record : Config.glyphRecordBytes = 388 := rfl
  rw [readHeader]
  simp only [counts, bases, record]
  refine if_congr ?_ rfl rfl
  rw [Bool.and_eq_true, Bool.and_eq_true, Bool.and_eq_true, Bool.and_eq_true, decide_eq_true_iff,
    decide_eq_true_iff, decide_eq_true_iff, decide_eq_true_iff, signature, version, sizes]
  simp only [and_assoc]
  exact Iff.rfl

/-! ## What follows a scan -/

theorem fontDone_font (s : State) : s.fontDone.font = { s.font with maintScan := false } := by
  unfold State.fontDone
  split
  next scan => exact raise_touches _ _ _ .font (by decide)
  next none_ =>
    have off : s.font.maintScan = false := Bool.not_eq_true _ ▸ none_
    rw [← off]

theorem testWaking_video {s : State} (found : s.font.store ≠ .scanning) :
    s.testWaking.video = { s.video with
      power := if s.video.power = .waking ∧ s.video.path ≠ .changeover then .active
        else s.video.power } := by
  unfold State.testWaking
  have iff : (s.video.power = .waking && s.font.store ≠ .scanning && s.video.path ≠ .changeover) = true ↔
      s.video.power = .waking ∧ s.video.path ≠ .changeover := by
    simp [found]
  split
  next h => rw [if_pos (iff.mp h)]
  next h => rw [if_neg (h ∘ iff.mpr)]

/-- The state once a scan has found a header or none, before what follows. -/
def State.scanned (s : State) : State :=
  match readHeader s.flash with
  | some h =>
    { s with font := { s.font with store := .ready, header := some h }, cache := s.cache.refetchAll }
  | none =>
    { s with
      font := { s.font with store := .absent, header := none }, cache := s.cache.allSubstituted }

theorem scanned_of_some {s : State} {h : FontHeader} (header : readHeader s.flash = some h) :
    s.scanned = { s with
      font := { s.font with store := .ready, header := some h }, cache := s.cache.refetchAll } := by
  rw [State.scanned, header]

theorem scanned_of_none {s : State} (header : readHeader s.flash = none) : s.scanned = { s with
    font := { s.font with store := .absent, header := none }, cache := s.cache.allSubstituted } := by
  rw [State.scanned, header]

theorem completeScan_eq (s : State) : s.completeScan = s.scanned.fontDone.testWaking := rfl

/-- What a scan comes to, by the store, the header and the cache that it leaves. -/
theorem completeScan_of_scanned {s : State} {store : StoreState} {header : Option FontHeader}
    {cache : Cache} (found : store ≠ .scanning)
    (scanned : s.scanned =
      { s with font := { s.font with store := store, header := header }, cache := cache }) :
    let u := s.completeScan
    u.font = { s.font with store := store, maintScan := false, header := header } ∧
      (s.font.maintScan = true → u.shows .venue (.fontDone store s.font.fault)) ∧
      (s.font.maintScan = false → Touches [.font, .cache, .video] s u) ∧
      u.video = { s.video with
        power := if s.video.power = .waking ∧ s.video.path ≠ .changeover then .active
          else s.video.power } ∧
      u.cache = cache := by
  rw [completeScan_eq, scanned]
  generalize hw : ({ s with
    font := { s.font with store := store, header := header }, cache := cache } : State) = w
  have wfont : w.font = { s.font with store := store, header := header } := by rw [← hw]
  have wvideo : w.video = s.video := by rw [← hw]
  have wcache : w.cache = cache := by rw [← hw]
  have waking := testWaking_touches w.fontDone
  have done := fontDone_touches w
  have font : w.fontDone.font = { s.font with store := store, maintScan := false, header := header } := by
    rw [fontDone_font, wfont]
  refine ⟨(waking .font (by decide)).trans font, fun scan => ?_, fun none_ => ?_, ?_, ?_⟩
  · have shown : w.fontDone.shows .venue (.fontDone store s.font.fault) := by
      have wscan : w.font.maintScan = true := by rw [wfont]; exact scan
      have values : w.font.store = store ∧ w.font.fault = s.font.fault := by rw [wfont]; exact ⟨rfl, rfl⟩
      rw [State.fontDone, if_pos wscan, values.1, values.2]
      exact raise_shows _ _ _ .venue (by decide)
    rw [State.shows, waking .notices (by decide) .venue]
    exact shown
  · have wscan : w.font.maintScan = false := by rw [wfont]; exact none_
    have still : w.fontDone = w := if_neg (by rw [wscan]; decide)
    rw [still] at waking ⊢
    refine Touches.trans (t := w) ?_ (waking.mono rfl)
    rw [← hw]
    exact ((cache_touches s cache).mono rfl).trans ((font_touches { s with cache := cache } _).mono rfl)
  · rw [testWaking_video (by rw [font]; exact found), done .video (by decide), wvideo]
  · rw [waking .cache (by decide), done .cache (by decide), wcache]

/-- Settles O45, by whether the flash holds a valid header. -/
theorem scansFindTheFont : Obligations.ScansFindTheFont := by
  intro s scanning byte count base size valid
  have header : readHeader s.flash = if valid then some ⟨count, base, size⟩ else none :=
    readHeader_eq s.flash
  have run : exec .fontScanComplete s = .next s.completeScan := by
    change execFontScanComplete s = _
    rw [execFontScanComplete, scanning]
  refine ⟨_, run, completeScan_touches s, ?_⟩
  by_cases v : valid
  · rw [if_pos v] at header
    obtain ⟨font, shown, quiet, video, cache⟩ := completeScan_of_scanned (store := .ready) nofun (scanned_of_some header)
    rw [if_pos v, if_pos v, cache]
    refine ⟨font, shown, quiet, video, fun invalid => absurd v invalid, fun _ once there fresh => ?_⟩
    obtain ⟨recency, entry, order⟩ := foldl_refetch once there fun i _ queued => fresh i queued
    refine ⟨recency, fun i mem => (entry i).trans (if_congr ?_ rfl rfl), order⟩
    rw [waitsFor_iff, and_iff_right mem]
  · rw [if_neg v] at header
    obtain ⟨font, shown, quiet, video, cache⟩ := completeScan_of_scanned (store := .absent) nofun (scanned_of_none header)
    rw [if_neg v, if_neg v, cache]
    refine ⟨font, shown, quiet, video, fun _ => ⟨rfl, rfl, List.map_congr_left fun e _ => ?_⟩,
      fun v' => absurd v' v⟩
    unfold CacheEntry.substituted
    refine if_congr ?_ rfl rfl
    rw [Bool.or_eq_true, decide_eq_true_iff]

end Sys2Proof.Machine
end

section
/-! Maintenance of the font store (R136, R137, R141; O46). -/

namespace Sys2Proof.Machine

/-! ## FONT-MAINT-BEGIN (R136) -/

theorem maintBegin_taken {s : State} {p : Port} (hc : s.canTake (.fontMaintBegin p) = true) :
    exec (.fontMaintBegin p) s = .next ((s.accept p maintBeginFrame).maintBegin p) ∧
      (s.port p).admits maintBeginFrame = true := by
  have may : ((s.port p).admits maintBeginFrame && permitted 0x2E p) = true := hc
  rw [Bool.and_eq_true] at may
  refine ⟨?_, may.1⟩
  change execFontMaintBegin p s = _
  rw [execFontMaintBegin, if_pos may.1, if_pos may.2]

/-- FONT-MAINT-BEGIN answered in its own step. -/
theorem maintBegin_runs {s v : State} {p : Port} {r : ResultCode} {ks : List Piece}
    (hc : s.canTake (.fontMaintBegin p) = true)
    (taken : (s.accept p maintBeginFrame).maintBegin p = v.reply p 0x2E r [])
    (touches : Touches ks (s.accept p maintBeginFrame) v) (links : Piece.links ∉ ks) :
    Runs (.fontMaintBegin p) ks r [] s (v.reply p 0x2E r []) := by
  have wider : ∀ {js : List Piece}, (∀ k ∈ js, k ∈ Piece.links :: ks) →
      (js.all fun k => (Piece.links :: ks).contains k) = true := fun sub =>
    List.all_eq_true.mpr fun k mem => by simpa using sub k mem
  refine ⟨(maintBegin_taken hc).1.trans (congrArg _ taken), ?_, p, maintBeginFrame, rfl,
    answers_of _ _ (touches .links links)⟩
  exact (((accept_touches s p _).mono (wider (by simp))).trans
    (touches.mono (wider fun k mem => List.mem_cons_of_mem _ mem))).trans
      ((reply_touches _ _ _ _ _).mono (wider (by simp)))

/-- FONT-MAINT-BEGIN held back: its port keeps the frame and waits. -/
theorem maintBegin_waits {s : State} {p : Port} (hc : s.canTake (.fontMaintBegin p) = true)
    (store : s.font.store = .ready ∨ s.font.store = .absent)
    (fetching : s.cache.inProgress.isSome = true) :
    ∃ u, exec (.fontMaintBegin p) s = .next u ∧ Touches [.font, .links] s u ∧
      u.font = { s.font with maintWanted := true } ∧ (u.port p).link = .waiting ∧
      ∀ q, q ≠ p → u.port q = s.port q := by
  obtain ⟨run, -⟩ := maintBegin_taken hc
  have held : (s.accept p maintBeginFrame).maintBegin p =
      (s.accept p maintBeginFrame).mapFont fun f => { f with maintWanted := true } := by
    have store' : (s.accept p maintBeginFrame).font.store = .ready ∨
        (s.accept p maintBeginFrame).font.store = .absent := store
    rw [State.maintBegin]
    rcases store' with h | h <;> rw [h] <;> exact if_pos fetching
  rw [held] at run
  refine ⟨_, run, ((accept_touches s p _).mono rfl).trans ((mapFont_touches _ _).mono rfl), rfl, ?_,
    fun q hq => port_setPort_other s _ hq⟩
  change ((s.accept p maintBeginFrame).port p).link = .waiting
  rw [accept_port, PortState.accept]
  split
  next waiting => exact waiting
  next => rfl

/-! ## Commands that only MAINTENANCE takes -/

/-- A block behind the refusal common to these commands. -/
def whileMaintained (block : State → Taken) (s : State) : Taken :=
  match s.font.store.refusal with
  | some r => refuse s r
  | none => block s

theorem whileMaintained_taken {block : State → Taken} {s : State} (store : s.font.store = .maintenance) :
    whileMaintained block s = block s := by
  rw [whileMaintained, store]
  rfl

theorem whileMaintained_refused {i : Instr} {p : Port} {f : Frame} {s : State} {block : State → Taken}
    {r : ResultCode} (hf : frameOf i = some (p, f))
    (he : exec i s = clientCommand i s (whileMaintained block)) (hc : s.canTake i = true)
    (refusal : s.font.store.refusal = some r) : ∃ u, Runs i [] r [] s u := by
  refine runs_unchanged hf he hc ?_
  have refusal' : (s.accept p f).font.store.refusal = some r := refusal
  rw [whileMaintained, refusal']
  rfl

theorem exec_fontMaintEnd (p : Port) (s : State) : exec (.fontMaintEnd p) s =
    clientCommand (.fontMaintEnd p) s (whileMaintained fun s => readOk s.endMaintenance []) := rfl

theorem exec_fontWriteEnable (p : Port) (s : State) : exec (.fontWriteEnable p) s =
    clientCommand (.fontWriteEnable p) s
      (whileMaintained fun s => readOk (s.mapFont fun f => { f with latch := true }) []) := rfl

/-- A protection byte below 4 stands for the level of that place, and no other for one. -/
theorem protectionOf_place (v : Byte) : if 4 ≤ v.toNat then protectionOf v = none
    else ∃ x, protectionOf v = some x ∧ x.place = v.toNat := by
  revert v; decide

/-- FONT-PROTECT at the Font Port. -/
def protectBlock (level : Byte) (s : State) : Taken :=
  match s.font.store, protectionOf level with
  | .busy _ _, _ => refuse s .busy
  | _, none => refuse s .range
  | _, some x => readOk (s.mapFont fun f => { f with protection := x }) []

theorem exec_fontProtect (p : Port) (level : Byte) (s : State) : exec (.fontProtect p level) s =
    clientCommand (.fontProtect p level) s (protectBlock level) := rfl

theorem protectBlock_of_busy {s : State} {op : FlashOp} {n : Nat} (busy : s.font.store = .busy op n)
    (level : Byte) : protectBlock level s = refuse s .busy := by
  rw [protectBlock, busy]

theorem protectBlock_of_none {s : State} {level : Byte} (idle : ∀ op n, s.font.store ≠ .busy op n)
    (unknown : protectionOf level = none) : protectBlock level s = refuse s .range := by
  rw [protectBlock, unknown]
  cases store : s.font.store with
  | busy op n => exact absurd store (idle op n)
  | scanning | ready | absent | maintenance => rfl

theorem protectBlock_of_some {s : State} {level : Byte} {x : Protection}
    (idle : ∀ op n, s.font.store ≠ .busy op n) (known : protectionOf level = some x) :
    protectBlock level s = readOk (s.mapFont fun f => { f with protection := x }) [] := by
  rw [protectBlock, known]
  cases store : s.font.store with
  | busy op n => exact absurd store (idle op n)
  | scanning | ready | absent | maintenance => rfl

/-- FONT-PROTECT while no flash operation runs. -/
theorem fontProtect_runs {s : State} {p : Port} {v : Byte} (hc : s.canTake (.fontProtect p v) = true)
    (idle : ∀ op n, s.font.store ≠ .busy op n) :
    if 4 ≤ v.toNat then ∃ u, Runs (.fontProtect p v) [] .range [] s u
    else ∃ u, Runs (.fontProtect p v) [.font] .ok [] s u ∧
      u.font = { s.font with protection := u.font.protection } ∧
      u.font.protection.place = v.toNat := by
  have levels := protectionOf_place v
  split
  next above =>
    rw [if_pos above] at levels
    exact runs_unchanged rfl (exec_fontProtect p v s) hc (protectBlock_of_none idle levels)
  next below =>
    rw [if_neg below] at levels
    obtain ⟨x, known, place⟩ := levels
    exact ⟨_, runs_block rfl (exec_fontProtect p v s) hc (protectBlock_of_some idle known)
      (mapFont_touches _ _) (by decide), rfl, place⟩

theorem atMaintenance_eq (e : CacheEntry) : e.atMaintenance = match e.state, e.bitmap with
    | .fetching .prefetch, _ => CacheEntry.empty
    | .fetching .demand, none =>
      { e with state := .stale, substitute := true
               bitmap := some { coverage := .substitute, advance := 24 } }
    | .fetching .demand, some _ => { e with state := .stale }
    | _, _ => e := by
  obtain ⟨code, state, bitmap, substitute, pins, late⟩ := e
  cases state with
  | fetching cls => cases cls <;> cases bitmap <;> rfl
  | free | resident | stale => rfl

/-- Settles O46, command by command and state by state of the store. -/
theorem maintenanceIsEnteredAndLeft : Obligations.MaintenanceIsEnteredAndLeft := by
  refine ⟨fun s p hc => ⟨fun store => ⟨maintBegin_waits hc store, fun idle => ?enter⟩,
    fun store => ?refuse, fun op n store => ?busy⟩, fun s wanted idle => ?entry, fun c i => ?entries,
    fun s p => ⟨fun hc => ?leave, fun hc => ?latch, fun v hc => ?level⟩⟩
  case enter =>
    have taken : (s.accept p maintBeginFrame).maintBegin p =
        (s.accept p maintBeginFrame).enterMaintenance.reply p 0x2E .ok [] := by
      have store' : (s.accept p maintBeginFrame).font.store = .ready ∨
          (s.accept p maintBeginFrame).font.store = .absent := store
      have idle' : ¬ (s.accept p maintBeginFrame).cache.inProgress.isSome = true := by
        change ¬ s.cache.inProgress.isSome = true
        rw [idle]; nofun
      rw [State.maintBegin]
      rcases store' with h | h <;> rw [h] <;> exact if_neg idle'
    exact ⟨_, maintBegin_runs hc taken (enterMaintenance_touches _) (by decide), rfl, rfl⟩
  case refuse =>
    have taken : (s.accept p maintBeginFrame).maintBegin p =
        (s.accept p maintBeginFrame).reply p 0x2E .state [] := by
      have store' : (s.accept p maintBeginFrame).font.store = .scanning ∨
          (s.accept p maintBeginFrame).font.store = .maintenance := store
      rw [State.maintBegin]
      rcases store' with h | h <;> rw [h]
    exact ⟨_, maintBegin_runs hc taken (Touches.refl _ _) (by decide)⟩
  case busy =>
    have taken : (s.accept p maintBeginFrame).maintBegin p =
        (s.accept p maintBeginFrame).reply p 0x2E .busy [] := by
      have store' : (s.accept p maintBeginFrame).font.store = .busy op n := store
      rw [State.maintBegin, store']
    exact ⟨_, maintBegin_runs hc taken (Touches.refl _ _) (by decide)⟩
  case entry =>
    have run : exec .maintenanceEntry s = .next (s.enterMaintenance.reply .venue 0x2E .ok []) := by
      change execMaintenanceEntry s = _
      rw [execMaintenanceEntry, wanted, idle]
      rfl
    refine ⟨_, run, ((enterMaintenance_touches s).mono rfl).trans ((reply_touches _ _ _ _ _).mono rfl),
      rfl, rfl, ?_, fun q hq => ?_⟩
    · rw [reply_port]
      exact ⟨rfl, rfl, rfl, rfl, rfl, rfl, rfl⟩
    · rw [reply_port_other _ _ _ _ hq]
      rfl
  case entries =>
    rw [Cache.atMaintenance, List.getElem?_map]
    exact congrArg (Option.map · _) (funext atMaintenance_eq)
  case leave =>
    have refused := fun r => whileMaintained_refused (r := r) rfl (exec_fontMaintEnd p s) hc
    cases store : s.font.store with
    | maintenance =>
      exact ⟨_, runs_block rfl (exec_fontMaintEnd p s) hc
        (whileMaintained_taken (s := s.accept p ⟨0x34, []⟩) store) (endMaintenance_touches _) (by decide),
        rfl, rfl⟩
    | busy op n => exact refused _ (congrArg StoreState.refusal store)
    | scanning | ready | absent => exact refused _ (congrArg StoreState.refusal store)
  case latch =>
    have refused := fun r => whileMaintained_refused (r := r) rfl (exec_fontWriteEnable p s) hc
    cases store : s.font.store with
    | maintenance =>
      exact ⟨_, runs_block rfl (exec_fontWriteEnable p s) hc
        (whileMaintained_taken (s := s.accept p ⟨0x2F, []⟩) store) (mapFont_touches _ _) (by decide), rfl⟩
    | busy op n => exact refused _ (congrArg StoreState.refusal store)
    | scanning | ready | absent => exact refused _ (congrArg StoreState.refusal store)
  case level =>
    cases store : s.font.store with
    | busy op n =>
      exact runs_unchanged rfl (exec_fontProtect p v s) hc
        (protectBlock_of_busy (s := s.accept p ⟨0x33, [v]⟩) store v)
    | scanning | ready | absent | maintenance =>
      exact fontProtect_runs hc (by rw [store]; nofun)

end Sys2Proof.Machine
end

section
/-! Flash operations: their checks, their start, their ends and what they leave of the flash (R137 to
R140; O47). -/

namespace Sys2Proof.Machine

/-! ## The protected range (R137) -/

theorem protects_iff {f : FontPort} {first count : Nat} (least : 1 ≤ count) :
    f.protects first count = true ↔
      match f.protection, f.header.map fun h => h.sizeMiB * 1048576 with
      | .none, _ => False
      | .upperQuarter, some n => n * 3 / 4 < first + count
      | .upperHalf, some n => n / 2 < first + count
      | _, _ => True := by
  have whole : 0 < first + count := by omega
  have size : f.workingSize = f.header.map fun h => h.sizeMiB * 1048576 := rfl
  rw [FontPort.protects, FontPort.protectedFrom, size]
  cases f.protection <;> cases f.header <;> simp [whole]

/-! ## The checks of an operation (R138) -/

/-- FONT-PROGRAM and FONT-ERASE: a range test of their own, then the latch and the protected range. -/
theorem flash_runs {i : Instr} {p : Port} {f : Frame} {s : State} {op : FlashOp}
    (outOfRange : State → Prop) [∀ s, Decidable (outOfRange s)] (hf : frameOf i = some (p, f))
    (he : exec i s = clientCommand i s (whileMaintained fun s =>
      if outOfRange s then refuse s .range else flashBlock op s))
    (hc : s.canTake i = true) (store : s.font.store = .maintenance) :
    (outOfRange (s.accept p f) → ∃ u, Runs i [] .range [] s u) ∧
    (¬ outOfRange (s.accept p f) → s.font.latch = false → ∃ u, Runs i [] .notEnabled [] s u) ∧
    (¬ outOfRange (s.accept p f) → s.font.latch = true →
      s.font.protects op.range.1 op.range.2 = true → ∃ u, Runs i [] .protected_ [] s u) ∧
    (¬ outOfRange (s.accept p f) → s.font.latch = true →
      s.font.protects op.range.1 op.range.2 = false → ∃ u, Runs i [.font] .ok [] s u ∧
        u.font = { s.font with store := .busy op 0 }) := by
  have taken : whileMaintained _ (s.accept p f) = _ :=
    whileMaintained_taken (block := fun s => if outOfRange s then refuse s .range else flashBlock op s)
      (s := s.accept p f) store
  have latched : ∀ {b : Bool}, s.font.latch = b → (!(s.accept p f).font.latch) = !b := fun h =>
    congrArg (!·) h
  have inRange : ¬ outOfRange (s.accept p f) → whileMaintained _ (s.accept p f) =
      flashBlock op (s.accept p f) := fun ok => taken.trans (if_neg ok)
  refine ⟨fun bad => ?_, fun ok latch => ?_, fun ok latch guarded => ?_, fun ok latch free => ?_⟩
  · exact runs_unchanged hf he hc (taken.trans (if_pos bad))
  · exact runs_unchanged hf he hc ((inRange ok).trans (if_pos (latched latch)))
  · exact runs_unchanged hf he hc ((inRange ok).trans
      ((if_neg (by rw [latched latch]; nofun)).trans (if_pos guarded)))
  · have started := (inRange ok).trans
      ((if_neg (by rw [latched latch]; nofun)).trans (if_neg (ne_true_of_eq_false free)))
    exact ⟨_, runs_block hf he hc started (font_touches _ _) (by decide), rfl⟩

/-! ## The end of an operation (R139) -/

/-- The first byte an operation names, and their count. -/
theorem apply_outside {m : List Host.Cell} (op : FlashOp) {a : Nat}
    (outside : a < op.range.1 ∨ op.range.1 + op.range.2 ≤ a) :
    Memory.read (op.apply m) a = Memory.read m a := by
  cases op with
  | program first d => exact Memory.read_fill_outside _ _ _ _ _ outside
  | erase x =>
    refine (Memory.read_filter (fun b => b < x * 4096 || x * 4096 + 4096 ≤ b) m a).trans (if_pos ?_)
    rw [Bool.or_eq_true, decide_eq_true_iff, decide_eq_true_iff]
    exact outside

theorem apply_program {m : List Host.Cell} (wf : Memory.wf m = true) (first : Nat) {d : List Byte}
    {k : Nat} (hk : k < d.length) : Memory.read ((FlashOp.program first d).apply m) (first + k) =
      Memory.read m (first + k) &&& d.getD k 0xFF := by
  refine (Memory.read_fill_inside _ _ _ _ _ wf (by omega) (by omega)).trans ?_
  rw [Nat.add_sub_cancel_left]

theorem apply_erase (m : List Host.Cell) (x : Nat) {k : Nat} (hk : k < 4096) :
    Memory.read ((FlashOp.erase x).apply m) (x * 4096 + k) = 0xFF := by
  refine (Memory.read_filter (fun b => b < x * 4096 || x * 4096 + 4096 ≤ b) m _).trans (if_neg ?_)
  rw [Bool.or_eq_true, decide_eq_true_iff, decide_eq_true_iff]
  omega

/-! ## FONT-READ (R140) -/

/-- FONT-READ at the Font Port, in MAINTENANCE. -/
def readFlash (address length : Nat) (s : State) : Taken :=
  if outside 1 240 length || s.font.addressLimit < address + length then refuse s .range
  else readOk s (beList (fun b => [b]) (Memory.bytes s.flash address length))

theorem exec_fontRead (p : Port) (a : BitVec 32) (n : Byte) (s : State) : exec (.fontRead p a n) s =
    clientCommand (.fontRead p a n) s (whileMaintained (readFlash a.toNat n.toNat)) := rfl

theorem flatMap_singleton_bytes (bs : List Byte) : (bs.flatMap fun b => [b]) = bs := by
  induction bs with
  | nil => rfl
  | cons b bs ih => rw [List.flatMap_cons, ih]; rfl

theorem fontRead_runs {s : State} {p : Port} {a : BitVec 32} {n : Byte}
    (hc : s.canTake (.fontRead p a n) = true) (store : s.font.store = .maintenance) :
    if 1 ≤ n.toNat ∧ n.toNat ≤ 240 ∧ a.toNat + n.toNat ≤ s.font.addressLimit then
      ∃ u, Runs (.fontRead p a n) [] .ok
        (n :: (List.range n.toNat).map fun k => Memory.read s.flash (a.toNat + k)) s u
    else ∃ u, Runs (.fontRead p a n) [] .range [] s u := by
  have taken : whileMaintained (readFlash a.toNat n.toNat)
      (s.accept p ⟨0x32, be32 a.toNat ++ [n]⟩) = _ :=
    whileMaintained_taken (block := readFlash a.toNat n.toNat) (s := s.accept p _) store
  have range : (outside 1 240 n.toNat || decide (s.font.addressLimit < a.toNat + n.toNat)) = true ↔
      ¬ (1 ≤ n.toNat ∧ n.toNat ≤ 240 ∧ a.toNat + n.toNat ≤ s.font.addressLimit) := by
    simp only [outside, Bool.or_eq_true, decide_eq_true_iff]
    omega
  split
  next ok =>
    have data : beList (fun b => [b]) (Memory.bytes s.flash a.toNat n.toNat) =
        n :: (List.range n.toNat).map fun k => Memory.read s.flash (a.toNat + k) := by
      rw [memory_bytes_eq, beList, flatMap_singleton_bytes, List.length_map, List.length_range,
        be8, BitVec.ofNat_toNat, BitVec.setWidth_eq, List.singleton_append]
    rw [← data]
    exact runs_unchanged rfl (exec_fontRead p a n s) hc (taken.trans (if_neg fun h => range.mp h ok))
  next bad =>
    exact runs_unchanged rfl (exec_fontRead p a n s) hc (taken.trans (if_pos (range.mpr bad)))

theorem exec_fontProgram (p : Port) (a : BitVec 32) (d : List Byte) (s : State) :
    exec (.fontProgram p a d) s = clientCommand (.fontProgram p a d) s (whileMaintained fun s =>
      if (outside 1 240 d.length || a.toNat / 256 ≠ (a.toNat + d.length - 1) / 256 ||
          s.font.addressLimit ≤ a.toNat + d.length - 1) = true then refuse s .range
      else flashBlock (.program a.toNat d) s) := rfl

theorem exec_fontErase (p : Port) (n : BitVec 16) (s : State) :
    exec (.fontErase p n) s = clientCommand (.fontErase p n) s (whileMaintained fun s =>
      if s.font.addressLimit ≤ n.toNat * 4096 then refuse s .range
      else flashBlock (.erase n.toNat) s) := rfl

/-- Settles O47: the checks by `flash_runs`, the ends by what a fill and a filter of the flash leave. -/
theorem flashOperationsAreCheckedAndEnd : Obligations.FlashOperationsAreCheckedAndEnd := by
  refine ⟨fun s p i op bad which hc => ?checks, fun s op n store canonical => ?ends,
    fun s p a n hc => ?read⟩
  case checks =>
    intro first count size guarded
    have refused : ∀ r, s.font.store.refusal = some r → ∃ u, Runs i [] r [] s u := by
      rcases which with ⟨a, d, rfl, rfl, -⟩ | ⟨n, rfl, rfl, -⟩
      · exact fun r => whileMaintained_refused rfl (exec_fontProgram p a d s) hc
      · exact fun r => whileMaintained_refused rfl (exec_fontErase p n s) hc
    cases store : s.font.store with
    | busy op n => exact refused _ (congrArg StoreState.refusal store)
    | scanning | ready | absent => exact refused _ (congrArg StoreState.refusal store)
    | maintenance =>
      rcases which with ⟨a, d, rfl, rfl, outOfRange⟩ | ⟨n, rfl, rfl, outOfRange⟩
      · obtain ⟨range, notEnabled, protected_, started⟩ :=
          flash_runs (fun s => (outside 1 240 d.length ||
            a.toNat / 256 ≠ (a.toNat + d.length - 1) / 256 ||
            s.font.addressLimit ≤ a.toNat + d.length - 1) = true)
            rfl (exec_fontProgram p a d s) hc store
        have same : (outside 1 240 d.length || decide (a.toNat / 256 ≠ (a.toNat + d.length - 1) / 256) ||
            decide (s.font.addressLimit ≤ a.toNat + d.length - 1)) = true ↔ bad := by
          rw [outOfRange, Bool.or_eq_true, Bool.or_eq_true, outside_iff, decide_eq_true_iff,
            decide_eq_true_iff, or_assoc, or_assoc, Nat.lt_one_iff]
        have guards : ¬ bad → (s.font.protects a.toNat d.length = true ↔ guarded) := fun ok =>
          protects_iff (by by_contra none_; exact ok (outOfRange.mpr (.inl (by omega))))
        refine ⟨fun b => range (same.mpr b), fun ok => notEnabled (ok ∘ same.mp),
          fun ok latch g => protected_ (ok ∘ same.mp) latch ((guards ok).mpr g),
          fun ok latch free => started (ok ∘ same.mp) latch (eq_false_of_ne_true (free ∘ (guards ok).mp))⟩
      · obtain ⟨range, notEnabled, protected_, started⟩ :=
          flash_runs (fun s => s.font.addressLimit ≤ n.toNat * 4096) rfl (exec_fontErase p n s) hc store
        have guards : s.font.protects (n.toNat * 4096) 4096 = true ↔ guarded :=
          protects_iff (by decide)
        refine ⟨fun b => range (outOfRange.mp b), fun ok => notEnabled (ok ∘ outOfRange.mpr),
          fun ok latch g => protected_ (ok ∘ outOfRange.mpr) latch (guards.mpr g),
          fun ok latch free => started (ok ∘ outOfRange.mpr) latch
            (eq_false_of_ne_true (free ∘ guards.mp))⟩
  case ends =>
    intro first count
    have named : op.range = (first, count) := by cases op <;> rfl
    have outside_ : ∀ a, a < first ∨ first + count ≤ a →
        a < op.range.1 ∨ op.range.1 + op.range.2 ≤ a := fun a h => by rw [named]; exact h
    have done : exec .flashOperationDone s = .next (s.finishFlash op) := by
      change execFlashOperationDone s = _
      rw [execFlashOperationDone, store]
    refine ⟨⟨_, done, finishFlash_touches s op, rfl, fun a h => apply_outside op (outside_ a h),
      fun k hk => ?_⟩, fun late => ?_⟩
    · cases op with
      | program a d => exact apply_program canonical a hk
      | erase x => exact apply_erase s.flash x hk
    · have left : s.timeOutFlash = s.abandonFlash op := by
        rw [State.timeOutFlash, store]
        exact if_pos late
      have run : exec .flashOperationTimeout s = .next (s.abandonFlash op) := by
        change execFlashOperationTimeout s = _
        rw [execFlashOperationTimeout, left]
      exact ⟨_, run, abandonFlash_touches s op, rfl, fun a h =>
        Memory.read_fill_outside _ _ _ _ _ (outside_ a h)⟩
  case read =>
    have refused := fun r => whileMaintained_refused (r := r) rfl (exec_fontRead p a n s) hc
    cases store : s.font.store with
    | maintenance => exact fontRead_runs hc store
    | busy op n => exact refused _ (congrArg StoreState.refusal store)
    | scanning | ready | absent => exact refused _ (congrArg StoreState.refusal store)

end Sys2Proof.Machine
end

section
/-! The video path: classes, path changes and the loss of input (R143 to R147; O48). -/

namespace Sys2Proof.Machine

/-! ## Classes (R143) -/

theorem formatOf_eq_some_iff {width height : Nat} {sixty : Bool} {f : Format} :
    formatOf width height sixty = some f ↔
      (width = 1280 ∧ height = 720 ∧ f = if sixty then .f720p60 else .f720p50) ∨
      (width = 1920 ∧ height = 1080 ∧ f = if sixty then .f1080p60 else .f1080p50) := by
  rw [formatOf]
  simp only [Bool.and_eq_true, decide_eq_true_iff]
  split
  next hd => simp [hd.1, hd.2, eq_comm]
  next notHd =>
    split
    next full => simp [full.1, full.2, eq_comm]
    next notFull =>
      simp only [reduceCtorEq, false_iff, not_or]
      exact ⟨fun h => notHd ⟨h.1, h.2.1⟩, fun h => notFull ⟨h.1, h.2.1⟩⟩

/-- The format a period and a size make. -/
def foundFormat (m : FrameMeasure) : Option Format :=
  if 1960 ≤ m.period && m.period ≤ 2040 then formatOf m.width m.height false
  else if 1640 ≤ m.period && m.period ≤ 1700 then formatOf m.width m.height true
  else none

theorem classify_eq_supported_iff {m : FrameMeasure} {f : Format} :
    FrameMeasure.classify m = .supported f ↔ m.uniform = true ∧ m.progressive = true ∧ foundFormat m = some f := by
  have eq : FrameMeasure.classify m = if m.uniform && m.progressive then
      match foundFormat m with
      | some f => .supported f
      | none => .unsupported
    else .unsupported := rfl
  rw [eq]
  simp only [Bool.and_eq_true]
  split
  next steady =>
    rw [and_iff_right steady.1, and_iff_right steady.2]
    cases foundFormat m <;> simp
  next unsteady => simp only [reduceCtorEq, false_iff]; exact fun h => unsteady ⟨h.1, h.2.1⟩

theorem found_eq_some_iff {m : FrameMeasure} {f : Format} : foundFormat m = some f ↔
    ((m.width = 1280 ∧ m.height = 720 ∧ (f = .f720p50 ∨ f = .f720p60)) ∨
      (m.width = 1920 ∧ m.height = 1080 ∧ (f = .f1080p50 ∨ f = .f1080p60))) ∧
    (if f = .f720p50 ∨ f = .f1080p50 then 1960 ≤ m.period ∧ m.period ≤ 2040
      else 1640 ≤ m.period ∧ m.period ≤ 1700) := by
  rw [foundFormat]
  simp only [Bool.and_eq_true, decide_eq_true_iff]
  split
  next fifty =>
    have notSixty : ¬ (1640 ≤ m.period ∧ m.period ≤ 1700) := by omega
    rw [formatOf_eq_some_iff]
    cases f <;> simp [fifty, notSixty]
  next notFifty =>
    split
    next sixty =>
      rw [formatOf_eq_some_iff]
      cases f <;> simp [sixty, notFifty]
    next notSixty => cases f <;> simp [notFifty, notSixty]

/-! ## Path changes (R144, R146, R147) -/

theorem testWaking_power (s : State) : s.testWaking.video = { s.video with
    power := if s.video.power = .waking ∧ s.font.store ≠ .scanning ∧ s.video.path ≠ .changeover then
      .active else s.video.power } := by
  by_cases scanning : s.font.store = .scanning
  · have still : s.testWaking = s := by
      rw [State.testWaking]
      exact if_neg (by simp [scanning])
    rw [still, if_neg fun h => h.2.1 scanning]
  · rw [testWaking_video scanning]
    simp only [scanning, ne_eq, not_false_eq_true, true_and]

theorem setPath_video (s : State) (p : PathState) (format : Option Format) :
    (s.setPath p format).video = { s.video with
      path := p
      power := if s.video.power = .waking ∧ s.font.store ≠ .scanning ∧ p ≠ .changeover then .active
        else s.video.power } := by
  rw [State.setPath, testWaking_power]
  have touches := raise_touches { s with video := { s.video with path := p } } playbackConsole
    (.videoState p format)
  rw [touches .video (by decide), touches .font (by decide)]

theorem setPath_shows (s : State) (p : PathState) (format : Option Format) {q : Port}
    (mem : q ∈ playbackConsole) : (s.setPath p format).shows q (.videoState p format) := by
  rw [State.setPath, State.shows, testWaking_touches _ .notices (by decide) q]
  exact raise_shows _ _ _ q mem

theorem followNext_video (s : State) : s.followNext.video = { s.video with
    output := if s.video.output = .freeRunning then .toFollow else s.video.output } := by
  rw [State.followNext]
  split <;> rfl

theorem relayout_canvas (s : State) (f : LineScheduler → LineScheduler) :
    (s.relayout f).lines.canvas = (f s.lines).canvas := by
  obtain ⟨title, rows, hinted, retitled⟩ := retitle_lines
    (if (s.mapLines f).lines.layout.rows = s.lines.layout.rows then s.mapLines f
      else (s.mapLines f).requestRebuild)
  have kept : (s.relayout f).lines = _ := retitled
  rw [kept]
  split
  · rfl
  · rw [requestRebuild_lines]
    rfl

/-- The entry into LOCKED. -/
theorem lockAt_video (s : State) (f : Format) : (s.lockAt f).video = { s.video with
    locked := some f, freeRun := f, path := .locked
    power := if s.video.power = .waking ∧ s.font.store ≠ .scanning then .active else s.video.power
    output := if s.video.output = .freeRunning then .toFollow else s.video.output } := by
  rw [State.lockAt, followNext_video, setPath_video]
  have touches := relayout_touches
    { s with video := { s.video with locked := some f, freeRun := f } } fun l =>
      { l with canvas := f.canvas }
  rw [touches .video (by decide), touches .font (by decide)]
  simp

/-! ## What the path makes of a measurement (R144) -/

/-- The measurement is one the path stays at. -/
def State.staysAt (s : State) (c : FrameClass) : Prop :=
  (s.video.path = .locked ∧ ∀ f, s.video.locked = some f → c = .supported f) ∨
    (s.video.path ≠ .locked ∧ s.video.runCount < 2) ∨
    (s.video.path = .unsupported ∧ c = .unsupported)

theorem actOnRun_of_stays {s : State} {c : FrameClass} (stays : s.staysAt c) : s.actOnRun c = s := by
  unfold State.actOnRun
  rcases stays with ⟨path, same⟩ | ⟨path, few⟩ | ⟨path, rfl⟩
  · rw [path]
    simp only
    split
    next f locked => exact if_pos (same f locked)
    next => rfl
  · cases h : s.video.path with
    | locked => exact absurd h path
    | noInput | changeover | unsupported => exact if_pos few
  · rw [path]
    simp only
    split
    · rfl
    · exact if_pos trivial

theorem actOnRun_of_other {s : State} {c : FrameClass} {f : Format} (path : s.video.path = .locked)
    (locked : s.video.locked = some f) (other : c ≠ .supported f) :
    s.actOnRun c = s.setPath .changeover none := by
  unfold State.actOnRun
  rw [path]
  simp only
  rw [locked]
  exact if_neg other

theorem actOnRun_of_supported {s : State} {f : Format} (path : s.video.path ≠ .locked)
    (run : ¬ s.video.runCount < 2) : s.actOnRun (.supported f) = s.lockAt f := by
  unfold State.actOnRun
  cases h : s.video.path with
  | locked => exact absurd h path
  | noInput | changeover | unsupported => exact if_neg run

theorem actOnRun_of_unsupported {s : State}
    (path : s.video.path = .noInput ∨ s.video.path = .changeover) (run : ¬ s.video.runCount < 2) :
    s.actOnRun .unsupported = (s.setPath .unsupported none).followNext := by
  unfold State.actOnRun
  rcases path with h | h <;> rw [h] <;> exact (if_neg run).trans (if_neg nofun)

/-- The state with an input frame measured, before the path acts on it. -/
def State.measured (s : State) (c : FrameClass) : State :=
  { s with video := { s.video with
    inputQuiet := 0, frameUnderWay := true
    output := if s.video.output = .toFollow then .following else s.video.output
    runClass := some c
    runCount := if s.video.runClass = some c then min 2 (s.video.runCount + 1) else 1 } }

theorem completesFrame_iff {v : Compositor} : v.completesFrame = true ↔
    v.frameUnderWay = true ∧ ¬ (v.path = .noInput ∧ 100 ≤ v.inputQuiet) := by
  simp only [Compositor.completesFrame, Bool.and_eq_true, Bool.not_eq_true', ← Bool.not_eq_true,
    decide_eq_true_iff]

/-- The output is to follow the input, where it ran free. -/
theorem following_of_freeRunning {s : State} {c : FrameClass} (free : s.video.output = .freeRunning) :
    (if (s.measured c).video.output = .freeRunning then OutputTiming.toFollow
      else (s.measured c).video.output) = .toFollow := by
  have still : (s.measured c).video.output = .freeRunning := by
    change (if s.video.output = .toFollow then OutputTiming.following else s.video.output) = _
    rw [free]
    rfl
  exact if_pos still

theorem lockAt_canvas (s : State) (f : Format) : (s.lockAt f).lines.canvas = f.canvas := by
  rw [State.lockAt, followNext_touches _ .lines (by decide),
    setPath_touches _ _ _ .lines (by decide), relayout_canvas]

theorem loseInput_video (s : State) : s.loseInput.video = { s.video with
    path := .noInput, runClass := none, runCount := 0, output := .freeRunning
    frameUnderWay := false
    power := if s.video.power = .waking ∧ s.font.store ≠ .scanning then .active
      else s.video.power } := by
  rw [State.loseInput, setPath_video]
  simp

/-- Settles O48: the path's four moves at a measurement, each by the state it leaves. -/
theorem videoPathFollowsTheInput : Obligations.VideoPathFollowsTheInput := by
  refine ⟨⟨fun m f => ?classes, fun s m incomplete => ?first⟩, fun s m under measured => ?measured,
    fun s path late => ?lost⟩
  case classes => rw [classify_eq_supported_iff, found_eq_some_iff]
  case first =>
    have none_ : ¬ s.video.completesFrame = true := by
      rw [completesFrame_iff]
      rintro ⟨under, counted⟩
      rcases incomplete with h | h
      · rw [h] at under; cases under
      · exact counted h
    change Host.Outcome.next (s.inputFrame m) = _
    rw [State.inputFrame, if_neg none_]
  case measured =>
    intro c run path
    have complete : s.video.completesFrame = true := completesFrame_iff.mpr ⟨under, measured⟩
    have taken : s.inputFrame m = (s.measured c).actOnRun c := by
      rw [State.inputFrame, if_pos complete]
      rfl
    have touches := inputFrame_touches s m
    refine ⟨s.inputFrame m, rfl, touches.mono rfl, ?_⟩
    rw [taken] at touches ⊢
    clear_value c
    have atMost : run ≤ 2 := by
      unfold run
      split <;> omega
    by_cases stays : (s.measured c).staysAt c
    · rw [actOnRun_of_stays stays]
      have not_run : path ≠ .locked → run = 2 → path = .unsupported ∧ c = .unsupported := by
        intro unlocked two
        rcases stays with ⟨h, -⟩ | ⟨-, few⟩ | h
        · exact absurd h unlocked
        · exact absurd two (Nat.ne_of_lt few)
        · exact h
      refine ⟨rfl, rfl, rfl, rfl, (if_neg fun h => h.1 rfl).symm, fun f unlocked two supported => ?_,
        fun from_ two unsupported => ?_, fun f locked was other => ?_, fun _ => ⟨rfl, rfl, ?_⟩⟩
      · obtain ⟨-, h⟩ := not_run unlocked two
        rw [supported] at h
        cases h
      · obtain ⟨h, -⟩ := not_run (by rcases from_ with h | h <;> rw [h] <;> nofun) two
        rcases from_ with h' | h' <;> cases h'.symm.trans h
      · rcases stays with ⟨-, same⟩ | ⟨unlocked, -⟩ | ⟨h, -⟩
        · exact absurd (same f was) other
        · exact absurd locked unlocked
        · cases locked.symm.trans h
      · exact video_touches s _
    have kept : (s.measured c).video.path = path := rfl
    obtain ⟨sameFormat, enough, unchanged⟩ : (path = .locked →
        ¬ ∀ f, s.video.locked = some f → c = .supported f) ∧ (path ≠ .locked → run = 2) ∧
        ¬ (path = .unsupported ∧ c = .unsupported) := by
      refine ⟨fun h same => stays (.inl ⟨h, same⟩), fun h => ?_, fun h => stays (.inr (.inr h))⟩
      exact Nat.le_antisymm atMost (Nat.not_lt.mp fun few => stays (.inr (.inl ⟨h, few⟩)))
    have not_still : ¬ ((path ≠ .locked ∧ run < 2) ∨ (path = .unsupported ∧ c = .unsupported) ∨
        ∃ f, path = .locked ∧ s.video.locked = some f ∧ c = .supported f) := by
      rintro (⟨h, few⟩ | h | ⟨f, h, was, same⟩)
      · exact absurd (enough h) (Nat.ne_of_lt few)
      · exact unchanged h
      · refine sameFormat h fun g again => ?_
        rw [← Option.some.inj (was.symm.trans again)]
        exact same
    by_cases locked : path = .locked
    · obtain ⟨f, was, other⟩ : ∃ f, s.video.locked = some f ∧ c ≠ .supported f := by
        simpa using sameFormat locked
      rw [actOnRun_of_other (s := s.measured c) locked was other]
      have video := setPath_video (s.measured c) .changeover none
      rw [video]
      refine ⟨rfl, rfl, rfl, rfl, ?_, fun g unlocked => absurd locked unlocked,
        fun from_ => ?_, fun g _ was' _ => ⟨rfl, ?_, setPath_shows _ _ _ (by decide),
          setPath_shows _ _ _ (by decide)⟩, fun still => absurd still not_still⟩
      · exact (if_neg fun h => h.2.2 rfl).trans (if_neg fun h => h.2.1 rfl).symm
      · rcases from_ with h | h <;> cases locked.symm.trans h
      · exact was'
    have run2 : ¬ (s.measured c).video.runCount < 2 := Nat.not_lt.mpr (enough locked).ge
    have to_active : ∀ {q : PathState}, path ≠ q → q ≠ .changeover →
        ((s.video.power = .waking ∧ s.font.store ≠ .scanning) ↔
          (q ≠ path ∧ q ≠ .changeover ∧ s.font.store ≠ .scanning ∧ s.video.power = .waking)) :=
      fun new steady => ⟨fun h => ⟨new.symm, steady, h.2, h.1⟩, fun h => ⟨h.2.2.2, h.2.2.1⟩⟩
    cases c with
    | supported f =>
      rw [actOnRun_of_supported (s := s.measured _) locked run2]
      have shown : ∀ q ∈ playbackConsole, ((s.measured (.supported f)).lockAt f).shows q
          (.videoState .locked (some f)) := fun q mem => by
        rw [State.lockAt, State.shows, followNext_touches _ .notices (by decide) q]
        exact setPath_shows _ _ _ mem
      rw [lockAt_video]
      refine ⟨rfl, rfl, rfl, rfl, if_congr (to_active locked nofun) rfl rfl,
        fun g _ _ same => ?_, fun _ _ other => (nomatch other), fun g h => absurd h locked,
        fun still => absurd still not_still⟩
      obtain rfl := FrameClass.supported.inj same
      refine ⟨rfl, rfl, rfl, ?_, following_of_freeRunning, shown _ (by decide), shown _ (by decide)⟩
      rw [lockAt_canvas]
      cases f <;> rfl
    | unsupported =>
      have from_ : path = .noInput ∨ path = .changeover := by
        cases h : path with
        | noInput => exact .inl rfl
        | changeover => exact .inr rfl
        | locked => exact absurd h locked
        | unsupported => exact absurd ⟨h, rfl⟩ unchanged
      have new : path ≠ .unsupported := by rcases from_ with h | h <;> rw [h] <;> nofun
      have shown : ∀ q ∈ playbackConsole,
          ((s.measured .unsupported).setPath .unsupported none).followNext.shows q
            (.videoState .unsupported none) := fun q mem => by
        rw [State.shows, followNext_touches _ .notices (by decide) q]
        exact setPath_shows _ _ _ mem
      rw [actOnRun_of_unsupported (s := s.measured _) from_ run2, followNext_video, setPath_video]
      refine ⟨rfl, rfl, rfl, rfl, ?_, fun g _ _ other => (nomatch other),
        fun _ _ _ => ⟨rfl, following_of_freeRunning (c := .unsupported), shown _ (by decide), shown _ (by decide)⟩,
        fun g h => absurd h locked, fun still => absurd still not_still⟩
      refine if_congr ?_ rfl rfl
      exact ⟨fun h => (to_active new nofun).mp ⟨h.1, h.2.1⟩, fun h => ⟨h.2.2.2, h.2.2.1, nofun⟩⟩
  case lost =>
    have lost : s.missInput = s.loseInput := by
      rw [State.missInput]
      exact if_pos (by simp [path, late])
    have run : exec .inputLossTimeout s = .next s.loseInput := by
      change Host.Outcome.next s.missInput = _
      rw [lost]
    exact ⟨_, run, loseInput_touches s, loseInput_video s, setPath_shows _ _ _ (by decide),
      setPath_shows _ _ _ (by decide)⟩

end Sys2Proof.Machine
end

section
/-! The audio state and the samples (R159; O51). -/

namespace Sys2Proof.Machine

/-- The top 16 bits of a word, as a signed number. -/
theorem topBits_toInt (w : BitVec 24) : (w.extractLsb' 8 16).toInt = w.toInt / 256 := by
  have lt := w.isLt
  rw [BitVec.toInt_eq_toNat_cond, BitVec.toInt_eq_toNat_cond, BitVec.extractLsb'_toNat,
    Nat.shiftRight_eq_div_pow]
  split <;> split <;> omega

/-- A frame not yet full is left to grow. -/
theorem settleFrame_of_short {s : State} (short : s.voice.frame.length < 960) : s.settleFrame = s :=
  if_neg fun full => Nat.not_le.mpr short (of_decide_eq_true full)

/-- Without a tone check the samples enter as they are. -/
theorem takeSamples_of_no_tone {s : State} (short : s.voice.frame.length < 960)
    (none_ : s.voice.tone = none) (x : Samples) :
    s.takeSamples x = { s with voice := { s.voice with quiet := 0, frame := s.voice.frame ++ [x] } } := by
  have begun : ({ s with voice := { s.voice with quiet := 0 } } : State).beginTone =
      { s with voice := { s.voice with quiet := 0 } } := by
    rw [State.beginTone]
    simp only [none_]
  rw [State.takeSamples, settleFrame_of_short short]
  simp only
  rw [begun, State.enterSamples]
  simp only [none_]

theorem setAudio_shows (s : State) (a : AudioState) : (s.setAudio a).shows .console (.audioState a) :=
  raise_shows _ _ _ _ (by decide)

theorem setAudio_elsewhere (s : State) (a : AudioState) {q : Port} (h : q ≠ .console) :
    (s.setAudio a).port q = s.port q := raise_elsewhere _ _ _ h

theorem abortTone_of_none {s : State} (none_ : s.voice.tone = none) : s.abortTone = s := by
  rw [State.abortTone, none_]

theorem keeps_abortTone {c : Fin 16} (s : State) (h : c ≠ 15) :
    Keeps c s s.abortTone := by
  cases tone : s.voice.tone with
  | none =>
    rw [abortTone_of_none tone]
    exact fun _ => rfl
  | some t =>
    rw [State.abortTone, tone]
    exact keeps_raise _ _ _ h

/-- What the loss of the audio makes, no frame being full. -/
theorem loseAudio_of_short {s : State} (short : s.voice.frame.length < 960) :
    s.loseAudio =
      (({ s with voice := { s.voice with frame := [] } } : State).setAudio .lost).abortTone := by
  rw [State.loseAudio, settleFrame_of_short short]

/-- What the first word clock edge in LOST makes. -/
theorem restoreAudio_of_no_tone {s : State} (none_ : s.voice.tone = none) (x : Samples) :
    let t := ({ s with voice := { s.voice with quiet := 0, frame := [] } } : State).setAudio .present
    s.restoreAudio x = { t with voice := { s.voice with audio := .present, quiet := 0, frame := [x] } } := by
  intro t
  have voice : t.voice = { s.voice with audio := .present, quiet := 0, frame := [] } := setAudio_voice _ _
  change t.takeSamples x = _
  rw [takeSamples_of_no_tone (by rw [voice]; exact Nat.succ_pos 959) (by rw [voice]; exact none_), voice]
  rfl

/-- Settles O51: the loss, the restoration and an edge in PRESENT, each by the state it leaves. -/
theorem audioStateFollowsTheWordClock : Obligations.AudioStateFollowsTheWordClock := by
  refine fun s short => ⟨fun present quiet => ?lost, fun w none_ => ⟨TdmWords.samples w,
    topBits_toInt _, topBits_toInt _, topBits_toInt _, topBits_toInt _, fun lost i which => ?restored,
    fun present => ?edge⟩⟩
  case lost =>
    have missed : s.missAudio = s.loseAudio := by
      rw [State.missAudio]
      exact if_pos (by simp [present, quiet])
    have run : exec .audioLossTimeout s = .next s.loseAudio := congrArg Host.Outcome.next missed
    refine ⟨_, run, ?_⟩
    rw [loseAudio_of_short short]
    generalize hw : ({ s with voice := { s.voice with frame := [] } } : State).setAudio .lost = w
    have voice : w.voice = { s.voice with audio := .lost, frame := [] } := by
      rw [← hw]; exact setAudio_voice _ _
    have shown : w.shows .console (.audioState .lost) := hw ▸ setAudio_shows _ _
    have elsewhere : ∀ q : Port, q ≠ .console → w.port q = s.port q := fun q h => by
      rw [← hw]; exact setAudio_elsewhere _ _ h
    have touches : Touches [.voice, .notices] s w := by
      rw [← hw]
      exact ((voice_touches s _).mono rfl).trans (setAudio_touches _ _)
    have tone : w.voice.tone = s.voice.tone := by rw [voice]
    refine ⟨touches.trans (abortTone_touches w), ?_,
      (keeps_abortTone w (by decide)).shows rfl shown, fun t running => ?_, fun none_ q h => ?_⟩
    · cases running : s.voice.tone with
      | none => rw [abortTone_of_none (tone.trans running), voice]; simp [running]
      | some t =>
        rw [State.abortTone, tone, running]
        simp only
        rw [endTone_voice, voice]
        rfl
    · obtain ⟨-, done⟩ := abortTone_of_running (tone.trans running)
      exact ⟨done _ (by decide), done _ (by decide)⟩
    · rw [abortTone_of_none (tone.trans none_)]
      exact elsewhere q h
  case restored =>
    have run : exec i s = .next (s.restoreAudio (TdmWords.samples w)) := by
      rcases which with rfl | rfl
      · exact if_pos lost
      · change execTdmFrame w s = _
        rw [execTdmFrame, lost]
    refine ⟨_, run, ?_⟩
    rw [restoreAudio_of_no_tone none_]
    refine ⟨?_, rfl, setAudio_shows _ _, fun q h => setAudio_elsewhere _ _ h⟩
    exact (((voice_touches s _).mono rfl).trans (setAudio_touches _ _)).trans
      ((voice_touches _ _).mono rfl)
  case edge =>
    have run : exec (.tdmFrame w) s = .next (s.takeSamples (TdmWords.samples w)) := by
      change execTdmFrame w s = _
      rw [execTdmFrame, present]
    refine ⟨_, run, ?_⟩
    rw [takeSamples_of_no_tone short none_]
    exact ⟨voice_touches s _, rfl⟩

end Sys2Proof.Machine
end

section
/-! Detection: the pitch of a period and the crossings of a frame (R160 to R162; O52). -/

namespace Sys2Proof.Machine

/-! ## The logarithm of a period (R162) -/

/-- The logarithm of a quotient, taken of the quotient scaled by a power of 2 and rounded down. -/
theorem log2_scaled {a b s : Nat} (hb : 0 < b) (large : b ≤ a * 2 ^ s) :
    let k : Int := (Nat.log2 (a * 2 ^ s / b) : Int) - s
    (2 : ℚ) ^ k ≤ a / b ∧ (a : ℚ) / b < (2 : ℚ) ^ (k + 1) := by
  intro k
  have hb' : (0 : ℚ) < b := by exact_mod_cast hb
  have positive : a * 2 ^ s / b ≠ 0 := (Nat.div_pos large hb).ne'
  obtain ⟨least, most⟩ : 2 ^ Nat.log2 (a * 2 ^ s / b) ≤ a * 2 ^ s / b ∧
      a * 2 ^ s / b < 2 ^ (Nat.log2 (a * 2 ^ s / b) + 1) :=
    ⟨Nat.log2_self_le positive, Nat.lt_log2_self⟩
  rw [Nat.le_div_iff_mul_le hb] at least
  rw [Nat.div_lt_iff_lt_mul hb] at most
  have two : (2 : ℚ) ≠ 0 := two_ne_zero
  have scale : (0 : ℚ) < 2 ^ s := pow_pos two_pos s
  constructor
  · rw [zpow_sub₀ two, zpow_natCast, zpow_natCast, div_le_div_iff₀ scale hb']
    exact_mod_cast least
  · have up : k + 1 = ((Nat.log2 (a * 2 ^ s / b) + 1 : Nat) : Int) - s := by push_cast; omega
    rw [up, zpow_sub₀ two, zpow_natCast, zpow_natCast, div_lt_div_iff₀ hb' scale]
    exact_mod_cast most

/-- The 192nd power of a period's frequency over 440 Hz. -/
def frequencyPower (t : Nat) : ℚ := (19200 / (11 * (t : ℚ))) ^ 192

theorem frequencyPower_eq (t : Nat) :
    frequencyPower t = ((19200 ^ 192 : Nat) : ℚ) / (((11 * t) ^ 192 : Nat) : ℚ) := by
  rw [frequencyPower, div_pow]
  push_cast
  rfl

/-- Powers of 2 on either side of every power that a period in range makes. -/
theorem frequencyPower_bounds {t : Nat} (least : 699 ≤ t) (most : t ≤ 10971) :
    (2 : ℚ) ^ (-510 : Int) ≤ frequencyPower t ∧ frequencyPower t < (2 : ℚ) ^ (254 : Int) := by
  have t0 : (0 : ℚ) < 11 * t := by
    have : 0 < t := by omega
    positivity
  have low : (19200 / 120681 : ℚ) ≤ 19200 / (11 * t) := by
    have : (t : ℚ) ≤ 10971 := by exact_mod_cast most
    exact div_le_div_of_nonneg_left (by norm_num) t0 (by linarith)
  have high : (19200 / (11 * t) : ℚ) ≤ 19200 / 7689 := by
    have : (699 : ℚ) ≤ t := by exact_mod_cast least
    exact div_le_div_of_nonneg_left (by norm_num) (by norm_num) (by linarith)
  constructor
  · refine le_trans ?_ (pow_le_pow_left₀ (by norm_num) low 192)
    have half : (2 : ℚ) ^ (-510 : Int) = ((2 : ℚ) ^ 255)⁻¹ ^ 2 := by
      rw [inv_pow, ← pow_mul]; rfl
    rw [half]
    norm_num
  · refine lt_of_le_of_lt (pow_le_pow_left₀ (by positivity) high 192) ?_
    norm_num

theorem pitchOf_eq (t : Nat) : ∃ k : Int, pitchOf t = 552 + (k + 1) / 2 ∧
    (699 ≤ t → t ≤ 10971 → (2 : ℚ) ^ k ≤ frequencyPower t ∧ frequencyPower t < (2 : ℚ) ^ (k + 1)) := by
  refine ⟨(Nat.log2 (19200 ^ 192 * 2 ^ 1024 / (11 * t) ^ 192) : Int) - 1024, rfl,
    fun least most => ?_⟩
  have scaled : ∀ {x m n : Nat}, m ≤ n → x * 2 ^ m ≤ x * 2 ^ n := fun h =>
    Nat.mul_le_mul_left _ (Nat.pow_le_pow_right Nat.two_pos h)
  have large : (11 * t) ^ 192 ≤ 19200 ^ 192 * 2 ^ 1024 := by
    have room : 120681 ^ 192 ≤ 19200 ^ 192 * (2 ^ 255) ^ 2 := by norm_num
    calc (11 * t) ^ 192 ≤ 120681 ^ 192 := Nat.pow_le_pow_left (by omega) 192
      _ ≤ 19200 ^ 192 * (2 ^ 255) ^ 2 := room
      _ ≤ 19200 ^ 192 * 2 ^ 1024 := by
        rw [← pow_mul]
        have exponent : 255 * 2 ≤ 1024 := by decide
        exact scaled exponent
  rw [frequencyPower_eq]
  exact log2_scaled (s := 1024) (Nat.pow_pos (by omega)) large

/-- The pitch is the rounded logarithm, in its range. -/
theorem pitchOf_bounds {t : Nat} (least : 699 ≤ t) (most : t ≤ 10971) :
    let q := pitchOf t - 552
    (2 : ℚ) ^ (2 * q - 1) ≤ frequencyPower t ∧ frequencyPower t < (2 : ℚ) ^ (2 * q + 1) ∧
      297 ≤ pitchOf t ∧ pitchOf t ≤ 679 := by
  intro q
  obtain ⟨k, pitch, power⟩ := pitchOf_eq t
  obtain ⟨below, above⟩ := power least most
  obtain ⟨low, high⟩ := frequencyPower_bounds least most
  have two : (1 : ℚ) < 2 := one_lt_two
  have lowK : -510 < k + 1 := (zpow_lt_zpow_iff_right₀ two).mp (low.trans_lt above)
  have highK : k < 254 := (zpow_lt_zpow_iff_right₀ two).mp (below.trans_lt high)
  have hq : q = (k + 1) / 2 := by unfold q; omega
  refine ⟨le_trans (zpow_le_zpow_right₀ two.le ?_) below,
    lt_of_lt_of_le above (zpow_le_zpow_right₀ two.le ?_), ?_, ?_⟩ <;> omega

/-! ## The crossings of a frame (R161) -/

theorem crossings_append (threshold : Int) (xs : List Int) (x : Int) (i : Nat) (d : Detector) :
    crossings threshold i d (xs ++ [x]) =
      (crossings threshold i d xs).feed threshold x (i + xs.length) := by
  induction xs generalizing i d with
  | nil => rfl
  | cons y xs ih =>
    rw [List.cons_append, crossings, ih, crossings, List.length_cons, Nat.add_right_comm, Nat.add_assoc]

/-- The detector before its first sample. -/
def Detector.start : Detector := { armed := false, count := 0, first := 0, last := 0 }

/-- A sample at or below the negative threshold, and one at or above the positive. -/
def LowAt (threshold : Int) (xs : List Int) (i : Nat) : Prop := i < xs.length ∧ xs.getD i 0 ≤ -threshold

def HighAt (threshold : Int) (xs : List Int) (i : Nat) : Prop := i < xs.length ∧ threshold ≤ xs.getD i 0

/-- The sample behind the crossings before the nth. -/
def afterCrossing (found : List (Nat × Nat)) (n : Nat) : Nat :=
  (((found.take n).getLast?).map fun x => x.2 + 1).getD 0

theorem afterCrossing_append {found : List (Nat × Nat)} {n : Nat} (x : Nat × Nat)
    (h : n ≤ found.length) : afterCrossing (found ++ [x]) n = afterCrossing found n := by
  rw [afterCrossing, List.take_append_of_le_length h, afterCrossing]

theorem afterCrossing_last (found : List (Nat × Nat)) (x : Nat × Nat) :
    afterCrossing (found ++ [x]) (found ++ [x]).length = x.2 + 1 := by
  rw [afterCrossing, List.take_length, List.getLast?_concat]
  rfl

/-- A crossing with the sample that armed it, the first of each behind the crossings before. -/
def IsCrossing (threshold : Int) (xs : List Int) (after armed crossing : Nat) : Prop :=
  after ≤ armed ∧ LowAt threshold xs armed ∧
    (∀ i, after ≤ i → i < armed → ¬ LowAt threshold xs i) ∧ armed < crossing ∧
    HighAt threshold xs crossing ∧ ∀ i, armed < i → i < crossing → ¬ HighAt threshold xs i

/-- What the detector has found in the first n samples. -/
structure DetectorState (threshold : Int) (xs : List Int) (n : Nat) (d : Detector)
    (found : List (Nat × Nat)) : Prop where
  crossings : ∀ k armed crossing, found[k]? = some (armed, crossing) →
    IsCrossing threshold xs (afterCrossing found k) armed crossing
  behind : afterCrossing found found.length ≤ n
  unarmed : d.armed = false →
    ∀ i, afterCrossing found found.length ≤ i → i < n → ¬ LowAt threshold xs i
  armed : d.armed = true → ∃ a, afterCrossing found found.length ≤ a ∧ a < n ∧
    LowAt threshold xs a ∧ (∀ i, afterCrossing found found.length ≤ i → i < a →
      ¬ LowAt threshold xs i) ∧ ∀ i, a < i → i < n → ¬ HighAt threshold xs i
  count : d.count = found.length
  first : d.first = ((found.head?).map (·.2)).getD 0
  last : d.last = ((found.getLast?).map (·.2)).getD 0

theorem detectorState_start (threshold : Int) (xs : List Int) :
    DetectorState threshold xs 0 Detector.start [] where
  crossings := by simp
  behind := Nat.le_refl 0
  unarmed := fun _ i _ h => absurd h (Nat.not_lt_zero i)
  armed := nofun
  count := rfl
  first := rfl
  last := rfl

/-- One more sample. -/
theorem DetectorState.feed {threshold : Int} {xs : List Int} {n : Nat} {d : Detector}
    {found : List (Nat × Nat)} (h : DetectorState threshold xs n d found) (hn : n < xs.length) :
    ∃ found', DetectorState threshold xs (n + 1) (d.feed threshold (xs.getD n 0) n) found' := by
  have extend : ∀ {P : Nat → Prop} {m : Nat}, (∀ i, m ≤ i → i < n → ¬ P i) → ¬ P n →
      ∀ i, m ≤ i → i < n + 1 → ¬ P i := fun before here i least lt => by
    rcases Nat.lt_succ_iff_lt_or_eq.mp lt with lt | rfl
    · exact before i least lt
    · exact here
  cases armed : d.armed with
  | false =>
    by_cases low : xs.getD n 0 ≤ -threshold
    · have fed : d.feed threshold (xs.getD n 0) n = { d with armed := true } := by
        rw [Detector.feed, armed]
        exact if_pos low
      rw [fed]
      exact ⟨found, { h with
        behind := h.behind.trans (Nat.le_succ n)
        unarmed := nofun
        armed := fun _ => ⟨n, h.behind, Nat.lt_succ_self n, ⟨hn, low⟩, h.unarmed armed,
          fun i above lt => by omega⟩ }⟩
    · have fed : d.feed threshold (xs.getD n 0) n = d := by
        rw [Detector.feed, armed]
        exact if_neg low
      rw [fed]
      exact ⟨found, { h with
        behind := h.behind.trans (Nat.le_succ n)
        unarmed := fun _ => extend (h.unarmed armed) fun l => low l.2
        armed := fun a => by rw [armed] at a; cases a }⟩
  | true =>
    obtain ⟨a, after, before, low, first, still⟩ := h.armed armed
    by_cases high : threshold ≤ xs.getD n 0
    · have fed : d.feed threshold (xs.getD n 0) n =
          { armed := false, count := d.count + 1, first := if d.count = 0 then n else d.first
            last := n } := by
        rw [Detector.feed, armed]
        exact if_pos high
      rw [fed]
      refine ⟨found ++ [(a, n)], ?_, ?_, fun _ i least lt => ?_, nofun, ?_, ?_, ?_⟩
      · intro k armed' crossing at_
        rcases Nat.lt_or_ge k found.length with lt | ge
        · rw [List.getElem?_append_left lt] at at_
          rw [afterCrossing_append _ lt.le]
          exact h.crossings k armed' crossing at_
        · rw [List.getElem?_append_right ge, List.getElem?_singleton] at at_
          split at at_
          next zero =>
            obtain ⟨rfl, rfl⟩ := Prod.mk.inj (Option.some.inj at_)
            obtain rfl : k = found.length := by omega
            rw [afterCrossing_append _ le_rfl]
            exact ⟨after, low, first, before, ⟨hn, high⟩, still⟩
          next => cases at_
      · rw [afterCrossing_last]
      · rw [afterCrossing_last] at least
        omega
      · rw [List.length_append, ← h.count]
        rfl
      · cases found with
        | nil => simp [h.count]
        | cons x found => simp [h.count, h.first]
      · rw [List.getLast?_concat]
        rfl
    · have fed : d.feed threshold (xs.getD n 0) n = d := by
        rw [Detector.feed, armed]
        exact if_neg high
      rw [fed]
      exact ⟨found, { h with
        behind := h.behind.trans (Nat.le_succ n)
        unarmed := fun u => by rw [armed] at u; cases u
        armed := fun _ => ⟨a, after, before.trans (Nat.lt_succ_self n), low, first, fun i above =>
          extend (m := a + 1) (fun i above => still i above) (fun hi => high hi.2) i above⟩ }⟩

theorem detectorState_take (threshold : Int) (xs : List Int) {n : Nat} (hn : n ≤ xs.length) :
    ∃ found, DetectorState threshold xs n (crossings threshold 0 Detector.start (xs.take n)) found := by
  induction n with
  | zero => exact ⟨[], detectorState_start threshold xs⟩
  | succ n ih =>
    obtain ⟨found, state⟩ := ih (Nat.le_of_succ_le hn)
    have more : xs.take (n + 1) = xs.take n ++ [xs.getD n 0] := by
      rw [List.take_succ_eq_append_getElem hn, List.getD_eq_getElem _ _ hn]
    rw [more, crossings_append, List.length_take_of_le (Nat.le_of_succ_le hn), Nat.zero_add]
    exact state.feed hn

/-- The pitch that the crossings of a frame give. -/
def Detector.pitch (d : Detector) : Option Int :=
  if d.count < 2 then none
  else
    let t := period16 (d.last - d.first) d.count
    if t < 699 || 10971 < t then none else some (pitchOf t)

theorem detect_eq (gate : Nat) (xs : List Int) : detect gate xs = if level xs < gate then none
    else (crossings ((gate / 2 : Nat) : Int) 0 Detector.start xs).pitch := rfl

theorem detector_pitch_eq {d : Detector} {c first last : Nat} (hc : d.count = c) (hf : d.first = first)
    (hl : d.last = last) :
    let t16 := (32 * (last - first) + (c - 1)) / (2 * (c - 1))
    d.pitch = if c < 2 ∨ t16 < 699 ∨ 10971 < t16 then none else some (pitchOf t16) := by
  intro t16
  have period : period16 (d.last - d.first) d.count = t16 := by rw [hc, hf, hl]; rfl
  rw [Detector.pitch, period, hc]
  by_cases few : c < 2
  · rw [if_pos few, if_pos (.inl few)]
  · rw [if_neg few]
    refine if_congr ?_ rfl rfl
    rw [or_iff_right few, Bool.or_eq_true, decide_eq_true_iff, decide_eq_true_iff]

/-- Settles O52: the pitch by the logarithm's bounds, the crossings sample by sample. -/
theorem pitchIsExact : Obligations.PitchIsExact := by
  refine ⟨fun t least most => pitchOf_bounds least most, fun gate xs => ?_⟩
  intro threshold low high
  obtain ⟨found, state⟩ := detectorState_take threshold xs le_rfl
  rw [List.take_length] at state
  refine ⟨found, state.crossings, fun i j behind lowAt lt highAt => ?_, ?_⟩
  · have there := lowAt.1
    cases armed : (crossings threshold 0 Detector.start xs).armed with
    | false => exact state.unarmed armed i behind lowAt.1 lowAt
    | true =>
      obtain ⟨a, -, -, -, first, still⟩ := state.armed armed
      refine still j (lt_of_le_of_lt (Nat.not_lt.mp fun early => ?_) lt) highAt.1 highAt
      exact first i behind early lowAt
  · intro c first last t16
    rw [detect_eq, detector_pitch_eq state.count state.first state.last]
    by_cases quiet : level xs < gate
    · rw [if_pos quiet, if_pos (.inl quiet)]
    · rw [if_neg quiet]
      exact if_congr (or_iff_right quiet).symm rfl rfl

end Sys2Proof.Machine
end

section
/-! The completion of the voice frames, channel by channel (R160 to R165, R168 to R170; O53). -/

namespace Sys2Proof.Machine

/-! ## The whole completion, seen from one channel -/

/-- The pitch of a channel's frame. -/
def State.framePitch (s : State) (m : Fin 4) : Option Int :=
  detect s.voice.scoring.gate (s.voice.frame.map fun x => x[m].toInt)

/-- The state with every channel's frame complete, before the tone check counts it. -/
def State.framed (s : State) : State :=
  micNumbers.foldl (fun t m => t.completeChannel m (s.framePitch m))
    { s with voice := { s.voice with frame := [] } }

/-- The pitches of the frame, channel by channel. -/
def State.framePitches (s : State) : Vector (Option Int) 4 := Vector.ofFn s.framePitch

theorem completeFrame_eq (s : State) : s.completeFrame = s.framed.countToneFrame s.framePitches := by
  have same : ∀ m : Fin 4, s.framePitches[m] = s.framePitch m := fun m => Vector.getElem_ofFn _
  have fold : (fun (t : State) (m : Fin 4) => t.completeChannel m s.framePitches[m]) =
      fun t m => t.completeChannel m (s.framePitch m) := by
    funext t m
    rw [same]
  change State.countToneFrame (micNumbers.foldl
    (fun (t : State) (m : Fin 4) => t.completeChannel m s.framePitches[m]) _) _ = _
  rw [fold]
  rfl

theorem framed_marking (s : State) :
    Marking { s with voice := { s.voice with frame := [] } } s.framed :=
  foldl_marking (fun t m => completeChannel_onlyMic t m (s.framePitch m)) _ _

theorem framed_voice (s : State) :
    s.framed.voice = { s.voice with frame := [], channels := s.framed.voice.channels } :=
  (framed_marking s).voice

/-- The channel with its last voice frame set. -/
def State.framedChannel (s : State) (m : Fin 4) : Channel :=
  { s.voice.channels[m] with lastFrame := some { pitch := s.framePitch m, at_ := s.sessionTime } }

/-- The state that a channel's judgement starts from: the channel's own values are those of `s`, but
for the last voice frame; clock, settings and marks are those of `s`. -/
structure Judgeable (s : State) (m : Fin 4) (w : State) : Prop where
  channel : w.voice.channels[m] = s.framedChannel m
  scoring : w.voice.scoring = s.voice.scoring
  clock : w.clock = s.clock
  turn : w.turn = s.turn
  marks : ∀ j, w.noteMark m j = s.noteMark m j
  marksNote : ∀ j, w.marksNote m j ↔ s.marksNote m j
  partNotes : w.partNotes m = s.partNotes m

/-- A channel's part of the completion is its judgement from such a state. -/
theorem framed_mic (s : State) (m : Fin 4) : ∃ w, Judgeable s m w ∧
    s.framed.voice.channels[m] = (w.judge m (s.framePitch m)).voice.channels[m] ∧
    ∀ j, s.framed.noteMark m j = (w.judge m (s.framePitch m)).noteMark m j := by
  obtain ⟨u, before, after⟩ := foldl_micNumbers
    (f := fun t m => t.completeChannel m (s.framePitch m))
    (fun t m => completeChannel_onlyMic t m _) m { s with voice := { s.voice with frame := [] } }
  have touches := before.marking.touches
  have set := (setChannel_onlyMic u m
    { u.voice.channels[m] with lastFrame := some ⟨s.framePitch m, u.sessionTime⟩ }).marking
  refine ⟨u.setChannel m
    { u.voice.channels[m] with lastFrame := some ⟨s.framePitch m, u.sessionTime⟩ }, ?_, after.channel,
    after.marks⟩
  constructor
  · rw [setChannel_channel_same, before.channel, touches .sessionTime (by decide)]
    rfl
  · exact before.marking.scoring
  · exact touches .clock (by decide)
  · exact touches .turn (by decide)
  · intro j
    rw [setChannel_noteMark, before.marks]
    rfl
  · intro j
    rw [set.marksNote, before.marking.marksNote]
    rfl
  · have track : u.stageTrack = s.stageTrack := before.marking.stageTrack
    have own : u.voice.channels[m] = s.voice.channels[m] := before.channel
    rw [State.partNotes, set.stageTrack, track, setChannel_channel_same, State.partNotes, own]
    rfl

/-- The tone check's count leaves channels and marks. -/
theorem completeFrame_mic (s : State) (m : Fin 4) : ∃ w, Judgeable s m w ∧
    s.completeFrame.voice.channels[m] = (w.judge m (s.framePitch m)).voice.channels[m] ∧
    ∀ j, s.completeFrame.noteMark m j = (w.judge m (s.framePitch m)).noteMark m j := by
  obtain ⟨w, judgeable, channel, marks⟩ := framed_mic s m
  have touches := countToneFrame_touches s.framed s.framePitches
  refine ⟨w, judgeable, ?_, fun j => ?_⟩
  · rw [completeFrame_eq, countToneFrame_channels, channel]
  · rw [completeFrame_eq, ← marks, State.noteMark, State.noteMark, touches .turn (by decide),
      touches .slots (by decide)]

/-! ## Lock, first miss and counts (R164, R169, R170) -/

theorem lockHit_eq (c : Channel) : c.lockHit = { c with
    hitRun := min 2 (c.hitRun + 1), missRun := 0
    lock := if 1 ≤ c.hitRun then .locked else c.lock
    lockCount := if c.lock = .unlocked ∧ 1 ≤ c.hitRun then min 255 (c.lockCount + 1)
      else c.lockCount } := by
  have run : bump 2 c.hitRun = min 2 (c.hitRun + 1) := rfl
  have second : (c.lock = .unlocked && bump 2 c.hitRun = 2) = true ↔
      c.lock = .unlocked ∧ 1 ≤ c.hitRun := by
    rw [Bool.and_eq_true, decide_eq_true_iff, decide_eq_true_iff, run]
    exact and_congr_right' (by omega)
  rw [Channel.lockHit]
  by_cases yes : c.lock = .unlocked ∧ 1 ≤ c.hitRun
  · rw [if_pos (second.mpr yes), if_pos yes, if_pos yes.2]
    rfl
  · rw [if_neg (yes ∘ second.mp), if_neg yes]
    have lock : (if 1 ≤ c.hitRun then Lock.locked else c.lock) = c.lock := by
      split
      next run =>
        cases h : c.lock with
        | locked => rfl
        | unlocked => exact absurd ⟨h, run⟩ yes
      next => rfl
    rw [lock]
    rfl

theorem lockMiss_eq (c : Channel) : c.lockMiss = { c with
    hitRun := 0, missRun := min 16 (c.missRun + 1)
    lock := if c.missRun < 15 then c.lock else .unlocked } := by
  have lock : (if c.lock = .locked && bump 16 c.missRun = 16 then Lock.unlocked else c.lock) =
      if c.missRun < 15 then c.lock else .unlocked := by
    have run : bump 16 c.missRun = min 16 (c.missRun + 1) := rfl
    cases h : c.lock with
    | unlocked => simp
    | locked =>
      by_cases few : c.missRun < 15
      · rw [if_pos few, if_neg]
        rw [run]
        simp
        omega
      · rw [if_neg few, if_pos]
        rw [run]
        simp
        omega
  rw [Channel.lockMiss, lock]
  rfl

theorem count_hit {c : Channel} (room : c.judged < 65535) (within : c.hits ≤ c.judged) (time : Nat)
    (reference : Int) (pitch : Option Int) : c.count true time reference pitch = { c with
      judged := c.judged + 1, hits := c.hits + 1
      openNote := c.openNote.map fun (o : OpenNote) => { o with a := o.a + 1, h := o.h + 1 }
      hitRun := min 2 (c.hitRun + 1), missRun := 0
      lock := if 1 ≤ c.hitRun then .locked else c.lock
      lockCount := if c.lock = .unlocked ∧ 1 ≤ c.hitRun then min 255 (c.lockCount + 1)
        else c.lockCount } := by
  rw [Channel.count, Nat.min_eq_right room, if_pos rfl, Nat.min_eq_right (by omega)]
  exact lockHit_eq _

theorem count_miss {c : Channel} (room : c.judged < 65535) (time : Nat) (reference : Int)
    (pitch : Option Int) : c.count false time reference pitch = { c with
      judged := c.judged + 1
      openNote := c.openNote.map fun (o : OpenNote) => { o with a := o.a + 1 }
      hitRun := 0, missRun := min 16 (c.missRun + 1)
      lock := if c.missRun < 15 then c.lock else .unlocked
      firstMiss := if c.firstMiss = none ∧ 0 < c.lockCount then
        some { time := time, reference := reference, pitch := pitch } else c.firstMiss } := by
  have first : (c.firstMiss.isNone && 0 < c.lockCount) = true ↔
      c.firstMiss = none ∧ 0 < c.lockCount := by
    rw [Bool.and_eq_true, Option.isNone_iff_eq_none, decide_eq_true_iff]
  rw [Channel.count, Nat.min_eq_right room]
  simp only [Bool.false_eq_true, if_false]
  by_cases yes : c.firstMiss = none ∧ 0 < c.lockCount
  · rw [if_pos (first.mpr yes), if_pos yes, lockMiss_eq]
  · rw [if_neg (yes ∘ first.mp), if_neg yes, lockMiss_eq]

/-! ## A HIT (R163) -/

/-- The fold of a difference: the one within -48 to 47 that differs by whole octaves. -/
theorem fold_eq_iff (x d : Int) : fold x = d ↔ (∃ k : Int, d = x + 96 * k) ∧ -48 ≤ d ∧ d ≤ 47 := by
  rw [fold, modInt]
  constructor
  · rintro rfl
    refine ⟨⟨-((x + 48) / 96), ?_⟩, ?_, ?_⟩ <;> omega
  · rintro ⟨⟨k, rfl⟩, least, most⟩
    omega

theorem frameHits_iff (s : State) (n : Note) (pitch : Option Int) : s.frameHits n pitch = true ↔
    ∃ p d, pitch = some p ∧
      (if s.voice.scoring.folding = true then
        (∃ k : Int, d = p - s.referenceOf n + 96 * k) ∧ -48 ≤ d ∧ d ≤ 47
        else d = p - s.referenceOf n) ∧ d.natAbs ≤ s.voice.scoring.tolerance := by
  cases pitch with
  | none => simp [State.frameHits]
  | some p =>
    have difference : ∀ d, (if s.voice.scoring.folding = true then
        (∃ k : Int, d = p - s.referenceOf n + 96 * k) ∧ -48 ≤ d ∧ d ≤ 47
        else d = p - s.referenceOf n) ↔
          judgedDifference s.voice.scoring.folding p (s.referenceOf n) = d := fun d => by
      rw [judgedDifference]
      split
      · exact (fold_eq_iff _ _).symm
      · exact eq_comm
    rw [State.frameHits, decide_eq_true_iff]
    constructor
    · exact fun h => ⟨p, _, rfl, (difference _).mpr rfl, h⟩
    · rintro ⟨q, d, same, judged, h⟩
      obtain rfl := Option.some.inj same
      rw [(difference d).mp judged]
      exact h

/-! ## The judgement of a channel (R163 to R165, R168) -/

section
variable {s w : State} {m : Fin 4} (h : Judgeable s m w)
include h

theorem Judgeable.judges_iff : w.judges m ↔ s.voice.channels[m].enabled = true ∧
    s.voice.channels[m].frozen = false ∧ s.clock.state = .running ∧
    s.voice.scoring.latency ≤ s.clock.position := by
  rw [State.judges, State.judging, h.channel, h.clock, h.scoring, Bool.and_eq_true, Bool.not_eq_true',
    and_assoc]
  rfl

theorem Judgeable.judgementTime :
    w.judgementTime = s.clock.position - s.voice.scoring.latency := by
  rw [State.judgementTime, h.clock, h.scoring]

theorem Judgeable.noteJudged_eq_none (uncovered : ∀ n ∈ s.partNotes m,
    ¬ (n.1.start ≤ w.judgementTime ∧ w.judgementTime < n.1.start + n.1.duration)) :
    w.noteJudged m = none := by
  rw [State.noteJudged, h.partNotes]
  refine List.find?_eq_none.mpr fun n mem covers => uncovered n mem ?_
  rwa [Bool.and_eq_true, decide_eq_true_iff, decide_eq_true_iff] at covers

theorem Judgeable.noteJudged_eq_some {n : Note × Nat} (mem : n ∈ s.partNotes m)
    (covers : n.1.start ≤ w.judgementTime ∧ w.judgementTime < n.1.start + n.1.duration)
    (alone : ∀ x ∈ s.partNotes m,
      x.1.start ≤ w.judgementTime ∧ w.judgementTime < x.1.start + x.1.duration → x = n) :
    w.noteJudged m = some n := by
  have test : ∀ x : Note × Nat, (decide (x.1.start ≤ w.judgementTime) &&
      decide (w.judgementTime < x.1.stop)) = true ↔
        x.1.start ≤ w.judgementTime ∧ w.judgementTime < x.1.start + x.1.duration := fun x => by
    rw [Bool.and_eq_true, decide_eq_true_iff, decide_eq_true_iff]
    rfl
  rw [State.noteJudged, h.partNotes]
  cases found : (s.partNotes m).find? fun n =>
      decide (n.1.start ≤ w.judgementTime) && decide (w.judgementTime < n.1.stop) with
  | none => exact absurd ((test n).mpr covers) (List.find?_eq_none.mp found n mem)
  | some x =>
    have here := List.find?_some found
    rw [alone x (List.mem_of_find?_eq_some found) ((test x).mp here)]

end

/-- The note and its counts, once a note is the open one. -/
theorem openNote_channel (w : State) (m : Fin 4) (i : Nat)
    (unmarked : ∀ o, w.voice.channels[m].openNote = some o → o.index ≠ i →
      w.noteMark m o.index = none) :
    let c := w.voice.channels[m]
    let other := c.openNote.filter fun o => o.index ≠ i
    (w.openNote m i).voice.channels[m] = { c with
      openNote := some { index := i, a := (c.countsFor i).1, h := (c.countsFor i).2 }
      notes := c.notes + (match other with
        | none => 0
        | some o => if o.a = 0 then 0 else 1)
      kept := c.kept + (match other with
        | none => 0
        | some o => if o.a = 0 ∨ 2 * o.h < o.a then 0 else 1) } ∧
    ∀ o, other = some o → w.marksNote m o.index →
      (w.openNote m i).noteMark m o.index = some (markOf o.a o.h) := by
  intro c other
  cases opened : c.openNote with
  | none =>
    have counts : c.countsFor i = (0, 0) := by rw [Channel.countsFor, opened]
    have none_ : other = none := by unfold other; rw [opened]; rfl
    have still : w.tallyOpen m = w := by
      rw [State.tallyOpen]
      exact opened ▸ rfl
    have new : w.openNote m i = w.setChannel m
        { c with openNote := some { index := i, a := 0, h := 0 } } := by
      rw [State.openNote, if_neg (by rw [opened]; nofun), still]
    rw [none_, counts, new]
    exact ⟨setChannel_channel_same .., nofun⟩
  | some o =>
    by_cases same : o.index = i
    · have counts : c.countsFor i = (o.a, o.h) := by
        rw [Channel.countsFor, opened]; exact if_pos same
      have none_ : other = none := by
        unfold other; rw [opened, Option.filter_some, if_neg (by simpa using same)]
      have still : w.openNote m i = w := by
        rw [State.openNote, if_pos (by rw [opened]; simpa using same)]
      rw [none_, counts, still]
      refine ⟨?_, nofun⟩
      have again : some { index := i, a := o.a, h := o.h } = c.openNote := by rw [opened, ← same]
      rw [again]
      rfl
    · have counts : c.countsFor i = (0, 0) := by
        rw [Channel.countsFor, opened]; exact if_neg same
      have own : c.countsFor o.index = (o.a, o.h) := by
        rw [Channel.countsFor, opened]; exact if_pos rfl
      have some_ : other = some o := by
        unfold other; rw [opened, Option.filter_some, if_pos (by simpa using same)]
      have none_ := unmarked o opened same
      have closed : w.tallyOpen m = w.tally m o.index := by
        rw [State.tallyOpen]
        exact opened ▸ rfl
      have new : w.openNote m i = (w.tally m o.index).setChannel m
          { c.tallied o.index false with openNote := some { index := i, a := 0, h := 0 } } := by
        rw [State.openNote, if_neg (by rw [opened]; simpa using same), closed]
        simp only
        rw [tally_channel, none_]
        rfl
      rw [some_, counts, new]
      refine ⟨?_, fun x eq there => ?_⟩
      · rw [setChannel_channel_same, Channel.tallied, own]
        simp
      · obtain rfl := Option.some.inj eq
        rw [setChannel_noteMark, tally_noteMark, if_pos ⟨rfl, rfl, none_, there⟩]
        exact congrArg some (congrArg₂ markOf (congrArg Prod.fst own) (congrArg Prod.snd own))

theorem count_judged (c : Channel) (hit : Bool) (time : Nat) (reference : Int) (pitch : Option Int) :
    (c.count hit time reference pitch).judged = min 65535 (c.judged + 1) := by
  cases hit with
  | true => exact lockHit_judged _
  | false =>
    rw [Channel.count]
    simp only [Bool.false_eq_true, if_false]
    split <;> rw [lockMiss_eq]

/-- A frame counted in a note, the channel not yet at its last count. -/
theorem judge_counted {w : State} {m : Fin 4} {n : Note × Nat} (judges : w.judges m)
    (here : w.noteJudged m = some n) (may : w.mayJudge m n) (p : Option Int)
    (room : w.voice.channels[m].judged < 65534) :
    (w.judge m p).voice.channels[m] = w.judgedChannel m n p ∧
      ∀ j, (w.judge m p).noteMark m j = (w.openNote m n.2).noteMark m j := by
  have below : (w.judgedChannel m n p).judged ≠ 65535 := by
    rw [State.judgedChannel, count_judged, openNote_judged]
    omega
  have taken := (judge_of_note judges here p).2 may
  rw [taken]
  simp only [if_neg below]
  exact ⟨setChannel_channel_same .., fun j => setChannel_noteMark ..⟩

theorem saturate_channel (s : State) (m : Fin 4) : (s.saturate m).voice.channels[m] =
    let c := (s.tallyOpen m).voice.channels[m]
    { c with frozen := true, flags := { c.flags with saturated := true } } :=
  setChannel_channel_same ..

/-- The last count: the open note is tallied and the channel frozen. -/
theorem judge_saturated {w : State} {m : Fin 4} {n : Note × Nat} (judges : w.judges m)
    (here : w.noteJudged m = some n) (may : w.mayJudge m n) (p : Option Int)
    (last : 65534 ≤ w.voice.channels[m].judged) :
    (w.judge m p).voice.channels[m].judged = 65535 ∧
      (w.judge m p).voice.channels[m].frozen = true ∧
      (w.judge m p).voice.channels[m].flags.saturated = true ∧
      (w.judge m p).voice.channels[m].openNote = none := by
  have full : (w.judgedChannel m n p).judged = 65535 := by
    rw [State.judgedChannel, count_judged, openNote_judged]
    omega
  have taken := (judge_of_note judges here p).2 may
  rw [taken]
  simp only [if_pos full]
  rw [saturate_channel]
  refine ⟨?_, rfl, rfl, tallyOpen_openNote _ _⟩
  rw [tallyOpen_channel, setChannel_channel_same]
  split
  · exact full
  · exact full

theorem countToneFrame_voice (s : State) (ps : Vector (Option Int) 4) :
    (s.countToneFrame ps).voice = { s.voice with
      tone := (s.countToneFrame ps).voice.tone, lastTone := (s.countToneFrame ps).voice.lastTone } := by
  rw [State.countToneFrame]
  split
  · rfl
  · split
    · rfl
    · simp only
      split
      · rw [endTone_voice]
      · rfl

theorem completeFrame_voice (s : State) : s.completeFrame.voice = { s.voice with
    frame := [], channels := s.completeFrame.voice.channels
    tone := s.completeFrame.voice.tone, lastTone := s.completeFrame.voice.lastTone } := by
  rw [completeFrame_eq, countToneFrame_voice, framed_voice]

theorem exec_voiceFrameComplete {s : State} (full : 960 ≤ s.voice.frame.length) :
    exec .voiceFrameComplete s = .next s.completeFrame :=
  if_pos (decide_eq_true full)

/-- Settles O53: each channel by the state its judgement starts from. -/
theorem voiceFramesAreJudged : Obligations.VoiceFramesAreJudged := by
  intro s m full
  have voice := completeFrame_voice s
  refine ⟨_, exec_voiceFrameComplete full, completeFrame_touches s, by rw [voice], by rw [voice],
    by rw [voice], ?_⟩
  intro g pitch c t covers
  obtain ⟨w, start, channel, marks⟩ := completeFrame_mic s m
  change s.completeFrame.voice.channels[m] = (w.judge m pitch).voice.channels[m] at channel
  change ∀ j, s.completeFrame.noteMark m j = (w.judge m pitch).noteMark m j at marks
  rw [channel]
  have own : w.voice.channels[m] = c := start.channel
  have time : w.judgementTime = t := start.judgementTime
  refine ⟨fun out => ?off, fun enabled thawed running late => ⟨fun outside_ => ?outside,
    fun n i mem here alone => ?inside⟩⟩
  case off =>
    rw [judge_of_not_judges, own]
    rw [start.judges_iff]
    rintro ⟨enabled, thawed, running, late⟩
    rcases out with h | h | h | h
    · cases h.symm.trans enabled
    · cases h.symm.trans thawed
    · exact h running
    · exact Nat.not_le.mpr h late
  case outside =>
    have judges := start.judges_iff.mpr ⟨enabled, thawed, running, late⟩
    have none_ := start.noteJudged_eq_none (by rw [time]; exact outside_)
    rw [judge_of_no_note judges none_, start.clock]
    have stray : (pitch.isSome && s.clock.interlude = .outside) = true ↔
        pitch ≠ none ∧ s.clock.interlude = .outside := by
      rw [Bool.and_eq_true, Option.isSome_iff_ne_none, decide_eq_true_iff]
    by_cases yes : pitch ≠ none ∧ s.clock.interlude = .outside
    · rw [if_pos yes]
      refine (congrArg (fun x : State => x.voice.channels[m]) (if_pos (stray.mpr yes))).trans ?_
      rw [setChannel_channel_same, own, lockMiss_eq]
      rfl
    · rw [if_neg yes]
      exact (congrArg (fun x : State => x.voice.channels[m]) (if_neg (yes ∘ stray.mp))).trans own
  case inside =>
    have judges := start.judges_iff.mpr ⟨enabled, thawed, running, late⟩
    have found := start.noteJudged_eq_some mem (by rw [time]; exact here) (by rw [time]; exact alone)
    have may : w.mayJudge m (n, i) ↔ n.start + g.grace ≤ t ∧ s.noteMark m i = none := by
      rw [State.mayJudge, start.scoring, time, start.marks]
    refine ⟨fun early => ?early, fun grace unmarked others room within => ?counted,
      fun grace unmarked last most => ?saturated⟩
    case early =>
      rw [(judge_of_note judges found pitch).1, own]
      rintro h
      obtain ⟨grace, unmarked⟩ := may.mp h
      rcases early with h | h
      · exact Nat.not_le.mpr h grace
      · exact h unmarked
    case saturated =>
      exact judge_saturated judges found (may.mpr ⟨grace, unmarked⟩) pitch (by rw [own]; exact last)
    case counted =>
      intro r other counts c'
      obtain ⟨counted, counted_marks⟩ :=
        judge_counted judges found (may.mpr ⟨grace, unmarked⟩) pitch (by rw [own]; exact room)
      obtain ⟨opened, opened_marks⟩ := openNote_channel w m i (by
        rw [own]
        intro o h ne
        rw [start.marks]
        exact others o h ne)
      rw [own] at opened opened_marks
      have reference : w.referenceOf n = r := by rw [State.referenceOf, start.clock]
      have hits := frameHits_iff w n pitch
      rw [reference, start.scoring] at hits
      rw [counted, State.judgedChannel, opened, time, reference]
      refine ⟨fun o k out turn there => ?_, fun hit => ?_, fun miss => ?_⟩
      · rw [marks, counted_marks, opened_marks o out ((start.marksNote _).mpr ⟨k, turn, there⟩), markOf]
      · rw [hits.mpr hit]
        refine (count_hit ?_ ?_ t r pitch).trans rfl
        · exact Nat.lt_succ_of_lt room
        · exact within
      · rw [eq_false_of_ne_true (miss ∘ hits.mp)]
        refine (count_miss ?_ t r pitch).trans rfl
        exact Nat.lt_succ_of_lt room

end Sys2Proof.Machine
end

section
/-! The tone check: its conditions, its wave, its frames and its end (R171, R172; O55). -/

namespace Sys2Proof.Machine

/-! ## The square wave (R171) -/

/-- Bit by bit the last number that satisfies a property is found, where it lies below the top. -/
theorem largest_spec {p : Nat → Bool} (n : Nat) {acc : Nat} (here : p acc = true)
    (top : p (acc + 2 ^ n) = false) : p (largest p n acc) = true ∧ p (largest p n acc + 1) = false := by
  induction n generalizing acc with
  | zero => exact ⟨here, top⟩
  | succ n ih =>
    rw [largest]
    split
    next half =>
      refine ih half ?_
      rwa [Nat.add_assoc, ← Nat.two_mul, ← Nat.pow_succ']
    next low => exact ih here (eq_false_of_ne_true low)

/-- This many half periods begin by sample `k` of the wave. -/
def halfPeriodsFit (note k n : Nat) : Bool :=
  n ^ 12 * 600 ^ 12 * 2 ^ 69 ≤ (11 * k) ^ 12 * 2 ^ note

theorem halfPeriodsFit_iff {note k n : Nat} : halfPeriodsFit note k n = true ↔
    n ^ 12 * 600 ^ 12 * 2 ^ 69 ≤ (11 * k) ^ 12 * 2 ^ note := decide_eq_true_iff

theorem halfPeriodsFit_eq_false_iff {note k n : Nat} : halfPeriodsFit note k n = false ↔
    (11 * k) ^ 12 * 2 ^ note < n ^ 12 * 600 ^ 12 * 2 ^ 69 := by
  rw [Bool.eq_false_iff, ne_eq, halfPeriodsFit_iff, Nat.not_le]

theorem halfPeriods_eq (note k : Nat) : halfPeriods note k = largest (halfPeriodsFit note k) 13 0 := rfl

/-- The half periods before a sample, told by twelfth powers. -/
theorem halfPeriods_bounds {note k : Nat} (low : note ≤ 96) (hk : k < 48000) :
    halfPeriods note k ^ 12 * 600 ^ 12 * 2 ^ 69 ≤ (11 * k) ^ 12 * 2 ^ note ∧
      (11 * k) ^ 12 * 2 ^ note < (halfPeriods note k + 1) ^ 12 * 600 ^ 12 * 2 ^ 69 := by
  have wave : (11 * k) ^ 12 ≤ 528000 ^ 12 := by gcongr; omega
  have octave : 2 ^ note ≤ 2 ^ 96 := by gcongr; norm_num
  have room : 528000 ^ 12 * 2 ^ 96 < (0 + 2 ^ 13) ^ 12 * 600 ^ 12 * 2 ^ 69 := by norm_num
  have top : halfPeriodsFit note k (0 + 2 ^ 13) = false :=
    halfPeriodsFit_eq_false_iff.mpr ((Nat.mul_le_mul wave octave).trans_lt room)
  have first : halfPeriodsFit note k 0 = true := by
    rw [halfPeriodsFit_iff, Nat.zero_pow (by omega), Nat.zero_mul, Nat.zero_mul]
    exact Nat.zero_le _
  obtain ⟨least, most⟩ := largest_spec 13 first top
  rw [halfPeriods_eq]
  exact ⟨halfPeriodsFit_iff.mp least, halfPeriodsFit_eq_false_iff.mp most⟩

theorem toneSample_toInt (note k : Nat) :
    (toneSample note k).toInt = if halfPeriods note k % 2 = 0 then 8000 else -8000 := by
  rw [toneSample]
  split <;> rfl

/-! ## Samples while a check runs (R171) -/

/-- The check's wave enters this sample: it has begun, or begins with this voice frame. -/
abbrev State.waveEnters (s : State) (t : ToneCheck) : Prop := t.made ≠ none ∨ s.voice.frame = []

/-- The samples that enter while a check runs. -/
def State.tonedSamples (s : State) (t : ToneCheck) (x : Samples) : Samples :=
  if s.waveEnters t then x.set t.mic.val (toneSample t.note (t.made.getD 0)) t.mic.isLt else x

theorem tonedSamples_toInt (s : State) (t : ToneCheck) (x : Samples) (m : Fin 4) :
    (s.tonedSamples t x)[m].toInt = if t.mic = m ∧ s.waveEnters t then
      (toneSample t.note (t.made.getD 0)).toInt else x[m].toInt := by
  rw [State.tonedSamples]
  by_cases enters : s.waveEnters t
  · rw [if_pos enters]
    by_cases own : t.mic = m
    · subst own
      rw [if_pos ⟨rfl, enters⟩]
      exact congrArg BitVec.toInt (Vector.getElem_set_self _)
    · rw [if_neg fun both => own both.1]
      exact congrArg BitVec.toInt (Vector.getElem_set_ne _ _ fun same => own (Fin.ext same))
  · rw [if_neg enters, if_neg fun both => enters both.2]

/-- The samples enter, the check's wave on its channel once it has begun. -/
theorem takeSamples_of_tone {s : State} {t : ToneCheck} (short : s.voice.frame.length < 960)
    (tone : s.voice.tone = some t) (x : Samples) :
    s.takeSamples x = { s with voice := { s.voice with
      quiet := 0, frame := s.voice.frame ++ [s.tonedSamples t x]
      tone := some { t with
        made := if s.waveEnters t then some (t.made.getD 0 + 1) else none } } } := by
  rw [State.takeSamples, settleFrame_of_short short, State.tonedSamples]
  simp only
  obtain ⟨mic, note, done, voiced, sum, made⟩ := t
  cases made with
  | some k =>
    have begun : ({ s with voice := { s.voice with quiet := 0 } } : State).beginTone =
        { s with voice := { s.voice with quiet := 0 } } := by
      rw [State.beginTone]
      simp [tone]
    rw [begun, State.enterSamples]
    simp [tone]
  | none =>
    by_cases frame : s.voice.frame = []
    · have begun : ({ s with voice := { s.voice with quiet := 0 } } : State).beginTone =
          { s with voice := { s.voice with
            quiet := 0, tone := some ⟨mic, note, done, voiced, sum, some 0⟩ } } := by
        rw [State.beginTone]
        simp [tone, frame]
      rw [begun, State.enterSamples]
      simp [frame]
    · have begun : ({ s with voice := { s.voice with quiet := 0 } } : State).beginTone =
          { s with voice := { s.voice with quiet := 0 } } := by
        rw [State.beginTone]
        simp [tone, frame]
      rw [begun, State.enterSamples]
      simp [tone, frame]

/-! ## A completed frame of the check (R172) -/

/-- The check with one frame more, of this pitch. -/
def ToneCheck.counted (t : ToneCheck) (pitch : Option Int) : ToneCheck :=
  { t with
    done := t.done + 1
    voiced := t.voiced + if pitch = none then 0 else 1
    sum := t.sum + (pitch.getD 0).toNat }

theorem framed_tone (s : State) : s.framed.voice.tone = s.voice.tone := by rw [framed_voice]

/-- A frame begun before the check counts nothing. -/
theorem completeFrame_of_unbegun {s : State} {t : ToneCheck} (tone : s.voice.tone = some t)
    (unbegun : t.made = none) : s.completeFrame = s.framed := by
  rw [completeFrame_eq, State.countToneFrame, framed_tone, tone]
  exact if_pos (Option.isNone_iff_eq_none.mpr unbegun)

/-- A frame of the check counts, and the 50th ends it. -/
theorem completeFrame_of_begun {s : State} {t : ToneCheck} (tone : s.voice.tone = some t)
    (begun : t.made ≠ none) :
    let t' := t.counted (s.framePitch t.mic)
    s.completeFrame = if 50 ≤ t'.done then s.framed.endTone t' t'.outcome
      else { s.framed with voice := { s.framed.voice with tone := some t' } } := by
  intro t'
  have pitch : s.framePitches[t.mic] = s.framePitch t.mic := Vector.getElem_ofFn _
  have counted : ({ t with
      done := t.done + 1
      voiced := if (s.framePitches[t.mic]).isSome then t.voiced + 1 else t.voiced
      sum := t.sum + ((s.framePitches[t.mic]).getD 0).toNat } : ToneCheck) = t' := by
    simp only [t', ToneCheck.counted, pitch]
    cases s.framePitch t.mic <;> rfl
  rw [completeFrame_eq, State.countToneFrame, framed_tone, tone]
  refine (if_neg fun unbegun => begun (Option.isNone_iff_eq_none.mp unbegun)).trans ?_
  simp only
  rw [counted]
  rfl

theorem ToneCheck.average_none (t : ToneCheck) (silent : t.voiced = 0) : t.average = none :=
  if_pos silent

theorem ToneCheck.average_rounds (t : ToneCheck) (voiced : 0 < t.voiced) :
    ∃ a, t.average = some a ∧ 2 * t.voiced * a ≤ 2 * t.sum + t.voiced ∧
      2 * t.sum + t.voiced < 2 * t.voiced * (a + 1) :=
  ⟨_, if_neg voiced.ne', Nat.mul_div_le _ _, Nat.lt_mul_div_succ _ (by omega)⟩

theorem ToneCheck.outcome_iff (t : ToneCheck) : t.outcome = .pass ↔
    t.voiced = 50 ∧ ∃ a, t.average = some a ∧ ((a : Int) - 8 * t.note).natAbs ≤ 1 := by
  have frames : Config.toneFrames = 50 := rfl
  rw [ToneCheck.outcome]
  cases average : t.average with
  | none => simp
  | some a =>
    simp only [frames, Bool.and_eq_true, decide_eq_true_iff, Option.some.injEq]
    constructor
    · intro pass
      split at pass
      next near =>
        obtain ⟨⟨all, most⟩, least⟩ := near
        exact ⟨all, a, rfl, by omega⟩
      next => exact nomatch pass
    · rintro ⟨all, b, rfl, near⟩
      exact if_pos ⟨⟨all, by omega⟩, by omega⟩

theorem ToneCheck.outcome_ended (t : ToneCheck) : t.outcome = .pass ∨ t.outcome = .fail := by
  rw [ToneCheck.outcome]
  split
  · exact .inr rfl
  · split
    · exact .inl rfl
    · exact .inr rfl

/-- A frame before the 50th. -/
theorem completeFrame_of_running {s : State} {t : ToneCheck} (tone : s.voice.tone = some t)
    (running : t.made = none ∨ t.done < 49) :
    s.completeFrame.voice = { s.framed.voice with
      tone := if t.made = none then some t else some (t.counted (s.framePitch t.mic)) } ∧
    ∀ q, (s.completeFrame.port q).notices = (s.port q).notices := by
  have quiet : ∀ q, (s.framed.port q).notices = (s.port q).notices := fun q =>
    (framed_marking s).touches .notices (by decide) q
  by_cases unbegun : t.made = none
  · have kept := (framed_tone s).trans tone
    rw [completeFrame_of_unbegun tone unbegun, if_pos unbegun]
    generalize s.framed = w at kept quiet
    rw [← kept]
    exact ⟨rfl, quiet⟩
  · have early : ¬ 50 ≤ (t.counted (s.framePitch t.mic)).done := by
      have left := running.resolve_left unbegun
      change ¬ 50 ≤ t.done + 1
      omega
    rw [completeFrame_of_begun tone unbegun, if_neg early, if_neg unbegun]
    generalize s.framed = w at quiet
    exact ⟨rfl, quiet⟩

/-- Both rows complete the check's last frame. -/
theorem exec_lastToneFrame {s : State} {t : ToneCheck} {i : Instr}
    (which : i = .toneCheckEnd ∨ i = .voiceFrameComplete) (full : 960 ≤ s.voice.frame.length)
    (tone : s.voice.tone = some t) (begun : t.made ≠ none) (last : t.done = 49) :
    exec i s = .next s.completeFrame := by
  have filled : s.frameFull = true := decide_eq_true full
  rcases which with rfl | rfl
  · have ending : s.lastToneFrame = true := by
      rw [State.lastToneFrame, tone]
      simp only [last, Bool.and_eq_true]
      exact ⟨Option.isSome_iff_ne_none.mpr begun, rfl⟩
    exact if_pos (by rw [filled, ending]; rfl)
  · exact if_pos filled

/-- A check that has not begun. -/
def ToneCheck.fresh (m : Fin 4) (note : Nat) : ToneCheck := ⟨m, note, 0, 0, 0, none⟩

/-- TONE-CHECK with its values in range. -/
theorem toneCheckBlock_of_range {mic note : Byte} (mics : mic.toNat < 4) (least : 36 ≤ note.toNat)
    (most : note.toNat ≤ 96) (s : State) : toneCheckBlock mic note.toNat s =
      if s.turn.isSome || s.voice.audio = .lost then refuse s .state
      else if s.voice.tone.isSome then refuse s .busy
      else readOk { s with voice := { s.voice with
        tone := some (ToneCheck.fresh ⟨mic.toNat, mics⟩ note.toNat) } } [] := by
  rw [toneCheckBlock, show micOf mic = some ⟨mic.toNat, mics⟩ from dif_pos mics]
  refine if_neg ?_
  rw [outside_iff]
  omega

theorem toneCheckBlock_outside {mic note : Byte}
    (h : ¬ (mic.toNat < 4 ∧ 36 ≤ note.toNat ∧ note.toNat ≤ 96)) (s : State) :
    toneCheckBlock mic note.toNat s = refuse s .range := by
  rw [toneCheckBlock]
  by_cases mics : mic.toNat < 4
  · rw [show micOf mic = some ⟨mic.toNat, mics⟩ from dif_pos mics]
    refine if_pos ?_
    rw [outside_iff]
    omega
  · rw [show micOf mic = none from dif_neg mics]

/-- Settles O55: the command's conditions in their order, the wave, a sample, a frame before the 50th,
and the 50th. -/
theorem toneChecksRunFiftyFrames : Obligations.ToneChecksRunFiftyFrames := by
  refine ⟨fun s p mic note hc => ?command, fun note k _ high hk => ?wave,
    fun s w t present short tone => ?sample, fun s t full tone running => ?frame,
    fun s t i which full tone begun last => ?ending⟩
  case command =>
    have code : frameOf (.toneCheck p mic note) = some (p, ⟨0x41, [mic, note]⟩) := rfl
    by_cases h : mic.toNat < 4 ∧ 36 ≤ note.toNat ∧ note.toNat ≤ 96
    · rw [dif_pos h]
      have block := toneCheckBlock_of_range h.1 h.2.1 h.2.2 (s.accept p ⟨0x41, [mic, note]⟩)
      have held : (s.turn.isSome || s.voice.audio = .lost) = true ↔
          s.turn.isSome = true ∨ s.voice.audio = .lost := by
        rw [Bool.or_eq_true, decide_eq_true_iff]
      by_cases blocked : s.turn.isSome = true ∨ s.voice.audio = .lost
      · rw [if_pos blocked]
        exact runs_unchanged code rfl hc (block.trans (if_pos (held.mpr blocked)))
      · rw [if_neg blocked]
        have free := block.trans (if_neg (blocked ∘ held.mp))
        by_cases busy : s.voice.tone.isSome = true
        · rw [if_pos busy]
          exact runs_unchanged code rfl hc (free.trans (if_pos busy))
        · rw [if_neg busy]
          exact ⟨_, runs_block code rfl hc (free.trans (if_neg busy)) (voice_touches _ _) (by decide),
            rfl⟩
    · rw [dif_neg h]
      exact runs_unchanged code rfl hc (toneCheckBlock_outside h _)
  case wave =>
    obtain ⟨least, most⟩ := halfPeriods_bounds high hk
    exact ⟨least, most, toneSample_toInt note k⟩
  case sample =>
    have run : exec (.tdmFrame w) s = .next (s.takeSamples (TdmWords.samples w)) := by
      change execTdmFrame w s = _
      rw [execTdmFrame, present]
    have enter : ∀ (m : Fin 4) (word : BitVec 24),
        (TdmWords.samples w)[m].toInt = word.toInt / 256 →
        (s.tonedSamples t (TdmWords.samples w))[m].toInt =
          if t.mic = m ∧ (t.made ≠ none ∨ s.voice.frame = []) then
            (toneSample t.note (t.made.getD 0)).toInt else word.toInt / 256 := fun m word own =>
      (tonedSamples_toInt s t _ m).trans (by rw [own])
    rw [takeSamples_of_tone short tone] at run
    exact ⟨_, _, run, voice_touches _ _, rfl, rfl, enter 0 _ (topBits_toInt _),
      enter 1 _ (topBits_toInt _), enter 2 _ (topBits_toInt _), enter 3 _ (topBits_toInt _), rfl⟩
  case frame =>
    obtain ⟨voice, quiet⟩ := completeFrame_of_running tone running
    refine ⟨_, exec_voiceFrameComplete full, completeFrame_touches s, ?_, ?_, ?_, fun q => ?_⟩
    · rw [voice, framed_voice]
    · rw [voice, framed_voice]
    · rw [voice]
      rfl
    · rw [quiet q]
  case ending =>
    generalize next : t.counted (s.framePitch t.mic) = t'
    have done : 50 ≤ t'.done := by
      rw [← next]
      change 50 ≤ t.done + 1
      omega
    have complete := completeFrame_of_begun tone begun
    have run := exec_lastToneFrame which full tone begun last
    have touches := completeFrame_touches s
    simp only [next, if_pos done] at complete
    rw [complete] at run touches
    have voice : (s.framed.endTone t' t'.outcome).voice = { s.voice with
        frame := [], channels := s.framed.voice.channels
        tone := none, lastTone := some (t'.result t'.outcome) } := by
      rw [endTone_voice, framed_voice]
    refine ⟨_, t'.result t'.outcome, run, touches, ?_, ?_, ?_, ?_⟩
    · rw [voice]
    · rw [voice]
    · rw [voice]
    · subst next
      let t' := t.counted (s.framePitch t.mic)
      exact ⟨rfl, rfl, rfl, t'.average_none, t'.average_rounds, t'.outcome_iff, t'.outcome_ended,
        raise_shows _ _ _ _ (by decide), raise_shows _ _ _ _ (by decide)⟩

end Sys2Proof.Machine
end

section
/-! The settings of the channels and of the scoring, with the tallies they make (R156 to R158, R167;
O54). -/

namespace Sys2Proof.Machine

/-! ## One channel's tally -/

/-- The channel with its open note closed by its counts; a note that carries a mark counts nothing. -/
def State.closedChannel (s : State) (m : Fin 4) : Channel :=
  match s.voice.channels[m].openNote with
  | none => s.voice.channels[m]
  | some o => { s.voice.channels[m] with
      openNote := none
      notes := s.voice.channels[m].notes +
        (if s.noteMark m o.index ≠ none ∨ o.a = 0 then 0 else 1)
      kept := s.voice.channels[m].kept +
        (if s.noteMark m o.index ≠ none ∨ o.a = 0 ∨ 2 * o.h < o.a then 0 else 1) }

theorem tallyOpen_closes (s : State) (m : Fin 4) :
    (s.tallyOpen m).voice.channels[m] = s.closedChannel m := by
  rw [State.tallyOpen, State.closedChannel]
  cases opened : s.voice.channels[m].openNote with
  | none => rfl
  | some o =>
    simp only
    by_cases marked : s.noteMark m o.index = none
    · rw [tally_channel, marked, Option.isSome_none, tallied_unmarked, countsFor_open opened,
        filter_open opened]
      simp
    · rw [(tally_marked marked).1, filter_open opened]
      simp [marked]

/-- The marks of the song on stage after the open note of a channel has been tallied. -/
def State.closedMark (s : State) (t : Turn) (m k : Fin 4) (i : Nat) : Option TallyMark :=
  match s.voice.channels[m].openNote with
  | none => s.noteMark k i
  | some o =>
    if k = m ∧ i = o.index ∧ s.noteMark m i = none ∧ i < s.slots[t.slot].tallied[m].length then
      some (if o.a = 0 then .empty else if 2 * o.h < o.a then .counted else .kept)
    else s.noteMark k i

theorem marksNote_iff {s : State} {t : Turn} (stage : s.turn = some t) (m : Fin 4) (n : Nat) :
    s.marksNote m n ↔ n < s.slots[t.slot].tallied[m].length := by
  rw [State.marksNote]
  simp [stage]

theorem tallyOpen_noteMark {s : State} {t : Turn} (stage : s.turn = some t) (m k : Fin 4) (i : Nat) :
    (s.tallyOpen m).noteMark k i = s.closedMark t m k i := by
  rw [State.tallyOpen, State.closedMark]
  cases opened : s.voice.channels[m].openNote with
  | none => rfl
  | some o =>
    simp only
    rw [tally_noteMark, countsFor_open opened]
    by_cases own : k = m ∧ i = o.index ∧ s.noteMark m i = none ∧
        i < s.slots[t.slot].tallied[m].length
    · obtain ⟨rfl, rfl, unmarked, within⟩ := own
      rw [if_pos ⟨rfl, rfl, unmarked, (marksNote_iff stage k o.index).mpr within⟩,
        if_pos ⟨rfl, rfl, unmarked, within⟩]
      rfl
    · rw [if_neg own, if_neg]
      rintro ⟨rfl, rfl, unmarked, marks⟩
      exact own ⟨rfl, rfl, unmarked, (marksNote_iff stage _ _).mp marks⟩

/-- A tally changes the slots in the marks of the song on stage alone. -/
theorem Marking.marksOnly {s u : State} (h : Marking s u) {t : Turn} (stage : s.turn = some t) :
    (∀ k : Fin 4, k ≠ t.slot → u.slots[k] = s.slots[k]) ∧
      u.slots[t.slot] = { s.slots[t.slot] with tallied := u.slots[t.slot].tallied } := by
  refine ⟨fun k other => h.offStage k fun t' same => ?_, h.slots t.slot⟩
  rw [stage, Option.some.injEq] at same
  rwa [← same]

/-- A channel's own change, then a new value for it: the voice unit but for this channel stays. -/
theorem OnlyMic.voice_setChannel {m : Fin 4} {s u : State} (h : OnlyMic m s u) (c : Channel) :
    (u.setChannel m c).voice =
      { s.voice with channels := s.voice.channels.set m.val c m.isLt } := by
  have channels : u.voice.channels.set m.val c m.isLt = s.voice.channels.set m.val c m.isLt := by
    refine Vector.ext fun i hi => ?_
    rw [Vector.getElem_set, Vector.getElem_set]
    by_cases own : m.val = i
    · rw [if_pos own, if_pos own]
    · rw [if_neg own, if_neg own]
      exact h.channel ⟨i, hi⟩ fun same => own (congrArg Fin.val same).symm
  rw [State.setChannel_voice, channels, h.marking.voice]

/-! ## SET-MIC-ENABLE and SET-PART (R156, R157) -/

theorem micOf_of_lt {b : Byte} (h : b.toNat < 4) : micOf b = some ⟨b.toNat, h⟩ := dif_pos h

theorem micOf_of_not_lt {b : Byte} (h : ¬ b.toNat < 4) : micOf b = none := dif_neg h

theorem partOf_of_le {b : Byte} (h : b.toNat ≤ 1) : partOf b = some (if b = 0 then .a else .b) := by
  rcases byte_le_one_iff.mp h with rfl | rfl <;> rfl

theorem partOf_of_not_le {b : Byte} (h : ¬ b.toNat ≤ 1) : partOf b = none := by
  rw [byte_le_one_iff, not_or] at h
  rw [partOf, if_neg h.1, if_neg h.2]

theorem enableMic_of_same {s : State} {m : Fin 4} {x : Bool}
    (h : s.turn = none ∨ s.voice.channels[m].enabled = x) :
    s.enableMic m x = s.setChannel m { s.voice.channels[m] with enabled := x } :=
  if_pos (by simpa using h)

theorem enableMic_of_join {s : State} {m : Fin 4} {t : Turn} (stage : s.turn = some t)
    (off : s.voice.channels[m].enabled = false) :
    s.enableMic m true = s.setChannel m s.voice.channels[m].joinLate :=
  if_neg (by rw [off, stage]; exact Bool.false_ne_true)

theorem enableMic_of_leave {s : State} {m : Fin 4} {t : Turn} (stage : s.turn = some t)
    (on : s.voice.channels[m].enabled = true) :
    s.enableMic m false = (s.tallyOpen m).setChannel m (s.closedChannel m).leave := by
  rw [← tallyOpen_closes]
  exact if_neg (by rw [on, stage]; exact Bool.false_ne_true)

theorem closedChannel_flags (s : State) (m : Fin 4) :
    (s.closedChannel m).flags = s.voice.channels[m].flags ∧
      (s.closedChannel m).takingPart = s.voice.channels[m].takingPart := by
  rw [State.closedChannel]
  split <;> exact ⟨rfl, rfl⟩

theorem closedChannel_recounted (s : State) (m : Fin 4) (x : Part) (notes kept : Nat)
    (flags : ChannelFlags) :
    { s.closedChannel m with part := x, notes := notes, kept := kept, flags := flags } =
      { s.voice.channels[m] with
        part := x, openNote := none, notes := notes, kept := kept, flags := flags } := by
  rw [State.closedChannel]
  split
  next closed => rw [← closed]
  next => rfl

/-- The state in which a change of part counts the marks of the new part. -/
def State.withPart (s : State) (m : Fin 4) (x : Part) : State :=
  (s.tallyOpen m).setChannel m { s.closedChannel m with part := x }

/-- The channel that a change of part leaves. -/
def State.repartedChannel (s : State) (m : Fin 4) (x : Part) : Channel :=
  { s.voice.channels[m] with
    part := x, openNote := none
    notes := (s.withPart m x).countMarks m (· ≠ .empty)
    kept := (s.withPart m x).countMarks m (· = .kept)
    flags := { s.voice.channels[m].flags with
      partChanged := s.voice.channels[m].flags.partChanged || s.voice.channels[m].enabled } }

theorem closedChannel_enabled (s : State) (m : Fin 4) :
    (s.closedChannel m).enabled = s.voice.channels[m].enabled := by
  rw [State.closedChannel]
  split <;> rfl

theorem withPart_channel (s : State) (m : Fin 4) (x : Part) :
    (s.withPart m x).voice.channels[m] = { s.closedChannel m with part := x } :=
  setChannel_channel_same _ _ _

theorem withPart_setChannel (s : State) (m : Fin 4) (x : Part) (c : Channel) :
    (s.withPart m x).setChannel m c = (s.tallyOpen m).setChannel m c := setChannel_setChannel _ _ _ _

theorem changePart_eq (s : State) (m : Fin 4) (x : Part) : s.changePart m x =
    if s.voice.channels[m].enabled then
      ((s.tallyOpen m).setChannel m (s.repartedChannel m x)).flagTurn
        fun f => { f with partChanged := true }
    else (s.tallyOpen m).setChannel m (s.repartedChannel m x) := by
  have flags : (if s.voice.channels[m].enabled = true then
      { (s.closedChannel m).flags with partChanged := true } else (s.closedChannel m).flags) =
      { s.voice.channels[m].flags with
        partChanged := s.voice.channels[m].flags.partChanged || s.voice.channels[m].enabled } := by
    rw [(closedChannel_flags s m).1]
    cases s.voice.channels[m].enabled <;> simp
  have own : (s.withPart m x).setChannel m { s.closedChannel m with
        part := x
        notes := (s.withPart m x).countMarks m (· ≠ .empty)
        kept := (s.withPart m x).countMarks m (· = .kept)
        flags := if s.voice.channels[m].enabled = true then
          { (s.closedChannel m).flags with partChanged := true } else (s.closedChannel m).flags } =
      (s.tallyOpen m).setChannel m (s.repartedChannel m x) := by
    rw [withPart_setChannel, flags, closedChannel_recounted]
    rfl
  have steps : s.changePart m x =
      let w := (s.tallyOpen m).setChannel m { (s.tallyOpen m).voice.channels[m] with part := x }
      let c := w.voice.channels[m]
      let v := w.setChannel m { c with
        notes := w.countMarks m (· ≠ .empty), kept := w.countMarks m (· = .kept)
        flags := if c.enabled then { c.flags with partChanged := true } else c.flags }
      if c.enabled then v.flagTurn fun f => { f with partChanged := true } else v := rfl
  rw [steps, tallyOpen_closes]
  change (let w := s.withPart m x
    let c := w.voice.channels[m]
    let v := w.setChannel m { c with
      notes := w.countMarks m (· ≠ .empty), kept := w.countMarks m (· = .kept)
      flags := if c.enabled then { c.flags with partChanged := true } else c.flags }
    if c.enabled then v.flagTurn fun f => { f with partChanged := true } else v) = _
  simp only [closedChannel_enabled] at own
  simp only [withPart_channel, closedChannel_enabled]
  rw [own]

theorem changePart_turn {s : State} {t : Turn} (stage : s.turn = some t) (m : Fin 4) (x : Part) :
    (s.changePart m x).turn = some { t with flags := { t.flags with
      partChanged := t.flags.partChanged || s.voice.channels[m].enabled } } := by
  have turn : ((s.tallyOpen m).setChannel m (s.repartedChannel m x)).turn = some t :=
    (tallyOpen_onlyMic s m).marking.turn.trans stage
  rw [changePart_eq]
  split
  next on => rw [flagTurn_turn, turn, on, Bool.or_true]; rfl
  next off => rw [turn, Bool.eq_false_iff.mpr off, Bool.or_false]

/-- A change of part differs from the tally of the open note in the channel and the turn's flags. -/
theorem changePart_after_tally (s : State) (m : Fin 4) (x : Part) :
    Touches [.turn] ((s.tallyOpen m).setChannel m (s.repartedChannel m x)) (s.changePart m x) := by
  rw [changePart_eq]
  exact Touches.ite (flagTurn_touches _ _) (Touches.refl _ _)

theorem noteMark_of_stage {s u : State} {t t' : Turn} (stage : s.turn = some t)
    (stage' : u.turn = some t') (slot : t'.slot = t.slot) (slots : u.slots = s.slots) (m : Fin 4)
    (n : Nat) : u.noteMark m n = s.noteMark m n := by
  rw [State.noteMark, State.noteMark, stage, stage', slots]
  simp only [slot]

theorem partNotes_of_stage {s u : State} {t t' : Turn} (stage : s.turn = some t)
    (stage' : u.turn = some t') (slot : t'.slot = t.slot) (slots : u.slots = s.slots) (m : Fin 4)
    (part : u.voice.channels[m].part = s.voice.channels[m].part) :
    u.partNotes m = s.partNotes m := by
  have track : u.stageTrack = s.stageTrack := by
    rw [State.stageTrack, State.stageTrack, stage, stage', slots]
    simp only [slot]
  have assessed : ∀ track, u.voice.channels[m].assessed track = s.voice.channels[m].assessed track :=
    fun track => by unfold Channel.assessed; rw [part]
  rw [State.partNotes, State.partNotes, track]
  simp only [assessed]

/-- The recounts of a change of part, read in the state that it leaves. -/
theorem withPart_countMarks {s : State} {t : Turn} (stage : s.turn = some t) (m : Fin 4) (x : Part)
    (p : TallyMark → Bool) : (s.withPart m x).countMarks m p =
      (((s.changePart m x).partNotes m).filter
        fun n => ((s.changePart m x).noteMark m n.2).any p).length := by
  have before : (s.withPart m x).turn = some t := (tallyOpen_onlyMic s m).marking.turn.trans stage
  have after := changePart_turn stage m x
  have slots : (s.changePart m x).slots = (s.withPart m x).slots :=
    changePart_after_tally s m x .slots (by decide)
  have voice : (s.changePart m x).voice = ((s.tallyOpen m).setChannel m (s.repartedChannel m x)).voice :=
    changePart_after_tally s m x .voice (by decide)
  have part : (s.changePart m x).voice.channels[m].part = (s.withPart m x).voice.channels[m].part := by
    rw [voice, setChannel_channel_same, withPart_channel]
    rfl
  rw [State.countMarks, List.countP_eq_length_filter, partNotes_of_stage before after rfl slots m part]
  simp only [noteMark_of_stage before after rfl slots]

/-! ## SET-SCORING (R158, R167) -/

/-- The open note of a channel ends at or below the judgement time. -/
def State.endsOpen (s : State) (m : Fin 4) : Bool :=
  match s.voice.channels[m].openNote, s.stageTrack with
  | some o, some t => ((t.notes[o.index]?).map fun n =>
      decide (n.stop + s.voice.scoring.latency ≤ s.clock.position)).getD false
  | _, _ => false

theorem endsOpen_iff (s : State) (m : Fin 4) : s.endsOpen m = true ↔
    ∃ o track n, s.voice.channels[m].openNote = some o ∧ s.stageTrack = some track ∧
      track.notes[o.index]? = some n ∧
      n.start + n.duration + s.voice.scoring.latency ≤ s.clock.position := by
  rw [State.endsOpen]
  cases s.voice.channels[m].openNote with
  | none => simp
  | some o =>
    cases s.stageTrack with
    | none => simp
    | some t =>
      simp only [Option.some.injEq]
      cases found : t.notes[o.index]? with
      | none =>
        refine iff_of_false Bool.false_ne_true ?_
        rintro ⟨_, _, n, rfl, rfl, same, -⟩
        exact nomatch found.symm.trans same
      | some n =>
        constructor
        · exact fun ends => ⟨o, t, n, rfl, rfl, found, of_decide_eq_true ends⟩
        · rintro ⟨_, _, n', rfl, rfl, same, ends⟩
          cases found.symm.trans same
          exact decide_eq_true ends

/-- The part of one mic in the tallies at a change of latency compensation. -/
def State.tallyEnded (s : State) (m : Fin 4) : State :=
  if s.judging m && s.endsOpen m then s.tallyOpen m else s

theorem tallyAtLatency_mic (s : State) (m : Fin 4) :
    ∃ u, SameMic m s u ∧ SameMic m (u.tallyEnded m) s.tallyAtLatency :=
  foldl_micNumbers (f := State.tallyEnded)
    (fun s m => OnlyMic.ite (tallyOpen_onlyMic s m) (.refl m s)) m s

theorem SameMic.endsOpen {m : Fin 4} {s u : State} (h : SameMic m s u) :
    u.endsOpen m = s.endsOpen m := by
  have clock : u.clock = s.clock := h.marking.touches .clock (by decide)
  rw [State.endsOpen, State.endsOpen, h.channel, h.marking.stageTrack, h.marking.scoring, clock]

theorem SameMic.tallyOpen {m : Fin 4} {s u : State} (h : SameMic m s u) :
    MicEq m (s.tallyOpen m) (u.tallyOpen m) := by
  rw [State.tallyOpen, State.tallyOpen, h.channel]
  cases s.voice.channels[m].openNote with
  | none => exact h.micEq
  | some o => exact h.tally o.index

theorem tallyAtLatency_of_due {s : State} {m : Fin 4}
    (due : (s.judging m && s.endsOpen m) = true) : MicEq m (s.tallyOpen m) s.tallyAtLatency := by
  obtain ⟨u, before, after⟩ := tallyAtLatency_mic s m
  rw [State.tallyEnded, before.judging, before.endsOpen, if_pos due] at after
  exact before.tallyOpen.trans after.micEq

theorem tallyAtLatency_of_not_due {s : State} {m : Fin 4}
    (due : ¬ (s.judging m && s.endsOpen m) = true) : MicEq m s s.tallyAtLatency := by
  obtain ⟨u, before, after⟩ := tallyAtLatency_mic s m
  rw [State.tallyEnded, before.judging, before.endsOpen, if_neg due] at after
  exact before.micEq.trans after.micEq

theorem clampNat_zero (hi n : Nat) : clampNat 0 hi n = min n hi := Nat.zero_max _

/-- The scoring settings brought into range (R158). -/
theorem Scoring.clamped_eq (g : Scoring) : g.clamped =
    { gate := min g.gate 8191, tolerance := min g.tolerance 24, grace := min g.grace 200
      latency := min g.latency 250, folding := g.folding, pitchWeight := min g.pitchWeight 15
      noteWeight := min g.noteWeight 15, strayCost := min g.strayCost 20 } := by
  simp only [Scoring.clamped, clampNat_zero]

theorem Scoring.clamped_ne_iff (g : Scoring) : decide (g.clamped ≠ g) = true ↔
    ¬ (g.gate ≤ 8191 ∧ g.tolerance ≤ 24 ∧ g.grace ≤ 200 ∧ g.latency ≤ 250 ∧ g.pitchWeight ≤ 15 ∧
      g.noteWeight ≤ 15 ∧ g.strayCost ≤ 20) := by
  obtain ⟨gate, tolerance, grace, latency, folding, pitch, note, stray⟩ := g
  rw [decide_eq_true_iff, ne_eq, not_iff_not, Scoring.clamped_eq, Scoring.mk.injEq]
  simp only [inf_eq_left, true_and]

/-- SET-SCORING with weights that do not come to 0 sets the settings, and tallies at a change of latency
compensation during a turn. -/
theorem setScoringBlock_of_weights {given : Scoring} {s : State}
    (weights : given.clamped.pitchWeight + given.clamped.noteWeight ≠ 0) :
    let t : State := { s with voice := { s.voice with scoring := given.clamped } }
    setScoringBlock given s =
      { state := if s.turn.isSome && given.clamped.latency ≠ s.voice.scoring.latency then
          t.tallyAtLatency else t
        result := okCode (decide (given.clamped ≠ given)), data := given.clamped.bytes } :=
  if_neg weights

theorem closedChannel_leave (s : State) (m : Fin 4) : (s.closedChannel m).leave =
    { s.closedChannel m with
      enabled := false, lock := .unlocked, hitRun := 0, missRun := 0
      flags := { s.voice.channels[m].flags with partial_ :=
        s.voice.channels[m].flags.partial_ || s.voice.channels[m].takingPart } } := by
  obtain ⟨flags, part⟩ := closedChannel_flags s m
  rw [Channel.leave, flags]
  cases taking : s.voice.channels[m].takingPart <;> simp [part.trans taking]

/-- The marks COUNTED and KEPT are those of the notes that count. -/
theorem any_ne_empty (x : Option TallyMark) :
    x.any (· ≠ .empty) = (x = some .counted || x = some .kept) := by
  rcases x with _ | _ | _ | _ <;> rfl

theorem any_eq_kept (x : Option TallyMark) : x.any (· = .kept) = decide (x = some .kept) := by
  rcases x with _ | _ | _ | _ <;> rfl

/-- SET-SCORING's reply gives the settings in force. -/
theorem setScoring_bytes {fold : Byte} (h : fold.toNat ≤ 1) (g : Scoring)
    (folding : g.folding = decide (fold = 0)) : g.bytes =
      be16 g.gate ++ [BitVec.ofNat 8 g.tolerance] ++ be16 g.grace ++ be16 g.latency ++
        [fold, BitVec.ofNat 8 g.pitchWeight, BitVec.ofNat 8 g.noteWeight,
          BitVec.ofNat 8 g.strayCost] := by
  have byte : beBool g.folding = [fold] := by
    rw [folding]
    rcases byte_le_one_iff.mp h with rfl | rfl <;> rfl
  rw [Scoring.bytes, byte]
  simp [be8]

/-- The channel that a change of part leaves, its recounts read in the state left. -/
theorem repartedChannel_eq {s : State} {t : Turn} (stage : s.turn = some t) (m : Fin 4) (x : Part) :
    let u := s.changePart m x
    s.repartedChannel m x = { s.voice.channels[m] with
      part := x, openNote := none
      notes := ((u.partNotes m).filter fun n =>
        u.noteMark m n.2 = some .counted || u.noteMark m n.2 = some .kept).length
      kept := ((u.partNotes m).filter fun n => u.noteMark m n.2 = some .kept).length
      flags := { s.voice.channels[m].flags with partChanged :=
        s.voice.channels[m].flags.partChanged || s.voice.channels[m].enabled } } := by
  intro u
  rw [State.repartedChannel, withPart_countMarks stage, withPart_countMarks stage]
  simp only [any_ne_empty, any_eq_kept]
  rfl

/-- Settles O54: each command by its block, the tallies by the channel that they close. -/
theorem micsAndScoringAreSet : Obligations.MicsAndScoringAreSet := by
  unfold Obligations.MicsAndScoringAreSet
  intro closed marks marksOnly
  refine ⟨fun s p mic v => ⟨fun hc => ?enable, fun colour hc => ?colour, fun hc => ?part⟩,
    fun s p gate tol grace latency fold wp wn cost hc => ?scoring⟩
  case enable =>
    let f : Frame := ⟨0x3F, [mic, v]⟩
    have code : frameOf (.setMicEnable p mic v) = some (p, f) := rfl
    by_cases h : mic.toNat < 4 ∧ v.toNat ≤ 1
    · rw [dif_pos h]
      intro m c
      let a := s.accept p f
      have taken : (match micOf mic, onOff v with
          | some m, some x => readOk (a.enableMic m x) []
          | _, _ => refuse a .range) = ⟨a.enableMic m (decide (v = 0)), .ok, []⟩ := by
        rw [micOf_of_lt h.1, onOff_of_le h.2]
        rfl
      refine ⟨fun same => ?_, fun t stage off on => ?_, fun t stage on off => ?_⟩
      · have set := enableMic_of_same (s := a) (m := m) same
        exact ⟨_, runs_block code rfl hc (taken.trans (congrArg (readOk · []) set))
          (setChannel_touches a m _) (by decide), rfl⟩
      · subst on
        have set := enableMic_of_join (s := a) (m := m) stage off
        exact ⟨_, runs_block code rfl hc (taken.trans (congrArg (readOk · []) set))
          (setChannel_touches a m _) (by decide), rfl⟩
      · subst off
        have set := enableMic_of_leave (s := a) (m := m) stage on
        have only := (tallyOpen_onlyMic a m).trans (setChannel_onlyMic _ m (a.closedChannel m).leave)
        refine ⟨_, runs_block code rfl hc (taken.trans (congrArg (readOk · []) set))
          only.marking.touches (by decide), ?_, fun k i => ?_, only.marking.marksOnly stage⟩
        · exact ((tallyOpen_onlyMic a m).voice_setChannel (a.closedChannel m).leave).trans
            (congrArg (fun x => { a.voice with channels := a.voice.channels.set m.val x m.isLt })
              (closedChannel_leave a m))
        · exact tallyOpen_noteMark (s := a) stage m k i
    · rw [dif_neg h]
      refine runs_unchanged code rfl hc ?_
      by_cases mics : mic.toNat < 4
      · rw [onOff_of_not_le fun le => h ⟨mics, le⟩]
        cases micOf mic <;> rfl
      · rw [micOf_of_not_lt mics]
        rfl
  case colour =>
    have code : frameOf (.setMicColour p mic colour) = some (p, ⟨0x40, mic :: beColour colour⟩) := rfl
    by_cases h : mic.toNat < 4
    · rw [dif_pos h]
      refine ⟨_, runs_block code rfl hc ?_ (setChannel_touches _ ⟨mic.toNat, h⟩ _) (by decide), rfl⟩
      rw [micOf_of_lt h]
      rfl
    · rw [dif_neg h]
      refine runs_unchanged code rfl hc ?_
      rw [micOf_of_not_lt h]
      rfl
  case part =>
    let f : Frame := ⟨0x42, [mic, v]⟩
    have code : frameOf (.setPart p mic v) = some (p, f) := rfl
    by_cases h : mic.toNat < 4 ∧ v.toNat ≤ 1
    · rw [dif_pos h]
      intro m c part
      let a := s.accept p f
      have taken : (match micOf mic, partOf v with
          | some m, some x => readOk (if a.turn.isNone || a.voice.channels[m].part = x then
              a.setChannel m { a.voice.channels[m] with part := x } else a.changePart m x) []
          | _, _ => refuse a .range) = readOk (if a.turn.isNone || c.part = part then
              a.setChannel m { c with part := part } else a.changePart m part) [] := by
        rw [micOf_of_lt h.1, partOf_of_le h.2]
        rfl
      refine ⟨fun same => ?_, fun t stage other => ?_⟩
      · have set : (a.turn.isNone || c.part = part) = true := by
          rw [Bool.or_eq_true, Option.isNone_iff_eq_none, decide_eq_true_iff]
          exact same
        exact ⟨_, runs_block code rfl hc (taken.trans (congrArg (readOk · []) (if_pos set)))
          (setChannel_touches a m _) (by decide), rfl⟩
      · have set : ¬ (a.turn.isNone || c.part = part) = true := by
          rw [Bool.or_eq_true, Option.isNone_iff_eq_none, decide_eq_true_iff, not_or]
          exact ⟨fun none_ => (nomatch stage.symm.trans none_), other⟩
        have only := (tallyOpen_onlyMic a m).trans (setChannel_onlyMic _ m (a.repartedChannel m part))
        have after := changePart_after_tally a m part
        have slots := after .slots (by decide)
        refine ⟨_, runs_block code rfl hc (taken.trans (congrArg (readOk · []) (if_neg set)))
          ((only.marking.touches.mono rfl).trans (after.mono rfl)) (by decide), ?_,
          changePart_turn (s := a) stage m part, fun k i => ?_, ?_⟩
        · have channel := repartedChannel_eq (s := a) stage m part
          have voice := (after .voice (by decide)).trans
            ((tallyOpen_onlyMic a m).voice_setChannel (a.repartedChannel m part))
          rw [channel] at voice
          exact voice
        · have turn : ((a.tallyOpen m).setChannel m (a.repartedChannel m part)).turn = some t :=
            only.marking.turn.trans stage
          exact (noteMark_of_stage turn (changePart_turn (s := a) stage m part) rfl slots k i).trans
            (tallyOpen_noteMark (s := a) stage m k i)
        · have kept := only.marking.marksOnly stage
          rw [← slots] at kept
          exact kept
    · rw [dif_neg h]
      refine runs_unchanged code rfl hc ?_
      by_cases mics : mic.toNat < 4
      · rw [partOf_of_not_le fun le => h ⟨mics, le⟩]
        cases micOf mic <;> rfl
      · rw [micOf_of_not_lt mics]
        rfl
  case scoring =>
    intro i g
    let f : Frame := ⟨0x43, be16 gate.toNat ++ [tol] ++ be16 grace.toNat ++ be16 latency.toNat ++
      [fold, wp, wn, cost]⟩
    have code : frameOf i = some (p, f) := rfl
    let a := s.accept p f
    let given : Scoring :=
      { gate := gate.toNat, tolerance := tol.toNat, grace := grace.toNat
        latency := latency.toNat, folding := decide (fold = 0), pitchWeight := wp.toNat
        noteWeight := wn.toNat, strayCost := cost.toNat }
    have clamped : given.clamped = g := Scoring.clamped_eq given
    have onOff_taken : fold.toNat ≤ 1 → (match onOff fold with
        | none => refuse a .range
        | some on => setScoringBlock { given with folding := on } a) = setScoringBlock given a :=
      fun le => by rw [onOff_of_le le]
    have weights : given.clamped.pitchWeight + given.clamped.noteWeight = 0 ↔ wp = 0 ∧ wn = 0 := by
      rw [clamped]
      change min wp.toNat 15 + min wn.toNat 15 = 0 ↔ _
      bv_omega
    by_cases bad : 2 ≤ fold.toNat ∨ (wp = 0 ∧ wn = 0)
    · rw [if_pos bad]
      refine runs_unchanged code rfl hc ?_
      by_cases le : fold.toNat ≤ 1
      · exact (onOff_taken le).trans (if_pos (weights.mpr (bad.resolve_left (by omega))))
      · change (match onOff fold with
          | none => refuse a .range
          | some on => setScoringBlock { given with folding := on } a) = _
        rw [onOff_of_not_le le]
        rfl
    · rw [if_neg bad]
      obtain ⟨small, some_⟩ := not_or.mp bad
      have le : fold.toNat ≤ 1 := by omega
      have taken := (onOff_taken le).trans (setScoringBlock_of_weights (s := a) (mt weights.mp some_))
      rw [clamped, setScoring_bytes le g rfl,
        okCode_eq (by rw [← clamped]; exact Scoring.clamped_ne_iff given)] at taken
      let b : State := { a with voice := { a.voice with scoring := g } }
      let during : Bool := a.turn.isSome && g.latency ≠ a.voice.scoring.latency
      let w : State := if during then b.tallyAtLatency else b
      have only : Marking b w := by
        change Marking b (if during then b.tallyAtLatency else b)
        split
        · exact tallyAtLatency_marking b
        · exact Marking.refl b
      refine ⟨_, runs_block (v := w) code rfl hc taken
        (((voice_touches a _).mono rfl).trans (only.touches.mono rfl)) (by decide), only.voice,
        fun still => ?_, fun t stage other => ?_⟩
      · have same : w = b := if_neg (by
          rw [Bool.and_eq_true, decide_eq_true_iff]
          rintro ⟨stage, other⟩
          rcases still with none_ | same
          · exact Option.isSome_iff_ne_none.mp stage none_
          · exact other same)
        have slots : w.slots = b.slots := by rw [same]
        have channels : w.voice.channels = b.voice.channels := by rw [same]
        exact ⟨slots, channels⟩
      · have made : w = b.tallyAtLatency := if_pos (by
          rw [Bool.and_eq_true, decide_eq_true_iff]
          exact ⟨Option.isSome_iff_exists.mpr ⟨t, stage⟩, other⟩)
        refine ⟨only.marksOnly stage, fun m => ?_⟩
        intro c due
        have dueness : (b.judging m && b.endsOpen m) = true ↔ due := by
          rw [Bool.and_eq_true, endsOpen_iff, State.judging, Bool.and_eq_true, Bool.not_eq_true',
            and_assoc]
          rfl
        refine ⟨fun isDue => ?_, fun notDue => ?_⟩
        · obtain ⟨channel, marks⟩ := tallyAtLatency_of_due (dueness.mpr isDue)
          rw [← made] at channel marks
          exact ⟨channel.trans (tallyOpen_closes b m),
            fun j => (marks j).trans (tallyOpen_noteMark (s := b) stage m m j)⟩
        · obtain ⟨channel, marks⟩ := tallyAtLatency_of_not_due (notDue ∘ dueness.mp)
          rw [← made] at channel marks
          exact ⟨channel, marks⟩

end Sys2Proof.Machine
end

section
/-! The effective bands and the Line Scheduler's settings (R102 to R104, R113, R115, R117, R121; O38,
O39). -/

namespace Sys2Proof.Machine

/-! ## The effective bands (R103) -/

/-- What lowering a value while it is too large comes to. -/
theorem lowerWhile_spec (tooLarge : Nat → Bool) (floor n : Nat) :
    let r := lowerWhile tooLarge floor n
    r ≤ n ∧ min floor n ≤ r ∧ (r < n → tooLarge (r + 1) = true) ∧
      (floor < r → tooLarge r = false) := by
  induction n with
  | zero => exact ⟨Nat.le_refl 0, Nat.min_le_right _ _, nofun, nofun⟩
  | succ n ih =>
    intro r
    by_cases lower : (tooLarge (n + 1) && decide (floor < n + 1)) = true
    · have value : r = lowerWhile tooLarge floor n := if_pos lower
      rw [Bool.and_eq_true, decide_eq_true_iff] at lower
      obtain ⟨most, least, lowered, fits⟩ := ih
      rw [value]
      refine ⟨by omega, by omega, fun below => ?_, fits⟩
      rcases Nat.eq_or_lt_of_le most with same | less
      · rw [same]
        exact lower.1
      · exact lowered less
    · have value : r = n + 1 := if_neg lower
      rw [value]
      refine ⟨Nat.le_refl _, Nat.min_le_right _ _, fun below => absurd below (Nat.lt_irrefl _),
        fun above => ?_⟩
      rw [Bool.and_eq_true, decide_eq_true_iff] at lower
      exact Bool.eq_false_iff.mpr fun large => lower ⟨large, above⟩

/-- The rows that the style asks for. -/
def LineScheduler.styleRows (l : LineScheduler) : Nat := if l.style = .scroll then l.lyricRows else 2

theorem LineScheduler.styleRows_eq (l : LineScheduler) : l.styleRows = match l.style with
    | .scroll => l.lyricRows
    | .alternate => 2 := by
  rw [LineScheduler.styleRows]
  cases l.style <;> rfl

/-- The effective values, each lowered only where it must be, once those before it are at their least. -/
theorem LineScheduler.layout_lowered (l : LineScheduler) :
    ∃ g, l.layout.guide = 8 * g ∧
      (g ≤ l.guideSetting / 8 ∧
        (g < l.guideSetting / 8 →
          l.canvas.height < bandSum l.titleRowsSetting l.styleRows (8 * (g + 1))) ∧
        (0 < g → bandSum l.titleRowsSetting l.styleRows l.layout.guide ≤ l.canvas.height)) ∧
      (l.layout.rows ≤ l.styleRows ∧ min 2 l.styleRows ≤ l.layout.rows ∧
        (l.layout.rows < l.styleRows → l.canvas.height <
          bandSum l.titleRowsSetting (l.layout.rows + 1) l.layout.guide) ∧
        (2 < l.layout.rows →
          bandSum l.titleRowsSetting l.layout.rows l.layout.guide ≤ l.canvas.height)) ∧
      l.layout.titleRows ≤ l.titleRowsSetting ∧
        (l.layout.titleRows < l.titleRowsSetting → l.canvas.height <
          bandSum (l.layout.titleRows + 1) l.layout.rows l.layout.guide) ∧
        (0 < l.layout.titleRows →
          bandSum l.layout.titleRows l.layout.rows l.layout.guide ≤ l.canvas.height) := by
  have guide := lowerWhile_spec
    (fun g => l.canvas.height < bandSum l.titleRowsSetting l.styleRows (8 * g)) 0 (l.guideSetting / 8)
  have rows := lowerWhile_spec
    (fun r => l.canvas.height < bandSum l.titleRowsSetting r l.layout.guide) 2 l.styleRows
  have title := lowerWhile_spec
    (fun t => l.canvas.height < bandSum t l.layout.rows l.layout.guide) 0 l.titleRowsSetting
  simp only [decide_eq_true_iff, decide_eq_false_iff_not, Nat.not_lt] at guide rows title
  obtain ⟨guideMost, -, guideLowered, guideFits⟩ := guide
  obtain ⟨rowsMost, rowsLeast, rowsLowered, rowsFits⟩ := rows
  obtain ⟨titleMost, -, titleLowered, titleFits⟩ := title
  have guideValue : l.layout.guide = 8 * lowerWhile
      (fun g => l.canvas.height < bandSum l.titleRowsSetting l.styleRows (8 * g)) 0
      (l.guideSetting / 8) := by
    rw [LineScheduler.styleRows_eq]
    rfl
  have rowsValue : l.layout.rows = lowerWhile
      (fun r => l.canvas.height < bandSum l.titleRowsSetting r l.layout.guide) 2 l.styleRows := by
    rw [LineScheduler.styleRows_eq]
    rfl
  have titleValue : l.layout.titleRows = lowerWhile
      (fun t => l.canvas.height < bandSum t l.layout.rows l.layout.guide) 0 l.titleRowsSetting := rfl
  rw [← rowsValue] at rowsMost rowsLeast rowsLowered rowsFits
  rw [← titleValue] at titleMost titleLowered titleFits
  exact ⟨_, guideValue, ⟨guideMost, guideLowered, by rw [guideValue]; exact guideFits⟩,
    ⟨rowsMost, rowsLeast, rowsLowered, rowsFits⟩, titleMost, titleLowered, titleFits⟩

/-- Settles O38, by linear arithmetic from what each lowering comes to. -/
theorem effectiveBandsFit : Obligations.EffectiveBandsFit := by
  intro l titleSetting guideSetting multiple leastRows mostRows h rows b
  obtain ⟨g, guide, ⟨guideMost, guideLowered, guideFits⟩,
    ⟨rowsMost, rowsLeast, rowsLowered, rowsFits⟩, titleMost, titleLowered, titleFits⟩ :=
    l.layout_lowered
  have height : l.canvas.height = h := by
    change l.canvas.height = if l.canvas = .hd720 then 720 else 1080
    cases l.canvas <;> rfl
  have width : l.canvas.width = if l.canvas = .hd720 then 1280 else 1920 := by
    cases l.canvas <;> rfl
  have tall : 720 ≤ h := by
    change 720 ≤ if l.canvas = .hd720 then 720 else 1080
    split <;> omega
  have few : 2 ≤ rows ∧ rows ≤ 4 := by
    change 2 ≤ (if l.style = .scroll then l.lyricRows else 2) ∧
      (if l.style = .scroll then l.lyricRows else 2) ≤ 4
    split <;> omega
  have lyricTop : b.lyricTop = h - 32 - b.guide - 56 * b.rows := by rw [← height]; rfl
  have guideTop : b.guideTop = h - 32 - b.guide := by rw [← height]; rfl
  have bands : l.layout = b := rfl
  have asked : l.styleRows = rows := rfl
  rw [bands] at guide
  simp only [bandSum, bands, asked, height] at guideLowered guideFits rowsMost rowsLeast rowsLowered
  simp only [bandSum, bands, height] at rowsFits titleMost titleLowered titleFits
  refine ⟨height, width, ?_⟩
  clear_value b rows h
  refine ⟨?_, ?_, ?_, ?_, ?_, ?_, rowsMost, titleMost, ?_, ?_, ?_⟩ <;> omega

/-! ## What a new layout makes (R103, R113, R118) -/

/-- The scheduler with a rebuild requested. -/
def LineScheduler.rebuilt (l : LineScheduler) : LineScheduler :=
  { l with window := l.window.filter fun x => !x.isLeaving, rebuild := true, scroll := none }

theorem LineScheduler.Retitled.layout {l m : LineScheduler} (h : l.Retitled m) :
    m.layout = l.layout := by
  obtain ⟨title, rows, hinted, rfl⟩ := h
  rfl

theorem relayout_of_same_rows {s : State} {f : LineScheduler → LineScheduler}
    (same : (f s.lines).layout.rows = s.lines.layout.rows) :
    (f s.lines).Retitled (s.relayout f).lines := by
  have made : s.relayout f = (s.mapLines f).retitle := congrArg State.retitle (if_pos same)
  rw [made]
  exact retitle_lines (s.mapLines f)

theorem relayout_of_other_rows {s : State} {f : LineScheduler → LineScheduler}
    (other : (f s.lines).layout.rows ≠ s.lines.layout.rows) :
    (f s.lines).rebuilt.Retitled (s.relayout f).lines := by
  have made : s.relayout f = (s.mapLines f).requestRebuild.retitle :=
    congrArg State.retitle (if_neg other)
  have lines := retitle_lines (s.mapLines f).requestRebuild
  rw [made]
  rwa [requestRebuild_lines] at lines

/-- A new layout is in force, and a change of the row count requests a rebuild. -/
theorem relayout_lines (s : State) (f : LineScheduler → LineScheduler) :
    ∃ l, l.Retitled (s.relayout f).lines ∧ l.layout = (f s.lines).layout ∧
      (l = f s.lines ∧ (f s.lines).layout.rows = s.lines.layout.rows ∨
        l = (f s.lines).rebuilt ∧ (f s.lines).layout.rows ≠ s.lines.layout.rows) := by
  by_cases same : (f s.lines).layout.rows = s.lines.layout.rows
  · exact ⟨_, relayout_of_same_rows same, rfl, .inl ⟨rfl, same⟩⟩
  · exact ⟨_, relayout_of_other_rows same, rfl, .inr ⟨rfl, same⟩⟩

/-! ## The settings (R104, R115, R117, R121) -/

theorem styleOf_of_le {b : Byte} (h : b.toNat ≤ 1) :
    styleOf b = some (if b = 0 then .scroll else .alternate) := by
  rcases byte_le_one_iff.mp h with rfl | rfl <;> rfl

theorem styleOf_of_not_le {b : Byte} (h : ¬ b.toNat ≤ 1) : styleOf b = none := by
  rw [byte_le_one_iff, not_or] at h
  rw [styleOf, if_neg h.1, if_neg h.2]

theorem guideSettingOf_eq (n : Nat) : guideSettingOf n = 8 * (min n 512 / 8) := by
  rw [guideSettingOf, clampNat_zero, Nat.mul_comm]

theorem setBands_code (t g : Nat) : okCode (outside 0 2 t || guideSettingOf g ≠ g) =
    if t ≤ 2 ∧ g ≤ 512 ∧ g % 8 = 0 then .ok else .okClamped :=
  okCode_eq (by
    rw [Bool.or_eq_true, outside_iff, decide_eq_true_iff, guideSettingOf_eq]
    omega)

theorem setLineTiming_code (a b c d : Nat) :
    okCode (outside 500 4000 a || outside 0 2000 b || outside 0 10000 c || outside 0 30 d) =
      if 500 ≤ a ∧ a ≤ 4000 ∧ b ≤ 2000 ∧ c ≤ 10000 ∧ d ≤ 30 then .ok else .okClamped :=
  okCode_eq (by
    rw [Bool.or_eq_true, Bool.or_eq_true, Bool.or_eq_true, outside_iff, outside_iff, outside_iff,
      outside_iff]
    omega)

/-- Settles O39: each setting by its block. -/
theorem lineSettingsAreSet : Obligations.LineSettingsAreSet := by
  refine ⟨fun s p => ⟨fun t g hc => ?bands, fun t r hc => ?style⟩,
    fun s p => ⟨fun a b c d hc => ?timing, fun a b c d hc => ?colours, fun x hc => ?hold⟩⟩
  case bands =>
    intro title guide lines
    let f : Frame := ⟨0x28, t :: be16 g.toNat⟩
    let set := fun l : LineScheduler => { l with
      titleRowsSetting := clampNat 0 2 t.toNat, guideSetting := guideSettingOf g.toNat }
    have made : set s.lines = lines := by
      simp only [set, clampNat_zero, guideSettingOf_eq]
      rfl
    obtain ⟨l, ⟨_, _, hinted, after⟩, layout, which⟩ := relayout_lines (s.accept p f) set
    have lines₀ : (s.accept p f).lines = s.lines := rfl
    rw [lines₀, made] at layout which
    generalize hw : (s.accept p f).relayout set = w at after
    have touches : Touches [.lines, .cache] (s.accept p f) w := hw ▸ relayout_touches _ _
    have band : w.lines.layout = lines.layout := by rw [after]; exact layout
    have settings : w.lines.titleRowsSetting = title ∧ w.lines.guideSetting = guide ∧
        w.lines.style = s.lines.style ∧ w.lines.lyricRows = s.lines.lyricRows ∧
        w.lines.pending = s.lines.pending := by
      rw [after]
      rcases which with ⟨rfl, -⟩ | ⟨rfl, -⟩ <;> exact ⟨rfl, rfl, rfl, rfl, rfl⟩
    have rebuild : w.lines.rebuild =
        (s.lines.rebuild || decide (lines.layout.rows ≠ s.lines.layout.rows)) := by
      rw [after]
      rcases which with ⟨rfl, same⟩ | ⟨rfl, other⟩
      · rw [decide_eq_false (not_not.mpr same), Bool.or_false]
      · rw [decide_eq_true other, Bool.or_true]
        rfl
    obtain ⟨titled, guided, styled, rowed, pending⟩ := settings
    refine ⟨_, runs_block (v := w) rfl rfl hc ?_ touches (by decide), titled, guided, band, rebuild,
      styled, rowed, pending⟩
    have taken : setBandsBlock t.toNat g.toNat (s.accept p f) =
      ⟨(s.accept p f).relayout set, okCode (outside 0 2 t.toNat || guideSettingOf g.toNat ≠ g.toNat),
        be8 ((s.accept p f).relayout set).lines.titleRowsSetting ++
        be16 ((s.accept p f).relayout set).lines.guideSetting ++
        ((s.accept p f).relayout set).lines.layout.bytes⟩ := rfl
    rw [hw, titled, guided, band, setBands_code] at taken
    exact taken.trans (by simp [be8, Layout.bytes])
  case style =>
    let f : Frame := ⟨0x29, [t, r]⟩
    by_cases bad : 2 ≤ t.toNat
    · rw [if_pos bad]
      refine runs_unchanged (f := f) rfl rfl hc ?_
      rw [setStyleBlock, styleOf_of_not_le (by omega)]
      rfl
    · rw [if_neg bad]
      intro style rows
      have le : t.toNat ≤ 1 := by omega
      let set := fun l : LineScheduler => { l with style := style, lyricRows := rows }
      obtain ⟨l, ⟨_, _, hinted, after⟩, layout, which⟩ := relayout_lines (s.accept p f) set
      have lines₀ : (s.accept p f).lines = s.lines := rfl
      rw [lines₀] at layout which
      have taken : setStyleBlock t r.toNat (s.accept p f) =
          ⟨if style = s.lines.style && rows = s.lines.lyricRows then (s.accept p f).relayout set
            else ((s.accept p f).relayout set).requestRebuild,
            if 2 ≤ r.toNat ∧ r.toNat ≤ 4 then .ok else .okClamped, [t, BitVec.ofNat 8 rows]⟩ := by
        have place : be8 style.place = [t] := by
          rcases byte_le_one_iff.mp le with rfl | rfl <;> rfl
        rw [setStyleBlock, styleOf_of_le le, clampNat_eq (by omega), okCode_of_outside]
        exact congrArg (Taken.mk _ _) (by rw [place]; rfl)
      have touched : Touches [.lines, .cache] (s.accept p f) ((s.accept p f).relayout set) :=
        relayout_touches _ _
      generalize (s.accept p f).relayout set = w at taken after touched
      by_cases same : (style = s.lines.style && rows = s.lines.lyricRows) = true
      · rw [if_pos same] at taken
        rw [Bool.and_eq_true, decide_eq_true_iff, decide_eq_true_iff] at same
        obtain ⟨sameStyle, sameRows⟩ := same
        have made : set s.lines = s.lines := by
          simp only [set, sameStyle, sameRows]
        rw [made] at which
        obtain rfl : l = s.lines := which.elim And.left fun h => absurd rfl h.2
        have kept : w.lines.style = style ∧ w.lines.lyricRows = rows ∧
            w.lines.rebuild = s.lines.rebuild ∧
            w.lines.titleRowsSetting = s.lines.titleRowsSetting ∧
            w.lines.guideSetting = s.lines.guideSetting ∧ w.lines.pending = s.lines.pending := by
          rw [after, sameStyle, sameRows]
          exact ⟨rfl, rfl, rfl, rfl, rfl, rfl⟩
        obtain ⟨styled, rowed, rebuild, titled, guided, pending⟩ := kept
        exact ⟨_, runs_block rfl rfl hc taken touched (by decide), styled, rowed,
          fun other => (other.elim (absurd sameStyle) (absurd sameRows)), fun _ _ => rebuild, titled,
          guided, pending⟩
      · rw [if_neg same] at taken
        rw [Bool.and_eq_true, decide_eq_true_iff, decide_eq_true_iff] at same
        have kept : w.requestRebuild.lines.style = style ∧ w.requestRebuild.lines.lyricRows = rows ∧
            w.requestRebuild.lines.rebuild = true ∧
            w.requestRebuild.lines.titleRowsSetting = s.lines.titleRowsSetting ∧
            w.requestRebuild.lines.guideSetting = s.lines.guideSetting ∧
            w.requestRebuild.lines.pending = s.lines.pending := by
          rw [requestRebuild_lines, after]
          rcases which with ⟨rfl, -⟩ | ⟨rfl, -⟩ <;> exact ⟨rfl, rfl, rfl, rfl, rfl, rfl⟩
        obtain ⟨styled, rowed, rebuild, titled, guided, pending⟩ := kept
        exact ⟨_, runs_block rfl rfl hc taken (touched.trans (requestRebuild_touches w)) (by decide),
          styled, rowed, fun _ => rebuild, fun h₁ h₂ => absurd ⟨h₁, h₂⟩ same, titled, guided, pending⟩
  case timing =>
    intro lead hold linger scroll
    let f : Frame := ⟨0x2A, be16 a.toNat ++ be16 b.toNat ++ be16 c.toNat ++ [d]⟩
    let w := (s.accept p f).mapLines fun l =>
      { l with lead := lead, hold := hold, linger := linger, scrollTime := scroll }
    have taken : setLineTimingBlock a.toNat b.toNat c.toNat d.toNat (s.accept p f) =
        ⟨if lead = s.lines.lead && hold = s.lines.hold && linger = s.lines.linger then w
          else w.requestRebuild,
          if 500 ≤ a.toNat ∧ a.toNat ≤ 4000 ∧ b.toNat ≤ 2000 ∧ c.toNat ≤ 10000 ∧ d.toNat ≤ 30
            then .ok else .okClamped,
          be16 lead ++ be16 hold ++ be16 linger ++ [BitVec.ofNat 8 scroll]⟩ := by
      rw [setLineTimingBlock, setLineTiming_code, clampNat_eq (by omega), clampNat_zero, clampNat_zero,
        clampNat_zero]
      rfl
    have set : Touches [.lines, .cache] (s.accept p f) w := (mapLines_touches _ _).mono rfl
    have lines : w.lines = { s.lines with
        lead := lead, hold := hold, linger := linger, scrollTime := scroll } := rfl
    have same : (lead = s.lines.lead && hold = s.lines.hold && linger = s.lines.linger) = true ↔
        lead = s.lines.lead ∧ hold = s.lines.hold ∧ linger = s.lines.linger := by
      rw [Bool.and_eq_true, Bool.and_eq_true, decide_eq_true_iff, decide_eq_true_iff,
        decide_eq_true_iff, and_assoc]
    clear_value lead hold linger scroll
    by_cases kept : lead = s.lines.lead ∧ hold = s.lines.hold ∧ linger = s.lines.linger
    · rw [if_pos (same.mpr kept)] at taken
      refine ⟨_, runs_block rfl rfl hc taken set (by decide), rfl, rfl, rfl, rfl, ?_⟩
      rw [if_pos kept]
      obtain ⟨rfl, rfl, rfl⟩ := kept
      exact ⟨rfl, rfl⟩
    · rw [if_neg (kept ∘ same.mp)] at taken
      refine ⟨_, runs_block rfl rfl hc taken (set.trans (requestRebuild_touches w)) (by decide), ?_⟩
      have after : (w.requestRebuild.reply p f.code
          (if 500 ≤ a.toNat ∧ a.toNat ≤ 4000 ∧ b.toNat ≤ 2000 ∧ c.toNat ≤ 10000 ∧ d.toNat ≤ 30
            then .ok else .okClamped)
          (be16 lead ++ be16 hold ++ be16 linger ++ [BitVec.ofNat 8 scroll])).lines = _ :=
        requestRebuild_lines w
      rw [after, if_neg kept]
      exact ⟨rfl, rfl, rfl, rfl, rfl, rfl⟩
  case colours =>
    exact ⟨_, runs_block (f := ⟨0x2B, beColour a ++ beColour b ++ beColour c ++ beColour d⟩) rfl rfl hc
      rfl (mapLines_touches _ _) (by decide), rfl⟩
  case hold =>
    have taken : (⟨(s.accept p ⟨0x2C, be16 x.toNat⟩).mapLines fun l =>
        { l with scoreHold := clampNat 0 10000 x.toNat }, okCode (outside 0 10000 x.toNat), []⟩ : Taken)
        = ⟨(s.accept p ⟨0x2C, be16 x.toNat⟩).mapLines fun l =>
          { l with scoreHold := min x.toNat 10000 },
          if x.toNat ≤ 10000 then .ok else .okClamped, []⟩ := by
      rw [clampNat_zero, okCode_of_outside]
      simp
    exact ⟨_, runs_block rfl rfl hc taken (mapLines_touches _ _) (by decide), rfl⟩

end Sys2Proof.Machine
end

section
/-! The data of the read commands, field by field in the order of their rules (R194; O60). -/

namespace Sys2Proof.Machine

/-! ## Fields (R194) -/

/-- A mark, 0 for set and on. -/
def markBytes (b : Bool) : List Byte := be8 (if b = true then 0 else 1)

/-- An optional field. -/
def optBytes (width : Nat) (x : Option (List Byte)) : List Byte :=
  match x with
  | none => List.replicate (width + 1) 0
  | some d => 1 :: d

/-- A set of flags, the first in bit 0. -/
def flagsBytes (xs : List Bool) : List Byte :=
  be8 (xs.foldr (fun b n => (if b = true then 1 else 0) + 2 * n) 0)

theorem beBool_eq (b : Bool) : beBool b = markBytes b := rfl

theorem beOption_eq {α : Type} (width : Nat) (enc : α → List Byte) (x : Option α) :
    beOption width enc x = optBytes width (x.map enc) := by
  cases x <;> rfl

theorem be8_flagByte (xs : List Bool) : be8 (flagByte xs) = flagsBytes xs := by
  have same : flagByte xs = xs.foldr (fun b n => (if b = true then 1 else 0) + 2 * n) 0 := by
    induction xs with
    | nil => rfl
    | cons b xs ih => rw [flagByte, ih, List.foldr_cons]
  rw [same, flagsBytes]

theorem beTag_eq (x : Option Nat) : beTag x = optBytes 1 (x.map be8) := beOption_eq 1 be8 x

theorem beHeadline_eq (x : Option Nat) : beHeadline x = optBytes 2 (x.map be16) :=
  beOption_eq 2 be16 x

theorem Vector.toList_eq_map {α : Type} {n : Nat} (v : Vector α n) :
    v.toList = (List.finRange n).map fun i => v[i] := by
  refine List.ext_getElem (by simp) fun k h₁ h₂ => ?_
  simp

/-- The values of the four slots or channels, in order. -/
theorem Vector.toList_flatMap_four {α β : Type} (v : Vector α 4) (f : α → List β) :
    v.toList.flatMap f = ([0, 1, 2, 3] : List (Fin 4)).flatMap fun i => f v[i] := by
  rw [Vector.toList_eq_map, List.flatMap_map]
  rfl

/-! ## The Book (R24) -/

theorem caps_bytes (caps : Vector Nat 10) : caps.toList.flatMap be8 =
    (List.range 10).flatMap fun o => be8 (caps[o]?.getD 0) := by
  have values : caps.toList = (List.range 10).map fun o => caps[o]?.getD 0 := by
    refine List.ext_getElem (by simp) fun k h₁ h₂ => ?_
    have within : k < 10 := by simpa using h₂
    simp [within]
  rw [values, List.flatMap_map]

theorem Book.policies_eq (b : Book) : b.policies =
    be8 b.mode.place ++ markBytes b.rotateOnTake ++ be16 b.masked.toNat ++
      (List.range 10).flatMap (fun o => be8 (b.caps[o]?.getD 0)) ++ be8 b.quota ++
      be16 b.quotaWindow ++ markBytes b.noDuplicates := by
  rw [Book.policies, caps_bytes]
  rfl

/-- Where tickets are distinct an entry's position is its place. -/
theorem position_of_getElem {s : State} (distinct : s.ticketsDistinct) {k : Nat} {e : Entry}
    (at_ : s.book.entries[k]? = some e) : s.book.position e.ticket = k + 1 := by
  obtain ⟨-, nodup, -⟩ := distinct
  obtain ⟨within, here⟩ := List.getElem?_eq_some_iff.mp at_
  have found : s.book.entries.findIdx? (·.ticket = e.ticket) = some k := by
    rw [List.findIdx?_eq_some_iff_getElem]
    refine ⟨within, decide_eq_true (congrArg _ here), fun j hj same => ?_⟩
    have tickets := List.pairwise_iff_getElem.mp nodup j k (by simp; omega) (by simpa using within) hj
    rw [List.getElem_map, List.getElem_map, here] at tickets
    exact tickets (of_decide_eq_true same)
  rw [Book.position, found]

/-- The staging status of the slot bound to a ticket. -/
def State.stagingPlace (s : State) (slot : Option (Fin 4)) : Nat :=
  match slot with
  | none => 0
  | some i => match s.slots[i].state with
    | .reserved => 1
    | .loading => 2
    | .checking => 3
    | .ready => 4
    | .fault => 5
    | _ => 0

/-- An entry of BOOK-READ at its position. -/
def State.entryAt (s : State) (e : Entry) (position : Nat) : List Byte :=
  let slot := ([0, 1, 2, 3] : List (Fin 4)).find? fun i => s.slots[i].ticket = some e.ticket
  be8 position ++ be16 e.ticket ++ be24 e.songId ++ be8 e.origin ++ be8 e.tier.place ++
    be8 e.round ++ optBytes 1 (e.tag.map be8) ++ be32 e.acceptedAt.toNat ++ markBytes e.moved ++
    be8 e.state.place ++ be8 (s.stagingPlace slot) ++
    optBytes 1 (slot.bind fun i => if s.slots[i].state = .fault then
      s.slots[i].fault.map fun f => be8 f.1.place else none)

theorem entryBytes_eq (s : State) (e : Entry) :
    s.entryBytes e = s.entryAt e (s.book.position e.ticket) := by
  have staging : s.staging e.ticket = s.stagingPlace (s.boundSlot e.ticket) := by
    unfold State.staging State.stagingPlace
    cases s.boundSlot e.ticket with
    | none => rfl
    | some i =>
      simp only
      cases s.slots[i].state <;> rfl
  have fault : (s.stagingFault e.ticket).map (fun r => be8 r.place) =
      (s.boundSlot e.ticket).bind fun i => if s.slots[i].state = .fault then
        s.slots[i].fault.map fun f => be8 f.1.place else none := by
    rw [State.stagingFault]
    split
    · simp_all
    next i bound =>
      rw [bound, Slot.shownFault, Option.bind_some]
      split
      · rw [Option.map_map]; rfl
      · rfl
  rw [State.entryBytes, staging, beOption_eq, fault, beTag_eq]
  rfl

/-! ## Slots (R77, R82) -/

theorem Track.lowest_eq (t : Track) : t.lowest = (t.notes.map (·.number)).min? := by
  rw [Track.lowest]
  cases t.notes with
  | nil => rfl
  | cons n ns => rw [List.map_cons, List.min?_cons', List.foldl_map]

theorem Track.highest_eq (t : Track) : t.highest = (t.notes.map (·.number)).max? := by
  rw [Track.highest]
  cases t.notes with
  | nil => rfl
  | cons n ns => rw [List.map_cons, List.max?_cons', List.foldl_map]

/-- The part that a tag names. -/
def PartTag.part : PartTag → Part
  | .b => .b
  | _ => .a

theorem isOf_iff {tag own : PartTag} (named : own ≠ .both) :
    tag.isOf own.part = true ↔ tag = .both ∨ tag = own := by
  cases own with
  | both => exact absurd rfl named
  | a => cases tag <;> decide
  | b => cases tag <;> decide

/-- The notes of a part, by their tags. -/
theorem Track.noteCount_eq (t : Track) {own : PartTag} (named : own ≠ .both) :
    t.noteCount own.part = (t.notes.filter fun n =>
      n.tag = .both ∨ n.tag = if t.partCount = 1 then .a else own).length := by
  have part : (if t.partCount = 1 then Part.a else own.part) =
      (if t.partCount = 1 then PartTag.a else own).part := by split <;> rfl
  have named' : (if t.partCount = 1 then PartTag.a else own) ≠ .both := by
    split
    · decide
    · exact named
  rw [Track.noteCount, List.countP_eq_length_filter, part]
  congr 2
  funext n
  exact Bool.eq_iff_iff.mpr ((isOf_iff named').trans decide_eq_true_iff.symm)

/-- The derived values of a checked track. -/
def Track.derived (t : Track) : List Byte :=
  let numbers := t.notes.map fun n => n.number
  let count := fun part : PartTag => (t.notes.filter fun n =>
    n.tag = .both ∨ n.tag = if t.partCount = 1 then .a else part).length
  be8 t.partCount ++ be8 t.originalKey ++ be32 t.duration ++ optBytes 1 (numbers.min?.map be8) ++
    optBytes 1 (numbers.max?.map be8) ++ be16 (count .a) ++ be16 (count .b) ++
    be16 t.lineCount ++ be32 t.endTime

theorem Track.derivedBytes_eq (t : Track) : t.derivedBytes = t.derived := by
  have a : t.noteCount .a = _ := t.noteCount_eq (own := .a) (by decide)
  have b : t.noteCount .b = _ := t.noteCount_eq (own := .b) (by decide)
  rw [Track.derivedBytes, a, b, beOption_eq, beOption_eq, Track.lowest_eq, Track.highest_eq]
  rfl

/-- One slot of SLOT-READ. -/
def Slot.shown (x : Slot) : List Byte :=
  let fault := if x.state = .fault then x.fault else none
  be8 x.state.place ++ optBytes 2 (x.ticket.map be16) ++ be16 x.bytes.length ++
    optBytes 2 (if x.state = .loading then some (be16 x.bytes.length) else none) ++
    optBytes 1 (fault.map fun f => be8 f.1.place) ++
    optBytes 2 (fault.bind fun f => f.2.map be16) ++
    optBytes 20 (if x.state = .ready ∨ x.state = .onStage then x.track.map Track.derived else none)

theorem Slot.record_eq (x : Slot) : x.record = x.shown := by
  have offset : (if x.state = .loading then some x.bytes.length else none).map be16 =
      if x.state = .loading then some (be16 x.bytes.length) else none := by split <;> rfl
  have fault : x.shownFault = if x.state = .fault then x.fault else none := rfl
  have checked : (if x.state = .ready || x.state = .onStage then x.track else none).map
      Track.derivedBytes =
      if x.state = .ready ∨ x.state = .onStage then x.track.map Track.derived else none := by
    simp only [Bool.or_eq_true, decide_eq_true_iff]
    split
    · rw [funext Track.derivedBytes_eq]
    · rfl
  have index : (x.shownFault.bind (·.2)).map be16 = x.shownFault.bind fun f => f.2.map be16 := by
    cases x.shownFault <;> rfl
  rw [Slot.record, beOption_eq, beOption_eq, beOption_eq, beOption_eq, beOption_eq, offset, checked,
    index, Option.map_map, fault]
  rfl

/-! ## The clock (R98) -/

theorem clockTurnBytes_eq (s : State) :
    let there : Bool := s.clock.state ≠ .stopped
    let ends := if there = true then s.clock.endTime else none
    s.clockTurnBytes = optBytes 4 (ends.map be32) ++
      optBytes 2 (if there = true then s.turn.map fun t => be16 t.ticket else none) ++
      optBytes 1 (ends.map fun e => markBytes (decide (e ≤ s.clock.position))) := by
  intro there ends
  have moving : there = true ↔ s.clock.state ≠ .stopped := decide_eq_true_iff
  have ends_eq : (if s.clock.state ≠ .stopped then s.clock.endTime else none) = ends :=
    if_congr moving.symm rfl rfl
  have ticket : (if s.clock.state ≠ .stopped then s.turn.map (·.ticket) else none).map be16 =
      if there = true then s.turn.map fun t => be16 t.ticket else none := by
    by_cases h : s.clock.state ≠ .stopped
    · rw [if_pos h, if_pos (moving.mpr h), Option.map_map]; rfl
    · rw [if_neg h, if_neg (h ∘ moving.mp)]; rfl
  rw [State.clockTurnBytes, beOption_eq, beOption_eq, beOption_eq, ends_eq, ticket, Option.map_map]
  rfl

/-! ## Lines, cache, font (R122, R133, R140) -/

/-- The slot that the title content comes from. -/
def TitleContent.slotByte : TitleContent → Option (List Byte)
  | .none => Option.none
  | .stage i => some (be8 i.val)
  | .nextUp i => some (be8 i.val)

/-- The data of LINE-WINDOW-READ. -/
def LineScheduler.shown (l : LineScheduler) : List Byte :=
  be8 l.canvas.place ++ be8 l.style.place ++ be8 l.titleRowsSetting ++ be8 l.lyricRows ++
    be16 l.guideSetting ++ be8 l.layout.titleRows ++ be8 l.layout.rows ++ be16 l.layout.guide ++
    be16 l.lead ++ be16 l.hold ++ be16 l.linger ++ be8 l.scrollTime ++
    optBytes 2 (l.scroll.map fun x => be8 x.done ++ be8 x.total) ++ markBytes l.rebuild ++
    be16 l.pending.length ++ optBytes 2 (l.pending.head?.map fun x => be16 x.index) ++
    be8 l.title.place ++ optBytes 1 l.title.slotByte ++
    optBytes 4 (l.scoreShow.map fun x => be16 x.headline ++ be16 x.left) ++
    be8 l.window.length ++ l.window.flatMap fun x => be16 x.index ++
      (if x.state = .leaving then [Config.leavingRow] else be8 x.row) ++ be8 x.state.place ++
      markBytes x.clipped ++ markBytes x.linger

theorem WindowLine.bytes_eq (x : WindowLine) : x.bytes = be16 x.index ++
    (if x.state = .leaving then [Config.leavingRow] else be8 x.row) ++ be8 x.state.place ++
    markBytes x.clipped ++ markBytes x.linger := by
  have leaving : x.isLeaving = true ↔ x.state = .leaving := decide_eq_true_iff
  rw [WindowLine.bytes, if_congr leaving rfl rfl]
  rfl

theorem LineScheduler.readBytes_eq (l : LineScheduler) : l.readBytes = l.shown := by
  have slot : l.title.slot.map (fun i : Fin 4 => be8 i.val) = l.title.slotByte := by
    cases l.title <;> rfl
  unfold LineScheduler.shown
  simp only [LineScheduler.readBytes, beOption_eq, slot, beList, funext WindowLine.bytes_eq,
    Layout.bytes, beBool_eq, List.append_assoc]

/-- The entries of a kind, counted. -/
def Cache.countBytes (c : Cache) (f : CacheEntry → Bool) : List Byte :=
  be16 (c.entries.filter f).length

theorem countState_eq (c : Cache) (n : Nat) {f : CacheEntry → Bool}
    (same : ∀ e : CacheEntry, f e = decide (e.state.place = n)) :
    be16 (c.countState n) = c.countBytes f := by
  rw [Cache.countState, List.countP_eq_length_filter, Cache.countBytes, funext same]

theorem Cache.statusBytes_eq (c : Cache) : c.statusBytes =
    c.countBytes (fun e => e.state = .free) ++ c.countBytes (fun e => e.isFetching) ++
      c.countBytes (fun e => e.state = .resident) ++ c.countBytes (fun e => e.state = .stale) ++
      c.countBytes (fun e => e.state = .fetching .demand) ++
      c.countBytes (fun e => e.state = .fetching .prefetch) ++ c.countBytes (fun e => 0 < e.pins) ++
      c.countBytes (fun e => e.substitute) ++
      optBytes 2 (c.inProgress.bind fun i => (c.entries[i]?).bind fun e =>
        e.code.map fun k => be16 k.toNat) := by
  have free := countState_eq c 0 (f := fun e => e.state = .free) fun e => by cases e.state <;> rfl
  have fetching := countState_eq c 1 (f := fun e => e.isFetching) fun e => by
    rw [CacheEntry.isFetching]; cases e.state <;> rfl
  have resident := countState_eq c 2 (f := fun e => e.state = .resident) fun e => by
    cases e.state <;> rfl
  have stale := countState_eq c 3 (f := fun e => e.state = .stale) fun e => by cases e.state <;> rfl
  have code : (c.inProgress.bind fun i => (c.entry i).code).map beCode =
      c.inProgress.bind fun i => (c.entries[i]?).bind fun e => e.code.map fun k => be16 k.toNat := by
    cases c.inProgress with
    | none => rfl
    | some i =>
      rw [Option.bind_some, Option.bind_some, Cache.entry, List.getD_eq_getElem?_getD]
      cases c.entries[i]? <;> rfl
  simp only [Cache.statusBytes, List.flatMap_cons, List.flatMap_nil, List.append_nil, free, fetching,
    resident, stale, beOption_eq, code, List.append_assoc]
  simp only [Cache.countFetching, List.countP_eq_length_filter, Cache.countBytes]

/-- The operation in progress, program 0 and erase 1, and the time since it started. -/
def StoreState.opField : StoreState → Option (List Byte)
  | .busy (.program _ _) n => some (0 :: be16 n)
  | .busy (.erase _) n => some (1 :: be16 n)
  | _ => none

theorem StoreState.opBytes_eq (x : StoreState) : x.opBytes = optBytes 3 x.opField := by
  cases x with
  | busy op n => cases op <;> rfl
  | _ => rfl

/-- Where an entry of a duplicate-free list stands. -/
theorem findIdx?_of_nodup {xs : List Nat} (nodup : xs.Nodup) {n i : Nat} (at_ : xs[n]? = some i) :
    xs.findIdx? (· = i) = some n := by
  obtain ⟨within, here⟩ := List.getElem?_eq_some_iff.mp at_
  rw [List.findIdx?_eq_some_iff_getElem]
  refine ⟨within, decide_eq_true here, fun j hj same => ?_⟩
  exact List.pairwise_iff_getElem.mp nodup j n (by omega) within hj
    ((of_decide_eq_true same).trans here.symm)

theorem queryBytes_eq {c : Cache} {i n : Nat} {e : CacheEntry} (at_ : c.entries[i]? = some e)
    (recent : c.recency[n]? = some i) (nodup : c.recency.Nodup) : c.queryBytes i =
      be8 e.state.place ++ be16 e.pins ++ optBytes 1 (e.bitmap.map fun b => be8 b.advance) ++
        markBytes e.substitute ++
        optBytes 1 (match e.state with
          | .fetching c => some (be8 c.place)
          | _ => none) ++ be16 n := by
  have entry : c.entry i = e := by
    rw [Cache.entry, List.getD_eq_getElem?_getD, at_, Option.getD_some]
  have fetch : e.fetchClass.map (fun x : FetchClass => be8 x.place) = (match e.state with
      | .fetching c => some (be8 c.place)
      | _ => none) := by
    rw [CacheEntry.fetchClass]
    cases e.state <;> rfl
  rw [Cache.queryBytes, entry, findIdx?_of_nodup nodup recent, Option.getD_some, beOption_eq,
    beOption_eq, fetch, beBool_eq]

/-! ## Display, voice, results (R153, R173, R181) -/

theorem State.displayBytes_eq (s : State) : s.displayBytes =
    be8 s.video.path.place ++ optBytes 1 (s.video.runClass.map fun c => be8 c.place) ++
      be8 s.video.runCount ++ optBytes 1 (s.video.locked.map fun f => be8 f.place) ++
      be8 s.video.freeRun.place ++ be8 s.lines.canvas.place ++ be8 s.lines.layout.titleRows ++
      be8 s.lines.layout.rows ++ be16 s.lines.layout.guide ++ be8 s.video.power.place ++
      markBytes s.video.switch ++ be8 s.video.content.place ++ markBytes s.video.invert ++
      be8 s.video.scope.place ++ be8 s.video.planeOpacity ++ be24 s.video.shade.toNat ++
      be8 s.video.shadeOpacity ++ be24 s.video.fill.toNat ++ markBytes s.video.fmark ++
      be8 s.video.glyphLate ++ be8 s.video.postLate ++ be8 s.video.lineClipped ++
      optBytes 1 (s.video.lastKeyed.map fun b => flagsBytes [b.title, b.lyric, b.guide]) := by
  unfold State.displayBytes
  simp only [beOption_eq, Bands.byte, be8_flagByte, beBool_eq, beColour, Layout.bytes,
    List.append_assoc]

/-- A sung pitch. -/
theorem FirstMiss.bytes_eq (x : FirstMiss) :
    x.bytes = be32 x.time ++ beInt16 x.reference ++ pitchBytes x.pitch := rfl

theorem assessed_place (c : Channel) (track : Option Track) : be8 (c.assessed track).place =
    if track.any (fun t => t.partCount = 1) then [0] else be8 c.part.place := by
  cases track with
  | none => rfl
  | some t =>
    have own : c.assessed (some t) = if t.partCount = 1 then .a else c.part := rfl
    rw [own, Option.any_some]
    by_cases one : t.partCount = 1
    · rw [if_pos one, if_pos (decide_eq_true one)]; rfl
    · rw [if_neg one, if_neg (by simpa using one)]

/-- The flags of a channel. -/
def ChannelFlags.shown (f : ChannelFlags) : List Byte :=
  flagsBytes [f.partial_, f.lateJoin, f.saturated, f.partChanged]

theorem ChannelFlags.byte_eq (f : ChannelFlags) : be8 f.byte = f.shown := be8_flagByte _

/-- One channel of VOICE-READ. -/
def Channel.shown (c : Channel) (track : Option Track) : List Byte :=
  markBytes c.enabled ++ be8 c.part.place ++
      (if track.any (fun t => t.partCount = 1) then [0] else be8 c.part.place) ++
      be24 c.colour.toNat ++ markBytes c.takingPart ++ be16 c.judged ++ be16 c.hits ++
      be16 c.notes ++ be16 c.kept ++ be16 c.strays ++
      optBytes 6 (c.openNote.map fun o => be16 o.index ++ be16 o.a ++ be16 o.h) ++
      be8 c.lock.place ++ be8 c.hitRun ++ be8 c.missRun ++ be8 c.lockCount ++
      c.flags.shown ++
      markBytes c.frozen ++ optBytes 8 (c.firstMiss.map FirstMiss.bytes) ++
      optBytes 6 (c.lastFrame.map fun f => pitchBytes f.pitch ++ be32 f.at_.toNat)

theorem Channel.record_eq (c : Channel) (track : Option Track) :
    c.record track = c.shown track := by
  unfold Channel.shown
  simp only [Channel.record, assessed_place, beOption_eq, ChannelFlags.byte_eq, beBool_eq,
    beColour, beTime]

/-- The scoring settings in force. -/
theorem Scoring.bytes_eq (g : Scoring) : g.bytes = be16 g.gate ++ be8 g.tolerance ++ be16 g.grace ++
    be16 g.latency ++ markBytes g.folding ++ be8 g.pitchWeight ++ be8 g.noteWeight ++
    be8 g.strayCost := rfl

theorem ToneResult.bytes_eq (r : ToneResult) : r.bytes = be8 r.mic.val ++ be8 r.note ++
    be8 r.voiced ++ optBytes 2 (r.average.map be16) ++ be8 r.outcome.place := by
  rw [ToneResult.bytes, beOption_eq]

theorem ChannelResult.bytes_eq (r : ChannelResult) : r.bytes =
    be8 r.mic.val ++ be8 r.part.place ++ be8 r.assessed.place ++ markBytes r.final.isSome ++
      be16 r.judged ++ be16 r.hits ++ be16 r.strays ++ be16 r.notes ++ be16 r.kept ++
      be16 (r.final.getD 0) ++ be8 r.lockCount ++
      r.flags.shown ++
      optBytes 8 (r.firstMiss.map FirstMiss.bytes) := by
  simp only [ChannelResult.bytes, beOption_eq, ChannelFlags.byte_eq, markBytes]

/-- The flags of a turn. -/
def TurnFlags.shown (f : TurnFlags) : List Byte :=
  flagsBytes [f.rewound, f.skippedAhead, f.keyChanged, f.tempoChanged, f.partChanged, f.clockSlip]

theorem TurnFlags.byte_eq (f : TurnFlags) : be8 f.byte = f.shown := be8_flagByte _

theorem ResultRecord.bytes_eq (r : ResultRecord) (held age : Nat) : r.bytes held age =
    be8 held ++ be8 age ++ be16 r.ticket ++ be24 r.songId ++ be8 r.origin ++
      optBytes 1 (r.tag.map be8) ++ be8 r.reason.place ++ r.flags.shown ++ beInt8 r.key ++
      be32 r.startedAt.toNat ++ be32 r.endedAt.toNat ++ be32 (r.endedAt - r.startedAt).toNat ++
      optBytes 2 (r.headline.map be16) ++ markBytes r.collected ++ be8 r.channels.length ++
      r.channels.flatMap fun c => c.bytes := by
  simp only [ResultRecord.bytes, beTag_eq, TurnFlags.byte_eq, beHeadline_eq, beBool_eq, beList,
    beTime, List.append_assoc]

theorem Turn.bytes_eq (t : Turn) : t.bytes = be16 t.ticket ++ be24 t.songId ++ be8 t.slot.val ++
    be8 t.origin ++ be8 t.tier.place ++ optBytes 1 (t.tag.map be8) ++ be32 t.startedAt.toNat ++
    t.flags.shown := by
  rw [Turn.bytes, beTag_eq, TurnFlags.byte_eq]
  rfl

theorem BestEntry.bytes_eq (x : BestEntry) : x.bytes = be16 x.ticket ++ be24 x.songId ++
    be8 x.origin ++ optBytes 1 (x.tag.map be8) ++ be16 x.headline ++ be32 x.endedAt.toNat := by
  rw [BestEntry.bytes, beTag_eq]
  rfl

theorem Panel.bytes_eq (x : Panel) : x.bytes = markBytes x.enabled ++ be8 x.presence.place ++
    be8 x.missRun ++ be8 x.errors ++
    optBytes 6 (x.stored.map fun v => be8 v.1.toNat ++ v.2.payload) := by
  rw [Panel.bytes, beOption_eq, beBool_eq]

/-- The record of an age in the ring, the latest first. -/
theorem recordOfAge_eq {ring : List ResultRecord} {k : Nat} {r : ResultRecord}
    (at_ : ring.reverse[k]? = some r) : recordOfAge ring k = some (r, k) := by
  rw [recordOfAge, at_]
  rfl

theorem recordOfAge_eq_none {ring : List ResultRecord} {k : Nat} (h : ring.length ≤ k) :
    recordOfAge ring k = none := by
  rw [recordOfAge, List.getElem?_eq_none (by simpa using h)]
  rfl

/-- The latest record of a ticket. -/
theorem recordOfTicket_eq {ring : List ResultRecord} {k ticket : Nat} {r : ResultRecord}
    (nonzero : ticket ≠ 0) (at_ : ring.reverse[k]? = some r) (own : ticket = r.ticket)
    (latest : ∀ j r', j < k → ring.reverse[j]? = some r' → r'.ticket ≠ r.ticket) :
    recordOfTicket ring ticket = some (r, k) := by
  obtain ⟨within, here⟩ := List.getElem?_eq_some_iff.mp at_
  rw [recordOfTicket, if_neg nonzero, List.find?_eq_some_iff_getElem]
  refine ⟨decide_eq_true own.symm, k, by simpa using within, by simp [← here], fun j hj => ?_⟩
  have other := latest j _ hj (List.getElem?_eq_getElem (by omega))
  simpa [own] using other

theorem recordOfTicket_eq_none {ring : List ResultRecord} {ticket : Nat}
    (h : ticket = 0 ∨ ∀ r ∈ ring, r.ticket ≠ ticket) : recordOfTicket ring ticket = none := by
  rw [recordOfTicket]
  split
  · rfl
  next nonzero =>
    rw [List.find?_eq_none]
    rintro ⟨r, k⟩ mem
    have held : r ∈ ring := List.mem_reverse.mp (List.fst_mem_of_mem_zipIdx mem)
    simpa using h.resolve_left nonzero r held

end Sys2Proof.Machine
end

section
/-! The reads change nothing and answer with their block's data (O60). -/

namespace Sys2Proof.Machine

/-- The entries of BOOK-READ stand at their positions. -/
theorem given_bytes {s : State} (distinct : s.ticketsDistinct) {start : Nat} (least : 1 ≤ start)
    (count : Nat) :
    let given := (s.book.entries.drop (start - 1)).take count
    given.flatMap s.entryBytes = (given.zipIdx start).flatMap fun x => s.entryAt x.1 x.2 := by
  intro given
  have each : given.map s.entryBytes = (given.zipIdx start).map fun x => s.entryAt x.1 x.2 := by
    refine List.ext_getElem (by simp) fun k h₁ h₂ => ?_
    have within : k < given.length := by simpa using h₁
    have at_ : s.book.entries[start - 1 + k]? = some given[k] := by
      have here := List.getElem?_eq_getElem within
      rw [List.getElem?_take] at here
      split at here
      · rwa [List.getElem?_drop] at here
      · exact nomatch here
    rw [List.getElem_map, List.getElem_map, List.getElem_zipIdx, entryBytes_eq,
      position_of_getElem distinct at_]
    congr 1
    omega
  rw [List.flatMap_def, each, ← List.flatMap_def]

theorem bookRead_bytes {s : State} (distinct : s.ticketsDistinct) {start : Nat} (least : 1 ≤ start)
    (count : Nat) :
    let given := (s.book.entries.drop (start - 1)).take count
    s.book.summary ++ beList s.entryBytes given =
      be8 s.book.entries.length ++ markBytes s.book.held ++ be8 s.book.mode.place ++
        markBytes s.book.rotateOnTake ++ be8 s.book.lowest ++ be16 s.book.nextTicket ++
        be8 given.length ++ (given.zipIdx start).flatMap fun x => s.entryAt x.1 x.2 := by
  intro given
  have entries : given.flatMap s.entryBytes = _ := given_bytes distinct least count
  rw [beList, entries, Book.summary, ← List.append_assoc, beBool_eq, beBool_eq]

/-- The payload of a VERDICT, as a panel's stored verdict is read. -/
def Verdict.shown : Verdict → List Byte
  | .accepted t k => 1 :: (be16 t ++ be8 k ++ [0])
  | .refused r => [2, 0, 0, 0, BitVec.ofNat 8 r.number]
  | .cancelled => [3, 0, 0, 0, 0]
  | .notYours => [4, 0, 0, 0, 0]
  | .onStage => [5, 0, 0, 0, 0]
  | .unknown => [6, 0, 0, 0, 0]

theorem Verdict.payload_eq (v : Verdict) : v.payload = v.shown := by cases v <;> rfl

theorem fontStatusBytes_eq (f : FontPort) : f.statusBytes = be8 f.store.place ++
    optBytes 7 (f.header.map fun h => be16 h.glyphCount ++ be32 h.tableBase ++ be8 h.sizeMiB) ++
    be8 f.protection.place ++ markBytes f.latch ++ markBytes f.fault ++
    optBytes 3 f.store.opField := by
  rw [FontPort.statusBytes, beOption_eq, StoreState.opBytes_eq, beBool_eq, beBool_eq]

/-- GLYPH-QUERY of a code that no entry holds, and of one that an entry holds first. -/
theorem find_eq_none {c : Cache} {k : Code} (h : ∀ e ∈ c.entries, e.code ≠ some k) :
    c.find k = none := by
  rw [Cache.find, List.findIdx?_eq_none_iff]
  exact fun e mem => decide_eq_false (h e mem)

theorem find_eq_some {c : Cache} {k : Code} {i : Nat} {e : CacheEntry} (at_ : c.entries[i]? = some e)
    (own : e.code = some k) (first : ∀ j e', j < i → c.entries[j]? = some e' → e'.code ≠ some k) :
    c.find k = some i := by
  obtain ⟨within, here⟩ := List.getElem?_eq_some_iff.mp at_
  rw [Cache.find, List.findIdx?_eq_some_iff_getElem]
  exact ⟨within, decide_eq_true (by rw [here]; exact own), fun j hj same =>
    first j _ hj (List.getElem?_eq_getElem (by omega)) (of_decide_eq_true same)⟩

theorem Track.detailBytes_eq (t : Track) : t.detailBytes =
    be8 t.title.length ++ t.title.flatMap (fun k => be16 k.toNat) ++ be8 t.artist.length ++
      t.artist.flatMap (fun k => be16 k.toNat) ++ be8 t.spans.length ++
      t.spans.flatMap fun y => be32 y.1 ++ be32 y.2 := by
  simp only [Track.detailBytes, beList, List.append_assoc]
  rfl

/-- SLOT-DETAIL of a slot. -/
def detailBlock (i : Fin 4) (s : State) : Taken :=
  match s.slots[i].track with
  | some t =>
    if s.slots[i].state = .ready || s.slots[i].state = .onStage then readOk s t.detailBytes
    else refuse s .state
  | none => refuse s .state

theorem detailBlock_of_none {i : Fin 4} {s : State} (h : s.slots[i].track = none) :
    detailBlock i s = refuse s .state := by
  rw [detailBlock, h]

theorem detailBlock_of_some {i : Fin 4} {s : State} {t : Track} (h : s.slots[i].track = some t) :
    detailBlock i s = if s.slots[i].state = .ready ∨ s.slots[i].state = .onStage then
      readOk s t.detailBytes else refuse s .state := by
  rw [detailBlock, h]
  simp only [Bool.or_eq_true, decide_eq_true_iff]

theorem voiceRead_bytes (s : State) : be8 s.voice.audio.place ++ s.voice.scoring.bytes ++
    beOption 4 ToneCheck.bytes s.voice.tone ++ beOption 7 ToneResult.bytes s.voice.lastTone ++
    s.voice.channels.toList.flatMap (fun c => c.record s.stageTrack) =
    be8 s.voice.audio.place ++ be16 s.voice.scoring.gate ++ be8 s.voice.scoring.tolerance ++
      be16 s.voice.scoring.grace ++ be16 s.voice.scoring.latency ++
      markBytes s.voice.scoring.folding ++ be8 s.voice.scoring.pitchWeight ++
      be8 s.voice.scoring.noteWeight ++ be8 s.voice.scoring.strayCost ++
      optBytes 4 (s.voice.tone.map ToneCheck.bytes) ++
      optBytes 7 (s.voice.lastTone.map fun r => be8 r.mic.val ++ be8 r.note ++ be8 r.voiced ++
        optBytes 2 (r.average.map be16) ++ be8 r.outcome.place) ++
      ([0, 1, 2, 3] : List (Fin 4)).flatMap fun m => s.voice.channels[m].shown s.stageTrack := by
  rw [Scoring.bytes_eq, beOption_eq, beOption_eq, funext ToneResult.bytes_eq,
    Vector.toList_flatMap_four]
  simp only [Channel.record_eq, List.append_assoc]

/-- RESULT-READ by ticket and by age. -/
theorem resultReadBlock_ticket (v : Nat) (s : State) : resultReadBlock 0 v s =
    match recordOfTicket s.ring v with
    | some (r, age) => readOk s (r.bytes s.ring.length age)
    | none => refuse s .notFound := rfl

theorem resultReadBlock_age {v : Nat} (h : v ≤ 15) (s : State) : resultReadBlock 1 v s =
    match recordOfAge s.ring v with
    | some (r, age) => readOk s (r.bytes s.ring.length age)
    | none => refuse s .notFound := if_neg (Nat.not_lt.mpr h)

theorem resultReadBlock_range {x : Byte} {v : Nat} (h : 2 ≤ x.toNat ∨ x = 1 ∧ 15 < v) (s : State) :
    resultReadBlock x v s = refuse s .range := by
  rcases h with two | ⟨rfl, beyond⟩
  · have zero : x ≠ 0 := by rintro rfl; exact absurd two (by decide)
    have one : x ≠ 1 := by rintro rfl; exact absurd two (by decide)
    exact (if_neg zero).trans (if_neg one)
  · exact if_pos beyond

/-! ## Each read runs (R24, R41, R45, R82, R98, R122, R133, R140, R153, R173, R181, R184, R193) -/

section
variable {s : State} {p : Port}

theorem policies_run (hc : s.canTake (.bookPolicyRead p) = true) :
    ∃ u, Runs (.bookPolicyRead p) [] .ok s.book.policies s u :=
  runs_unchanged (f := ⟨0x0E, []⟩) rfl rfl hc rfl

theorem bookRead_none {a n : Byte} (hc : s.canTake (.bookRead p a n) = true) (none_ : a = 0 ∨ n = 0) :
    ∃ u, Runs (.bookRead p a n) [] .range [] s u :=
  runs_unchanged (f := ⟨0x0D, [a, n]⟩) rfl rfl hc (if_pos (by simpa using none_))

theorem bookRead_run {a n : Byte} (hc : s.canTake (.bookRead p a n) = true)
    (some_ : ¬ (a = 0 ∨ n = 0)) :
    ∃ u, Runs (.bookRead p a n) [] (if n.toNat ≤ 8 then .ok else .okClamped)
      (s.book.summary ++ beList s.entryBytes
        ((s.book.entries.drop (a.toNat - 1)).take (min 8 n.toNat))) s u := by
  have code : okCode (8 < n.toNat) = if n.toNat ≤ 8 then .ok else .okClamped :=
    okCode_eq (by rw [decide_eq_true_iff, Nat.not_le])
  exact runs_unchanged (f := ⟨0x0D, [a, n]⟩) rfl rfl hc
    ((if_neg (by simpa using some_)).trans (congrArg (Taken.mk _ · _) code))

theorem panelRead_run (hc : s.canTake (.panelRead p) = true) : ∃ u, Runs (.panelRead p) [] .ok
    (be8 s.loop.phase.place ++ be8 s.loop.absentPointer.val ++ be16 s.loop.replyWindow ++
      be16 s.loop.cycleGap ++ s.loop.panels.toList.flatMap Panel.bytes) s u :=
  runs_unchanged (f := ⟨0x12, []⟩) rfl rfl hc rfl

theorem stageRead_run (hc : s.canTake (.stageRead p) = true) : ∃ u, Runs (.stageRead p) [] .ok
    (be8 (if s.turn.isSome = true then 1 else 0) ++ markBytes s.autoEnd ++
      optBytes 15 (s.turn.map Turn.bytes)) s u := by
  rw [← beOption_eq]
  exact runs_unchanged (f := ⟨0x17, []⟩) rfl rfl hc rfl

theorem slotRead_run (hc : s.canTake (.slotRead p) = true) : ∃ u, Runs (.slotRead p) [] .ok
    (be8 s.depth ++ optBytes 1 (s.loadingSlot.map fun i => be8 i.val) ++
      ([0, 1, 2, 3] : List (Fin 4)).flatMap fun i => s.slots[i].shown) s u := by
  have run : ∃ u, Runs (.slotRead p) [] .ok (be8 s.depth ++
      beOption 1 (fun i : Fin 4 => be8 i.val) s.loadingSlot ++ s.slots.toList.flatMap Slot.record) s u :=
    runs_unchanged (f := ⟨0x1D, []⟩) rfl rfl hc rfl
  rwa [beOption_eq, Vector.toList_flatMap_four, funext Slot.record_eq] at run

theorem slotDetail_range {n : Byte} (hc : s.canTake (.slotDetail p n) = true) (h : ¬ n.toNat < 4) :
    ∃ u, Runs (.slotDetail p n) [] .range [] s u := by
  refine runs_unchanged (f := ⟨0x1E, [n]⟩) rfl rfl hc ?_
  rw [show slotOf n = none from dif_neg h]
  rfl

theorem slotDetail_run {n : Byte} (hc : s.canTake (.slotDetail p n) = true) (h : n.toNat < 4)
    {r : ResultCode} {d : List Byte}
    (block : detailBlock ⟨n.toNat, h⟩ (s.accept p ⟨0x1E, [n]⟩) = ⟨s.accept p ⟨0x1E, [n]⟩, r, d⟩) :
    ∃ u, Runs (.slotDetail p n) [] r d s u := by
  refine runs_unchanged (f := ⟨0x1E, [n]⟩) rfl rfl hc ?_
  rw [show slotOf n = some ⟨n.toNat, h⟩ from dif_pos h]
  exact block

theorem clockRead_run (hc : s.canTake (.clockRead p) = true) : ∃ u, Runs (.clockRead p) [] .ok
    (be8 s.clock.state.place ++ be32 s.clock.position ++ be16 s.clock.accumulator ++
      be16 s.clock.tempo ++ beInt8 s.clock.key ++ be8 s.clock.interlude.place ++
      be16 s.clock.slipWindow ++ optBytes 4 (s.clock.lastSync.map beInt32) ++ s.clockTurnBytes) s u := by
  rw [← beOption_eq]
  exact runs_unchanged (f := ⟨0x27, []⟩) rfl rfl hc rfl

theorem lineWindowRead_run (hc : s.canTake (.lineWindowRead p) = true) :
    ∃ u, Runs (.lineWindowRead p) [] .ok s.lines.shown s u := by
  rw [← LineScheduler.readBytes_eq]
  exact runs_unchanged (f := ⟨0x2D, []⟩) rfl rfl hc rfl

theorem cacheStatus_run (hc : s.canTake (.cacheStatus p) = true) :
    ∃ u, Runs (.cacheStatus p) [] .ok s.cache.statusBytes s u :=
  runs_unchanged (f := ⟨0x35, []⟩) rfl rfl hc rfl

theorem glyphQuery_missing {k : Code} (hc : s.canTake (.glyphQuery p k) = true)
    (found : s.cache.find k = none) : ∃ u, Runs (.glyphQuery p k) [] .notFound [] s u := by
  refine runs_unchanged (f := ⟨0x36, beCode k⟩) rfl rfl hc ?_
  rw [show (s.accept p ⟨0x36, beCode k⟩).cache.find k = none from found]
  rfl

theorem glyphQuery_run {k : Code} {i : Nat} (hc : s.canTake (.glyphQuery p k) = true)
    (found : s.cache.find k = some i) :
    ∃ u, Runs (.glyphQuery p k) [] .ok (s.cache.queryBytes i) s u := by
  refine runs_unchanged (f := ⟨0x36, beCode k⟩) rfl rfl hc ?_
  rw [show (s.accept p ⟨0x36, beCode k⟩).cache.find k = some i from found]
  rfl

theorem fontStatus_run (hc : s.canTake (.fontStatus p) = true) :
    ∃ u, Runs (.fontStatus p) [] .ok s.font.statusBytes s u :=
  runs_unchanged (f := ⟨0x37, []⟩) rfl rfl hc rfl

theorem displayStatus_run (hc : s.canTake (.displayStatus p) = true) :
    ∃ u, Runs (.displayStatus p) [] .ok s.displayBytes s u :=
  runs_unchanged (f := ⟨0x3E, []⟩) rfl rfl hc rfl

theorem voiceRead_run (hc : s.canTake (.voiceRead p) = true) : ∃ u, Runs (.voiceRead p) [] .ok
    (be8 s.voice.audio.place ++ s.voice.scoring.bytes ++ beOption 4 ToneCheck.bytes s.voice.tone ++
      beOption 7 ToneResult.bytes s.voice.lastTone ++
      s.voice.channels.toList.flatMap fun c => c.record s.stageTrack) s u :=
  runs_unchanged (f := ⟨0x44, []⟩) rfl rfl hc rfl

theorem bestRead_run (hc : s.canTake (.bestRead p) = true) : ∃ u, Runs (.bestRead p) [] .ok
    (be8 s.best.length ++ s.best.flatMap BestEntry.bytes) s u :=
  runs_unchanged (f := ⟨0x48, []⟩) rfl rfl hc rfl

theorem ident_run (hc : s.canTake (.ident p) = true) : ∃ u, Runs (.ident p) [] .ok
    [0x72, 0x40, 0x01, BitVec.ofNat 8 (Machine.Port.place p)] s u :=
  runs_unchanged (f := ⟨0x4B, []⟩) rfl rfl hc rfl

theorem resultRead_run {x : Byte} {v : BitVec 16} (hc : s.canTake (.resultRead p x v) = true)
    {r : ResultCode} {d : List Byte}
    (block : ∀ a : State, a.ring = s.ring → resultReadBlock x v.toNat a = ⟨a, r, d⟩) :
    ∃ u, Runs (.resultRead p x v) [] r d s u :=
  runs_unchanged (f := ⟨0x45, x :: be16 v.toNat⟩) rfl rfl hc (block _ rfl)

end

/-- Settles O60: each read by its block, whose data the lemmas above spell out. -/
theorem readsChangeNothing : Obligations.ReadsChangeNothing := by
  unfold Obligations.ReadsChangeNothing
  intro mark opt flags pitch firstMiss turnFlags channelFlags
  have marks : mark = markBytes := rfl
  have opts : opt = optBytes := by funext width x; cases x <;> rfl
  have sets : flags = flagsBytes := rfl
  have pitches : pitch = pitchBytes := by funext x; cases x <;> rfl
  have misses : firstMiss = FirstMiss.bytes := by
    funext x
    change be32 x.time ++ beInt16 x.reference ++ pitch x.pitch = _
    rw [pitches]
    rfl
  have ofTurn : turnFlags = TurnFlags.shown := rfl
  have ofChannel : channelFlags = ChannelFlags.shown := rfl
  clear_value mark opt flags pitch firstMiss turnFlags channelFlags
  subst marks opts sets pitches misses ofTurn ofChannel
  refine ⟨fun s p => ?reads, ?places⟩
  case places =>
    exact ⟨rfl, rfl, rfl, rfl, rfl, rfl, rfl, rfl, rfl, rfl, rfl, rfl, rfl, rfl, rfl, rfl, rfl,
      fun _ _ => rfl, rfl, rfl, rfl, rfl, rfl, rfl, rfl, rfl, rfl, rfl, rfl⟩
  case reads =>
    intro four
    refine ⟨fun hc => ?policies, fun a n hc => ?book, fun hc => ?panels, fun hc => ?stage,
      fun hc => ?slots, fun n hc => ?detail, fun hc => ?clock, fun hc => ?lines, fun hc => ?cache,
      fun k hc => ?glyph, fun hc => ?font, fun hc => ?display, fun hc => ?voice, fun hc => ?best,
      fun hc => ?ident, fun x v hc => ?result⟩
    case policies =>
      have run := policies_run hc
      rw [Book.policies_eq] at run
      exact run
    case book =>
      by_cases none_ : a = 0 ∨ n = 0
      · rw [if_pos none_]
        exact bookRead_none hc none_
      · rw [if_neg none_]
        obtain ⟨u, run⟩ := bookRead_run hc none_
        refine ⟨_, u, run, ?_⟩
        intro given distinct
        have least : 1 ≤ a.toNat := by
          have nonzero : a ≠ 0 := fun zero => none_ (.inl zero)
          bv_omega
        exact bookRead_bytes distinct least _
    case panels =>
      have run := panelRead_run hc
      rw [funext Panel.bytes_eq] at run
      simp only [Verdict.payload_eq] at run
      exact run
    case stage =>
      have run := stageRead_run hc
      rw [funext Turn.bytes_eq] at run
      exact run
    case slots => exact slotRead_run hc
    case detail =>
      by_cases h : n.toNat < 4
      · rw [dif_pos h]
        intro x
        cases track : x.track with
        | none => exact slotDetail_run hc h (detailBlock_of_none track)
        | some t =>
          have block := detailBlock_of_some (i := ⟨n.toNat, h⟩) (s := s.accept p ⟨0x1E, [n]⟩) track
          rw [Track.detailBytes_eq] at block
          simp only
          by_cases checked : x.state = .ready ∨ x.state = .onStage
          · rw [if_pos checked]
            exact slotDetail_run hc h (block.trans (if_pos checked))
          · rw [if_neg checked]
            exact slotDetail_run hc h (block.trans (if_neg checked))
      · rw [dif_neg h]
        exact slotDetail_range hc h
    case clock =>
      intro there ends
      have run := clockRead_run hc
      rw [clockTurnBytes_eq, ← List.append_assoc, ← List.append_assoc] at run
      exact run
    case lines => exact lineWindowRead_run hc
    case cache =>
      intro count
      have run := cacheStatus_run hc
      rw [Cache.statusBytes_eq] at run
      exact run
    case glyph =>
      refine ⟨fun free => glyphQuery_missing hc (find_eq_none free), fun i e at_ own first => ?_⟩
      obtain ⟨u, run⟩ := glyphQuery_run hc (find_eq_some at_ own first)
      exact ⟨_, u, run, fun n recent nodup => queryBytes_eq at_ recent nodup⟩
    case font =>
      have run := fontStatus_run hc
      rw [fontStatusBytes_eq] at run
      exact run
    case display =>
      have run := displayStatus_run hc
      rw [State.displayBytes_eq] at run
      exact run
    case voice =>
      intro g
      have run := voiceRead_run hc
      rw [voiceRead_bytes] at run
      exact run
    case best =>
      have run := bestRead_run hc
      rw [funext BestEntry.bytes_eq] at run
      exact run
    case ident =>
      have run := ident_run hc
      cases p <;> exact run
    case result =>
      refine ⟨fun beyond => ?_, fun zero missing => ?_, fun one small old => ?_,
        fun k r at_ which => ?_⟩
      · exact resultRead_run hc fun a _ => resultReadBlock_range beyond a
      · subst zero
        refine resultRead_run hc fun a ring => (resultReadBlock_ticket _ a).trans ?_
        rw [ring, recordOfTicket_eq_none (missing.imp_left (congrArg BitVec.toNat))]
        rfl
      · subst one
        refine resultRead_run hc fun a ring => (resultReadBlock_age small a).trans ?_
        rw [ring, recordOfAge_eq_none old]
        rfl
      · have taken : ∀ a : State, a.ring = s.ring → resultReadBlock x v.toNat a =
            readOk a (r.bytes s.ring.length k) := fun a ring => by
          rcases which with ⟨rfl, rfl, small⟩ | ⟨rfl, nonzero, own, latest⟩
          · rw [resultReadBlock_age small, ring, recordOfAge_eq at_]
          · rw [resultReadBlock_ticket, ring, recordOfTicket_eq (by bv_omega) at_ own latest]
        rw [ResultRecord.bytes_eq, funext ChannelResult.bytes_eq] at taken
        exact resultRead_run hc taken

end Sys2Proof.Machine
end

section
/-! Frames and the commands that they spell (R186, R188, R194; O3). -/

namespace Sys2Proof.Machine

/-! ## Numbers of two, three and four bytes -/

theorem append_toNat {n m : Nat} (x : BitVec n) (y : BitVec m) :
    (x ++ y).toNat = x.toNat * 2 ^ m + y.toNat := by
  rw [BitVec.toNat_append, ← Nat.shiftLeft_add_eq_or_of_lt y.isLt, Nat.shiftLeft_eq]

theorem word16_toNat (a b : Byte) : (word16 a b).toNat = a.toNat * 256 + b.toNat :=
  append_toNat a b

theorem word24_toNat (a b c : Byte) :
    (word24 a b c).toNat = a.toNat * 65536 + b.toNat * 256 + c.toNat := by
  rw [word24, append_toNat, append_toNat]
  omega

theorem word32_toNat (a b c d : Byte) :
    (word32 a b c d).toNat = a.toNat * 16777216 + b.toNat * 65536 + c.toNat * 256 + d.toNat := by
  rw [word32, append_toNat, append_toNat, append_toNat]
  omega

theorem ofNat_eq_of_mod {n : Nat} {a : Byte} (h : n % 256 = a.toNat) : BitVec.ofNat 8 n = a :=
  BitVec.eq_of_toNat_eq (by rw [BitVec.toNat_ofNat]; exact h)

theorem be16_word16 (a b : Byte) : be16 (word16 a b).toNat = [a, b] := by
  have first := a.isLt
  have second := b.isLt
  rw [be16, word16_toNat, ofNat_eq_of_mod (a := a) (by omega), ofNat_eq_of_mod (a := b) (by omega)]

theorem be24_word24 (a b c : Byte) : be24 (word24 a b c).toNat = [a, b, c] := by
  have first := a.isLt
  have second := b.isLt
  have third := c.isLt
  rw [be24, word24_toNat, ofNat_eq_of_mod (a := a) (by omega), ofNat_eq_of_mod (a := b) (by omega),
    ofNat_eq_of_mod (a := c) (by omega)]

theorem be32_word32 (a b c d : Byte) : be32 (word32 a b c d).toNat = [a, b, c, d] := by
  have first := a.isLt
  have second := b.isLt
  have third := c.isLt
  have fourth := d.isLt
  rw [be32, word32_toNat, ofNat_eq_of_mod (a := a) (by omega), ofNat_eq_of_mod (a := b) (by omega),
    ofNat_eq_of_mod (a := c) (by omega), ofNat_eq_of_mod (a := d) (by omega)]

theorem word16_bytes (x : BitVec 16) :
    word16 (BitVec.ofNat 8 (x.toNat / 256)) (BitVec.ofNat 8 x.toNat) = x := by
  have size := x.isLt
  refine BitVec.eq_of_toNat_eq ?_
  rw [word16_toNat, BitVec.toNat_ofNat, BitVec.toNat_ofNat]
  omega

theorem word24_bytes (x : BitVec 24) : word24 (BitVec.ofNat 8 (x.toNat / 65536))
    (BitVec.ofNat 8 (x.toNat / 256)) (BitVec.ofNat 8 x.toNat) = x := by
  have size := x.isLt
  refine BitVec.eq_of_toNat_eq ?_
  rw [word24_toNat, BitVec.toNat_ofNat, BitVec.toNat_ofNat, BitVec.toNat_ofNat]
  omega

theorem word32_bytes (x : BitVec 32) : word32 (BitVec.ofNat 8 (x.toNat / 16777216))
    (BitVec.ofNat 8 (x.toNat / 65536)) (BitVec.ofNat 8 (x.toNat / 256)) (BitVec.ofNat 8 x.toNat) = x := by
  have size := x.isLt
  refine BitVec.eq_of_toNat_eq ?_
  rw [word32_toNat, BitVec.toNat_ofNat, BitVec.toNat_ofNat, BitVec.toNat_ofNat, BitVec.toNat_ofNat]
  omega

/-! ## From a command to its frame -/

/-- The frame of a well-formed command spells it: its fields are the words of its bytes. -/
theorem commandOf_frame {i : Instr} {p : Port} {f : Frame} (formed : i.wellFormed = true)
    (h : frameOf i = some (p, f)) : commandOf p f = some i := by
  cases i <;> cases h
  case loadData i o d =>
    have fits : d.length = (BitVec.ofNat 8 d.length).toNat := by
      have small : d.length ≤ 246 := of_decide_eq_true formed
      rw [BitVec.toNat_ofNat, Nat.mod_eq_of_lt (by omega)]
    refine (if_pos fits).trans ?_
    rw [word16_bytes]
  case fontProgram a d =>
    have fits : d.length = (BitVec.ofNat 8 d.length).toNat := by
      have small : d.length ≤ 245 := of_decide_eq_true formed
      rw [BitVec.toNat_ofNat, Nat.mod_eq_of_lt (by omega)]
    refine (if_pos fits).trans ?_
    rw [word32_bytes]
  all_goals change some _ = some _
  all_goals simp only [word16_bytes, word24_bytes, word32_bytes]

theorem frame_fits {i : Instr} {p : Port} {f : Frame} (formed : i.wellFormed = true)
    (h : frameOf i = some (p, f)) : namesCommand f.code = true ∧ f.params.length ≤ 250 := by
  cases i <;> cases h
  case loadData i o d =>
    have small : d.length ≤ 246 := of_decide_eq_true formed
    refine ⟨rfl, ?_⟩
    change d.length + 1 + 2 + 1 ≤ 250
    omega
  case fontProgram a d =>
    have small : d.length ≤ 245 := of_decide_eq_true formed
    refine ⟨rfl, ?_⟩
    change d.length + 1 + 4 ≤ 250
    omega
  all_goals exact ⟨rfl, Nat.le_of_ble_eq_true rfl⟩

/-! ## From a frame to its command -/

/-- A frame of this code spells a command on no port, or on each port the command whose frame it is. -/
def Spells (c : Byte) : Prop :=
  ∀ ps, (∀ p, commandOf p ⟨c, ps⟩ = none) ∨
    ∀ p, ∃ i, commandOf p ⟨c, ps⟩ = some i ∧ frameOf i = some (p, ⟨c, ps⟩)

/-- Behind these bytes a code takes `n` bytes more: fewer and more spell nothing. -/
def Takes (c : Byte) : Nat → List Byte → Prop
  | 0, ahead => (∀ p, ∃ i, commandOf p ⟨c, ahead⟩ = some i ∧ frameOf i = some (p, ⟨c, ahead⟩)) ∧
      ∀ p a ps, commandOf p ⟨c, ahead ++ a :: ps⟩ = none
  | n + 1, ahead => (∀ p, commandOf p ⟨c, ahead⟩ = none) ∧ ∀ a, Takes c n (ahead ++ [a])

theorem Takes.spells {c : Byte} {n : Nat} {ahead : List Byte} (h : Takes c n ahead) (ps : List Byte) :
    (∀ p, commandOf p ⟨c, ahead ++ ps⟩ = none) ∨
      ∀ p, ∃ i, commandOf p ⟨c, ahead ++ ps⟩ = some i ∧ frameOf i = some (p, ⟨c, ahead ++ ps⟩) := by
  induction n generalizing ahead ps with
  | zero =>
    obtain ⟨own, longer⟩ := h
    cases ps with
    | nil =>
      rw [List.append_nil]
      exact .inr own
    | cons a ps => exact .inl fun p => longer p a ps
  | succ n ih =>
    obtain ⟨shorter, more⟩ := h
    cases ps with
    | nil =>
      rw [List.append_nil]
      exact .inl shorter
    | cons a ps =>
      rw [List.append_cons]
      exact ih (more a) ps

theorem spells_of_takes {c : Byte} {n : Nat} (h : Takes c n []) : Spells c := h.spells

/-- The codes of the commands without parameters. -/
def codesOfNone : List Byte :=
  [0x04, 0x05, 0x0E, 0x12, 0x13, 0x17, 0x1D, 0x1F, 0x20, 0x21, 0x27, 0x2D, 0x2E, 0x2F, 0x34, 0x35,
    0x37, 0x38, 0x39, 0x3D, 0x3E, 0x44, 0x47, 0x48, 0x49, 0x4B, 0x4C]

theorem spells_none : ∀ c ∈ codesOfNone, Spells c := by
  simp only [codesOfNone, List.forall_mem_cons, List.not_mem_nil, false_imp_iff,
    implies_true, and_true]
  and_intros <;> exact spells_of_takes (n := 0)
    ⟨fun _ => ⟨_, rfl, rfl⟩, fun _ _ _ => rfl⟩

/-- The codes of the commands of one byte. -/
def codesOfOne : List Byte := [0x08, 0x0C, 0x10, 0x16, 0x1B, 0x1E, 0x26, 0x33, 0x3C]

theorem spells_one : ∀ c ∈ codesOfOne, Spells c := by
  simp only [codesOfOne, List.forall_mem_cons, List.not_mem_nil, false_imp_iff,
    implies_true, and_true]
  and_intros <;> exact spells_of_takes (n := 1)
    ⟨fun _ => rfl, fun _ => ⟨fun _ => ⟨_, rfl, rfl⟩, fun _ _ _ => rfl⟩⟩

/-- The codes of the commands of two bytes. -/
def codesOfTwo : List Byte :=
  [0x02, 0x06, 0x07, 0x09, 0x0A, 0x0D, 0x0F, 0x15, 0x1C, 0x24, 0x25, 0x29, 0x2C, 0x31, 0x36, 0x3F,
    0x41, 0x42, 0x46, 0x4A]

theorem spells_two : ∀ c ∈ codesOfTwo, Spells c := by
  simp only [codesOfTwo, List.forall_mem_cons, List.not_mem_nil, false_imp_iff,
    implies_true, and_true]
  and_intros <;> exact spells_of_takes (n := 2) ⟨fun _ => rfl, fun a => ⟨fun _ => rfl, fun b => ⟨fun _ => ⟨_, rfl, by simp [frameOf, beCode, be16_word16]⟩, fun _ _ _ => rfl⟩⟩⟩

/-- The codes of the commands of three bytes. -/
def codesOfThree : List Byte := [0x03, 0x0B, 0x14, 0x18, 0x28, 0x45]

theorem spells_three : ∀ c ∈ codesOfThree, Spells c := by
  simp only [codesOfThree, List.forall_mem_cons, List.not_mem_nil, false_imp_iff,
    implies_true, and_true]
  and_intros <;> exact spells_of_takes (n := 3)
    ⟨fun _ => rfl, fun a => ⟨fun _ => rfl, fun b => ⟨fun _ => rfl, fun c => ⟨fun _ => ⟨_, rfl, by simp [frameOf, be16_word16]⟩, fun _ _ _ => rfl⟩⟩⟩⟩

/-- The codes of the commands of four bytes. -/
def codesOfFour : List Byte := [0x11, 0x22, 0x23, 0x3A, 0x40]

theorem spells_four : ∀ c ∈ codesOfFour, Spells c := by
  simp only [codesOfFour, List.forall_mem_cons, List.not_mem_nil, false_imp_iff,
    implies_true, and_true]
  and_intros <;> exact spells_of_takes (n := 4)
    ⟨fun _ => rfl, fun a => ⟨fun _ => rfl, fun b => ⟨fun _ => rfl, fun c => ⟨fun _ => rfl, fun d => ⟨fun _ => ⟨_, rfl, by simp [frameOf, beColour, be16_word16, be24_word24, be32_word32]⟩, fun _ _ _ => rfl⟩⟩⟩⟩⟩

/-- The codes of the commands of five bytes. -/
def codesOfFive : List Byte := [0x1A, 0x32]

theorem spells_five : ∀ c ∈ codesOfFive, Spells c := by
  simp only [codesOfFive, List.forall_mem_cons, List.not_mem_nil, false_imp_iff,
    implies_true, and_true]
  and_intros <;> exact spells_of_takes (n := 5)
    ⟨fun _ => rfl, fun a => ⟨fun _ => rfl, fun b => ⟨fun _ => rfl, fun c => ⟨fun _ => rfl, fun d => ⟨fun _ => rfl, fun e => ⟨fun _ => ⟨_, rfl, by simp [frameOf, be16_word16, be32_word32]⟩, fun _ _ _ => rfl⟩⟩⟩⟩⟩⟩

theorem spells_enqueue : Spells 0x01 := spells_of_takes (n := 6)
  ⟨fun _ => rfl, fun a => ⟨fun _ => rfl, fun b => ⟨fun _ => rfl, fun c => ⟨fun _ => rfl, fun d => ⟨fun _ => rfl, fun e => ⟨fun _ => rfl, fun f =>
    ⟨fun _ => ⟨_, rfl, by simp [frameOf, be24_word24]⟩, fun _ _ _ => rfl⟩⟩⟩⟩⟩⟩⟩

theorem spells_lineTiming : Spells 0x2A := spells_of_takes (n := 7)
  ⟨fun _ => rfl, fun a => ⟨fun _ => rfl, fun b => ⟨fun _ => rfl, fun c => ⟨fun _ => rfl, fun d => ⟨fun _ => rfl, fun e => ⟨fun _ => rfl, fun f => ⟨fun _ => rfl,
    fun g => ⟨fun _ => ⟨_, rfl, by simp [frameOf, be16_word16]⟩, fun _ _ _ => rfl⟩⟩⟩⟩⟩⟩⟩⟩

theorem spells_plane : Spells 0x3B := spells_of_takes (n := 8)
  ⟨fun _ => rfl, fun a => ⟨fun _ => rfl, fun b => ⟨fun _ => rfl, fun c => ⟨fun _ => rfl, fun d => ⟨fun _ => rfl, fun e => ⟨fun _ => rfl, fun f => ⟨fun _ => rfl,
    fun g => ⟨fun _ => rfl, fun k => ⟨fun _ => ⟨_, rfl, by simp [frameOf, beColour, be24_word24]⟩, fun _ _ _ => rfl⟩⟩⟩⟩⟩⟩⟩⟩⟩

theorem spells_scoring : Spells 0x43 := spells_of_takes (n := 11)
  ⟨fun _ => rfl, fun a => ⟨fun _ => rfl, fun b => ⟨fun _ => rfl, fun c => ⟨fun _ => rfl, fun d => ⟨fun _ => rfl, fun e => ⟨fun _ => rfl, fun f => ⟨fun _ => rfl,
    fun g => ⟨fun _ => rfl, fun k => ⟨fun _ => rfl, fun l => ⟨fun _ => rfl, fun m => ⟨fun _ => rfl, fun n => ⟨fun _ => ⟨_, rfl, by simp [frameOf, be16_word16]⟩, fun _ _ _ => rfl⟩⟩⟩⟩⟩⟩⟩⟩⟩⟩⟩⟩

theorem spells_colours : Spells 0x2B := spells_of_takes (n := 12)
  ⟨fun _ => rfl, fun a => ⟨fun _ => rfl, fun b => ⟨fun _ => rfl, fun c => ⟨fun _ => rfl, fun d => ⟨fun _ => rfl, fun e => ⟨fun _ => rfl, fun f => ⟨fun _ => rfl,
    fun g => ⟨fun _ => rfl, fun k => ⟨fun _ => rfl, fun l => ⟨fun _ => rfl, fun m => ⟨fun _ => rfl, fun n => ⟨fun _ => rfl, fun o =>
      ⟨fun _ => ⟨_, rfl, by simp [frameOf, beColour, be24_word24]⟩, fun _ _ _ => rfl⟩⟩⟩⟩⟩⟩⟩⟩⟩⟩⟩⟩⟩

theorem ofNat_length {d : List Byte} {n : Byte} (h : d.length = n.toNat) :
    BitVec.ofNat 8 d.length = n := by
  rw [h]
  exact BitVec.eq_of_toNat_eq (by rw [BitVec.toNat_ofNat, Nat.mod_eq_of_lt n.isLt])

theorem spells_loadData : Spells 0x19
  | [] | [_] | [_, _] | [_, _, _] => .inl fun _ => rfl
  | a :: b :: c :: n :: d => by
    by_cases fits : d.length = n.toNat
    · exact .inr fun _ => ⟨_, if_pos fits, by simp [frameOf, be16_word16, ofNat_length fits]⟩
    · exact .inl fun _ => if_neg fits

theorem spells_program : Spells 0x30
  | [] | [_] | [_, _] | [_, _, _] | [_, _, _, _] => .inl fun _ => rfl
  | a :: b :: c :: d :: n :: e => by
    by_cases fits : e.length = n.toNat
    · exact .inr fun _ => ⟨_, if_pos fits, by simp [frameOf, be32_word32, ofNat_length fits]⟩
    · exact .inl fun _ => if_neg fits

/-- A code that names no command spells none. -/
theorem commandOf_unnamed {p : Port} {f : Frame} (h : namesCommand f.code = false) :
    commandOf p f = none := by
  have outside : f.code.toNat = 0 ∨ ∃ m, f.code.toNat = m + 77 := by
    rw [Bool.eq_false_iff, ne_eq, namesCommand_iff] at h
    rcases Nat.eq_zero_or_pos f.code.toNat with zero | pos
    · exact .inl zero
    · exact .inr ⟨f.code.toNat - 77, by omega⟩
  unfold commandOf
  rcases outside with zero | ⟨m, beyond⟩
  · rw [zero]
    rfl
  · rw [beyond]
    rfl

theorem named_codes : ∀ c : Byte, namesCommand c = true → c ∈ codesOfNone ++ codesOfOne ++
    codesOfTwo ++ codesOfThree ++ codesOfFour ++ codesOfFive ++
    [0x01, 0x2A, 0x3B, 0x43, 0x2B, 0x19, 0x30] := by decide

theorem spells (c : Byte) : Spells c := by
  by_cases named : namesCommand c = true
  · have mem := named_codes c named
    simp only [List.mem_append, List.mem_cons, List.not_mem_nil, or_false] at mem
    rcases mem with (((((mem | mem) | mem) | mem) | mem) | mem) | rfl | rfl | rfl | rfl | rfl | rfl | rfl
    · exact spells_none c mem
    · exact spells_one c mem
    · exact spells_two c mem
    · exact spells_three c mem
    · exact spells_four c mem
    · exact spells_five c mem
    · exact spells_enqueue
    · exact spells_lineTiming
    · exact spells_plane
    · exact spells_scoring
    · exact spells_colours
    · exact spells_loadData
    · exact spells_program
  · exact fun ps => .inl fun p => commandOf_unnamed (Bool.eq_false_iff.mpr named)

/-- A frame spells a command only if it is that command's own. -/
theorem frameOf_commandOf {p : Port} {f : Frame} {i : Instr} (h : commandOf p f = some i) :
    frameOf i = some (p, f) := by
  rcases spells f.code f.params with none_ | own
  · exact nomatch (none_ p).symm.trans h
  · obtain ⟨j, spelt, frame⟩ := own p
    obtain rfl : j = i := Option.some.inj (spelt.symm.trans h)
    exact frame

/-- Whether a frame spells a command does not depend on the port. -/
theorem commandOf_eq_none_iff {p q : Port} {f : Frame} :
    commandOf p f = none ↔ commandOf q f = none := by
  rcases spells f.code f.params with none_ | own
  · exact iff_of_true (none_ p) (none_ q)
  · obtain ⟨i, hi, -⟩ := own p
    obtain ⟨j, hj, -⟩ := own q
    exact iff_of_false (fun h => nomatch h.symm.trans hi) fun h => nomatch h.symm.trans hj

/-- Settles O3: from the command by its fields, from the frame by its code and length. -/
theorem framesSpellTheirCommands : Obligations.FramesSpellTheirCommands :=
  ⟨fun _ _ _ formed h => ⟨commandOf_frame formed h, frame_fits formed h⟩,
    fun _ _ _ h => frameOf_commandOf h⟩

end Sys2Proof.Machine
end

section
/-! The client ports' transactions (R186 to R188, R195; O59). -/

namespace Sys2Proof.Machine

/-! ## One port of the state -/

theorem setPort_port (s : State) (p : Port) : s.setPort p (s.port p) = s := by
  cases p <;> rfl

theorem setPort_setPort (s : State) (p : Port) (x y : PortState) :
    (s.setPort p x).setPort p y = s.setPort p y := by
  cases p <;> rfl

/-- A port that holds an answer answers. -/
theorem answers_self {u : State} {p : Port} {q : PortState} {r : Reply} (h : u.port p = q.answer r) :
    Answers p r.code r.result r.data u u := by
  refine ⟨?_, fun _ _ => rfl⟩
  rw [h]
  exact ⟨rfl, rfl, rfl, rfl, rfl, rfl, rfl⟩

theorem answers_reply (u : State) (p : Port) (c : Byte) (r : ResultCode) (d : List Byte) :
    Answers p c r d u (u.reply p c r d) := by
  have own : (u.reply p c r d).port p = (u.port p).answer ⟨c, r, d⟩ := port_setPort_same _ _ _
  refine ⟨?_, fun q other => ?_⟩
  · rw [own]
    exact ⟨rfl, rfl, rfl, rfl, rfl, rfl, rfl⟩
  · rw [State.reply, port_setPort_other _ _ other]

/-! ## What the bytes of a frame come to (R186) -/

theorem gather_frame (c n : Byte) (params : List Byte) : gather (c :: n :: params) =
    if c = 0 ∨ 250 < n.toNat then .spoiled
    else if n.toNat ≤ params.length then .whole { code := c, params := params.take n.toNat }
    else .more := by
  rw [gather]
  exact if_congr (by simp) rfl rfl

/-- Bytes that have come to a frame, or to none, are not made another by those that follow. -/
theorem gather_append {x : List Byte} (done : gather x ≠ .more) (y : List Byte) :
    gather (x ++ y) = gather x := by
  match x with
  | [] => exact absurd rfl done
  | [c] =>
    have zero : c = 0 := by
      by_contra other
      exact done (if_neg other)
    subst zero
    cases y with
    | nil => rfl
    | cons n y =>
      rw [List.singleton_append, gather_frame]
      exact if_pos (.inl rfl)
  | c :: n :: params =>
    rw [List.cons_append, List.cons_append, gather_frame, gather_frame]
    rw [gather_frame] at done
    by_cases spoiled : c = 0 ∨ 250 < n.toNat
    · rw [if_pos spoiled, if_pos spoiled]
    · rw [if_neg spoiled] at done ⊢
      rw [if_neg spoiled]
      by_cases whole : n.toNat ≤ params.length
      · rw [if_pos whole, if_pos (by rw [List.length_append]; omega), List.take_append_of_le_length whole]
      · exact absurd (if_neg whole) done

/-! ## The port's own checks (R188) -/

section
variable {q : PortState} {p : Port} {f : Frame}

theorem check_unnamed (h : namesCommand f.code = false) : q.check p f = q := by
  rw [PortState.check, h]
  rfl

theorem check_forbidden (named : namesCommand f.code = true) (h : permitted f.code p = false) :
    q.check p f = q.answer ⟨f.code, .notPermitted, []⟩ := by
  rw [PortState.check, named, h]
  rfl

theorem check_badLength (named : namesCommand f.code = true) (allowed : permitted f.code p = true)
    (h : commandOf p f = none) : q.check p f = q.answer ⟨f.code, .badLength, []⟩ := by
  have length : lengthOk f = false := by
    rw [lengthOk, commandOf_eq_none_iff.mp h]
    rfl
  rw [PortState.check, named, allowed, length]
  rfl

theorem check_passed (allowed : permitted f.code p = true) {i : Instr} (h : commandOf p f = some i) :
    q.check p f = q := by
  have length : lengthOk f = true := by
    rw [lengthOk, Option.isSome_iff_ne_none]
    exact fun none_ => nomatch (commandOf_eq_none_iff.mp none_).symm.trans h
  rw [PortState.check, allowed, length]
  exact ite_self _

/-- Mask, bytes shifted out and read under way are no matter of a frame. -/
def PortState.SameOutput (q r : PortState) : Prop :=
  r.mask = q.mask ∧ r.shifted = q.shifted ∧ r.reading = q.reading

theorem check_output (q : PortState) (p : Port) (f : Frame) : q.SameOutput (q.check p f) := by
  unfold PortState.check
  split
  · exact ⟨rfl, rfl, rfl⟩
  · split
    · exact ⟨rfl, rfl, rfl⟩
    · split <;> exact ⟨rfl, rfl, rfl⟩

theorem gatherBytes_output (q : PortState) (p : Port) (x : List Byte) (closes : Bool) :
    q.SameOutput (q.gatherBytes p x closes) := by
  unfold PortState.gatherBytes
  simp only
  split
  · exact ⟨rfl, rfl, rfl⟩
  next f _ =>
    obtain ⟨mask, shifted, reading⟩ := check_output (q.accept f) p f
    exact ⟨mask.trans (accept_mask q f), shifted.trans (accept_shifted q f),
      reading.trans (accept_reading q f)⟩
  · split <;> exact ⟨rfl, rfl, rfl⟩

theorem offer_output (q : PortState) (p : Port) (x : List Byte) (closes : Bool) :
    q.SameOutput (q.offer p x closes) := by
  unfold PortState.offer
  split
  · exact gatherBytes_output { q with link := .receiving, gathered := [] } p x closes
  · exact ⟨rfl, rfl, rfl⟩
  · exact ⟨rfl, rfl, rfl⟩

end

/-! ## A frame offered (R186) -/

/-- The port as it begins to receive a frame. -/
def PortState.receiving (q : PortState) : PortState := { q with link := .receiving, gathered := [] }

theorem offer_of_ready {q : PortState} (h : q.link = .ready) (p : Port) (x : List Byte) (closes : Bool) :
    q.offer p x closes = q.receiving.gatherBytes p x closes := by
  rw [PortState.offer, h]
  rfl

theorem offer_of_not_ready {q : PortState} (h : q.link ≠ .ready) (p : Port) (x : List Byte)
    (closes : Bool) : q.offer p x closes = { q with discarded := true } := by
  rw [PortState.offer]
  split
  next ready => exact absurd ready h
  · rfl
  · rfl

/-- A frame that the port has accepted. -/
def PortState.accepted (q : PortState) (f : Frame) : PortState :=
  { q with
    link := .waiting, gathered := [], held := some f, reply := none, replyWaiting := false
    discarded := false }

section
variable {q : PortState} (p : Port) {x : List Byte} (closes : Bool)

theorem gatherBytes_spoiled (h : gather (q.gathered ++ x) = .spoiled) :
    q.gatherBytes p x closes = q.discard := by
  rw [PortState.gatherBytes, h]

theorem gatherBytes_whole {f : Frame} (receiving : q.link = .receiving)
    (h : gather (q.gathered ++ x) = .whole f) :
    q.gatherBytes p x closes = (q.accepted f).check p f := by
  have accepts : q.accept f = q.accepted f := if_neg (by rw [receiving]; decide)
  rw [PortState.gatherBytes, h, ← accepts]

theorem gatherBytes_more (h : gather (q.gathered ++ x) = .more) :
    q.gatherBytes p x closes = if closes then q.discard else { q with gathered := q.gathered ++ x } := by
  rw [PortState.gatherBytes, h]

end

/-- A frame under way is finished, or not, by the bytes that follow. -/
theorem write_rest_of_receiving {q : PortState} (reading : q.reading = none) (h : q.link = .receiving)
    (p : Port) (y : List Byte) (closes : Bool) : q.write p false y closes = q.gatherBytes p y closes := by
  rw [PortState.write, reading]
  exact if_pos h

theorem write_rest_of_not_receiving {q : PortState} (reading : q.reading = none)
    (h : q.link ≠ .receiving) (p : Port) (y : List Byte) (closes : Bool) :
    q.write p false y closes = q := by
  rw [PortState.write, reading]
  exact if_neg h

theorem check_link {q : PortState} (h : q.link ≠ .receiving) (p : Port) (f : Frame) :
    (q.check p f).link ≠ .receiving := by
  unfold PortState.check
  split
  · exact h
  · split
    · exact nofun
    · split
      · exact nofun
      · exact h

/-- A frame offered in two pieces is the frame offered whole. -/
theorem offer_pieces {q : PortState} (reading : q.reading = none) (idle : q.link ≠ .receiving)
    (p : Port) (x y : List Byte) :
    (q.offer p x false).write p false y true = q.offer p (x ++ y) true := by
  have still : (q.offer p x false).reading = none := (offer_output q p x false).2.2.trans reading
  by_cases ready : q.link = .ready
  · rw [offer_of_ready ready] at still ⊢
    rw [offer_of_ready ready]
    cases came : gather x with
    | spoiled =>
      have whole : gather (x ++ y) = .spoiled := (gather_append (by rw [came]; nofun) y).trans came
      rw [gatherBytes_spoiled (q := q.receiving) p false came] at still ⊢
      rw [gatherBytes_spoiled (q := q.receiving) (x := x ++ y) p true whole]
      exact write_rest_of_not_receiving still nofun p y true
    | whole f =>
      have whole : gather (x ++ y) = .whole f := (gather_append (by rw [came]; nofun) y).trans came
      rw [gatherBytes_whole (q := q.receiving) p false rfl came] at still ⊢
      rw [gatherBytes_whole (q := q.receiving) (x := x ++ y) p true rfl whole]
      exact write_rest_of_not_receiving still
        (check_link (fun h : LinkState.waiting = .receiving => nomatch h) p f) p y true
    | more =>
      have gathering : q.receiving.gatherBytes p x false = { q.receiving with gathered := x } :=
        gatherBytes_more p false came
      rw [gathering] at still ⊢
      rw [write_rest_of_receiving still rfl]
      cases all : gather (x ++ y) with
      | spoiled =>
        exact (gatherBytes_spoiled p true all).trans
          (gatherBytes_spoiled (q := q.receiving) p true all).symm
      | whole f =>
        exact (gatherBytes_whole (q := { q.receiving with gathered := x }) p true rfl all).trans
          (gatherBytes_whole (q := q.receiving) p true rfl all).symm
      | more =>
        exact (gatherBytes_more p true all).trans
          (gatherBytes_more (q := q.receiving) p true all).symm
  · rw [offer_of_not_ready ready, offer_of_not_ready ready]
    exact write_rest_of_not_receiving (q := { q with discarded := true }) reading idle p y true

/-! ## A write transaction that brings a frame (R186, R195) -/

/-- What the opening of a write leaves of a port: an SPI port shifts out its status byte at the kind
byte. -/
def PortState.opened (q : PortState) (p : Port) : PortState :=
  if p = .venue then q else { q with shifted := [q.status] }

/-- The bytes that bring a frame: on the SPI ports they stand behind the kind byte 01. -/
def framed (p : Port) (x : List Byte) : List Byte := if p = .venue then x else 0x01 :: x

theorem write_framed (q : PortState) (p : Port) (x : List Byte) (closes : Bool) :
    q.write p true (framed p x) closes = (q.endRead.opened p).offer p x closes := by
  cases p <;> rfl

theorem opened_reading (q : PortState) (p : Port) : (q.endRead.opened p).reading = none := by
  cases p <;> rfl

theorem opened_link (q : PortState) (p : Port) : (q.opened p).link = q.link := by
  cases p <;> rfl

theorem framed_append (p : Port) (x y : List Byte) : framed p x ++ y = framed p (x ++ y) := by
  cases p <;> rfl

theorem write_framed_pieces {q : PortState} (idle : q.link ≠ .receiving) (p : Port) (x y : List Byte) :
    (q.write p true (framed p x) false).write p false y true = q.write p true (framed p x ++ y) true := by
  rw [framed_append, write_framed, write_framed]
  exact offer_pieces (opened_reading q p) (fun h => idle ((opened_link q.endRead p).symm.trans h)) p x y

/-- A row of a port changes that port alone. -/
theorem mapPort_other (s : State) (p : Port) (f : PortState → PortState) (r : Port) (h : r ≠ p) :
    (s.mapPort p f).port r = s.port r := port_setPort_other _ _ h

theorem mapPort_same (s : State) (p : Port) (f : PortState → PortState) :
    (s.mapPort p f).port p = f (s.port p) := port_setPort_same _ _ _

/-- The next state of a write transaction. -/
def State.written (s : State) (p : Port) (opens : Bool) (x : List Byte) (closes : Bool) : State :=
  s.mapPort p (·.write p opens x closes)

theorem exec_write (s : State) (p : Port) (opens : Bool) (x : List Byte) (closes : Bool) :
    exec (.writeTransaction p opens x closes) s = .next (s.written p opens x closes) := rfl

theorem written_touches (s : State) (p : Port) (opens : Bool) (x : List Byte) (closes : Bool) :
    Touches [.links] s (s.written p opens x closes) :=
  mapPort_links s p _ (write_notices _ _ _ _ _)

/-- Two pieces on one port come to what their two effects come to, one after the other. -/
theorem written_written (s : State) (p : Port) (o o' : Bool) (x y : List Byte) (b b' : Bool) :
    (s.written p o x b).written p o' y b' =
      s.setPort p (((s.port p).write p o x b).write p o' y b') := by
  unfold State.written
  exact (congrArg (fun q => (s.mapPort p (·.write p o x b)).setPort p (q.write p o' y b'))
    (mapPort_same s p _)).trans (setPort_setPort s p _ _)

/-! ## What a whole frame comes to at a READY port (R186, R188) -/

section
variable {q : PortState} (ready : q.link = .ready) {p : Port} {c n : Byte} {params : List Byte}
include ready

theorem offer_short (h : c = 0 ∨ 250 < n.toNat ∨ params.length < n.toNat) :
    q.offer p (c :: n :: params) true = q.receiving.discard := by
  rw [offer_of_ready ready]
  by_cases spoiled : c = 0 ∨ 250 < n.toNat
  · exact gatherBytes_spoiled (q := q.receiving) p true
      ((gather_frame c n params).trans (if_pos spoiled))
  · have short : ¬ n.toNat ≤ params.length := by
      rcases h with code | long | short
      · exact absurd (.inl code) spoiled
      · exact absurd (.inr long) spoiled
      · omega
    exact gatherBytes_more (q := q.receiving) p true
      ((gather_frame c n params).trans ((if_neg spoiled).trans (if_neg short)))

theorem offer_frame (code : c ≠ 0) (fits : n.toNat ≤ 250) (whole : n.toNat ≤ params.length) :
    q.offer p (c :: n :: params) true =
      (q.accepted ⟨c, params.take n.toNat⟩).check p ⟨c, params.take n.toNat⟩ := by
  have spoiled : ¬ (c = 0 ∨ 250 < n.toNat) := fun h => h.elim code (by omega)
  rw [offer_of_ready ready]
  exact gatherBytes_whole (q := q.receiving) p true rfl
    ((gather_frame c n params).trans ((if_neg spoiled).trans (if_pos whole)))

end

theorem check_discarded (q : PortState) (p : Port) (f : Frame) :
    (q.check p f).discarded = q.discarded := by
  unfold PortState.check
  split
  · rfl
  · split
    · rfl
    · split <;> rfl

theorem namesCommand_of_le {c : Byte} (code : c ≠ 0) (h : c.toNat ≤ 76) : namesCommand c = true :=
  (namesCommand_iff c).mpr ⟨Nat.pos_of_ne_zero fun zero => code (BitVec.eq_of_toNat_eq zero), h⟩

theorem namesCommand_of_lt {c : Byte} (h : 76 < c.toNat) : namesCommand c = false :=
  Bool.eq_false_iff.mpr fun named => absurd ((namesCommand_iff c).mp named).2 (by omega)

section
variable {u : State} {q : PortState} {p : Port} {f : Frame}

/-- A held frame whose code names no command is answered by its row. -/
theorem unknownCommand_answers (port : u.port p = (q.accepted f).check p f)
    (unnamed : 76 < f.code.toNat) : (u.port p).link = .waiting ∧ (u.port p).held = some f ∧
      ∃ v, exec (.unknownCommand p) u = .next v ∧ Touches [.links] u v ∧
        Answers p f.code .unknownCommand [] u v := by
  have passed := port.trans (check_unnamed (namesCommand_of_lt unnamed))
  have waits : (u.port p).link = .waiting := congrArg PortState.link passed
  have holds : (u.port p).held = some f := congrArg PortState.held passed
  refine ⟨waits, holds, u.reply p f.code .unknownCommand [], ?_, reply_touches u p _ _ _,
    answers_reply u p _ _ _⟩
  have row : exec (.unknownCommand p) u = execUnknownCommand p u := rfl
  rw [row, execUnknownCommand, waits, holds]
  exact if_neg (by rw [namesCommand_of_lt unnamed]; exact Bool.false_ne_true)

/-- A frame that passes the port's checks waits for its command. -/
theorem frame_waits (port : u.port p = (q.accepted f).check p f) (allowed : permitted f.code p = true)
    {i : Instr} (spelt : commandOf p f = some i) :
    (u.port p).link = .waiting ∧ (u.port p).held = some f ∧ (u.port p).reply = none ∧
      (u.port p).replyWaiting = false ∧ u.canTake i = true := by
  have passed := port.trans (check_passed allowed spelt)
  refine ⟨congrArg PortState.link passed, congrArg PortState.held passed,
    congrArg PortState.reply passed, congrArg PortState.replyWaiting passed, ?_⟩
  have admits : (u.port p).admits f = true := by
    rw [passed]
    exact decide_eq_true rfl
  rw [State.canTake, frameOf_commandOf spelt]
  exact Bool.and_eq_true_iff.mpr ⟨admits, allowed⟩

end

/-! ## What a read returns (R187, R195) -/

/-- The bytes of a read, as the statement spells them. -/
def PortState.returned (q : PortState) : List Byte :=
  match q.replyWaiting, q.reply with
  | true, some r => q.status :: r.code :: BitVec.ofNat 8 r.result.number ::
      (be16 r.data.length ++ r.data)
  | _, _ => [q.status, 0]

theorem returned_eq (q : PortState) : q.returned = q.readBytes := by
  rw [PortState.returned, PortState.readBytes]
  cases q.replyWaiting with
  | false => rfl
  | true => cases q.reply <;> rfl

section
variable (q : PortState) (n m : Nat)

/-- What the first bytes of a read in pieces leave to return. -/
def PortState.readLeft : ReadUnderWay :=
  { rest := q.readBytes.drop n, clears := q.replyWaiting && decide (n < q.readBytes.length) }

theorem openRead_eq : q.openRead n false = { q with
    shifted := q.readBytes.take n
    replyWaiting := q.replyWaiting && decide (n < q.readBytes.length)
    reading := some (q.readLeft n) } := by
  have left : (!(q.readBytes.drop n).isEmpty) = decide (n < q.readBytes.length) := by
    rw [Bool.eq_iff_iff]
    simp
  rw [PortState.readLeft, ← left]
  unfold PortState.openRead PortState.returnBytes
  simp only [Bool.false_or, List.nil_append, Bool.false_eq_true, if_false]
  cases q.replyWaiting <;> rfl

/-- REPLY_WAITING after a longer piece, told by what stands after the shorter one. -/
theorem clears_step (waits first longer : Bool) : (longer = true → first = true) →
    (waits && first && !(waits && first && !longer)) = (waits && longer) ∧
      (waits && first && longer) = (waits && longer) := by
  revert waits first longer
  decide

/-- More of a read in pieces comes to a longer piece. -/
theorem openRead_more :
    (q.openRead n false).returnBytes (q.readLeft n) m false = q.openRead (n + m) false := by
  have empty : ((q.readBytes.drop n).drop m).isEmpty = !decide (n + m < q.readBytes.length) := by
    rw [Bool.eq_iff_iff]
    simp
  have both : decide (n + m < q.readBytes.length) = true → decide (n < q.readBytes.length) = true := by
    simp only [decide_eq_true_eq]
    omega
  rw [openRead_eq, openRead_eq, PortState.returnBytes]
  simp only [PortState.readLeft, Bool.false_or, Bool.false_eq_true, if_false, empty]
  rw [List.drop_drop, List.take_add]
  obtain ⟨waits, clears⟩ := clears_step q.replyWaiting _ _ both
  rw [Bool.not_not, waits, clears]

/-- The end of a read in pieces leaves REPLY_WAITING clear where it was returning the reply. -/
theorem endRead_openRead (h : q.reading = none) : (q.openRead n false).endRead =
    { q with shifted := q.readBytes.take n, replyWaiting := false } := by
  rw [openRead_eq, PortState.endRead]
  simp only [h, Option.any_some, PortState.readLeft, Bool.and_not_self]

end

/-! ## The rows of a port (O59) -/

section
variable (s : State) (p : Port)

/-- The port after a frame written whole. -/
theorem written_port (x : List Byte) (closes : Bool) : (s.written p true (framed p x) closes).port p =
    ((s.port p).endRead.opened p).offer p x closes :=
  (mapPort_same s p _).trans (write_framed _ p x closes)

theorem written_other (opens : Bool) (x : List Byte) (closes : Bool) (r : Port) (h : r ≠ p) :
    (s.written p opens x closes).port r = s.port r := mapPort_other s p _ r h

theorem written_ignored {u : State} (reading : (u.port p).reading = none)
    (idle : (u.port p).link ≠ .receiving) (y : List Byte) (closes : Bool) :
    u.written p false y closes = u := by
  unfold State.written State.mapPort
  exact (congrArg (u.setPort p) (write_rest_of_not_receiving reading idle p y closes)).trans
    (setPort_port u p)

/-- An SPI transaction of another kind. -/
theorem write_otherKind (q : PortState) (spi : p ≠ .venue) {k : Byte} (frame : k ≠ 0x01)
    (read : k ≠ 0x02) (x : List Byte) (closes : Bool) : q.write p true (k :: x) closes =
      { q.endRead with shifted := [q.endRead.status], discarded := true } := by
  have kind : q.endRead.openSpi p closes (k :: x) =
      { q.endRead with shifted := [q.endRead.status], discarded := true } :=
    (if_neg frame).trans (if_neg read)
  cases p with
  | playback => exact kind
  | console => exact kind
  | venue => exact absurd rfl spi

/-- An SPI transaction that reads. -/
theorem write_read (q : PortState) (spi : p ≠ .venue) (x : List Byte) (closes : Bool) :
    q.write p true (0x02 :: x) closes = q.endRead.openRead (x.length + 1) closes := by
  cases p with
  | playback => rfl
  | console => rfl
  | venue => exact absurd rfl spi

theorem write_rest_of_reading {q : PortState} {r : ReadUnderWay} (h : q.reading = some r)
    (y : List Byte) (closes : Bool) : q.write p false y closes = q.returnBytes r y.length closes := by
  rw [PortState.write, h]
  rfl

theorem openRead_reading (q : PortState) (n : Nat) : (q.openRead n false).reading = some (q.readLeft n) :=
  congrArg PortState.reading (openRead_eq q n)

end

/-- The bits of a byte of four marks. -/
theorem fourMarks_bits (a b c d : Bool) : let y : Byte := BitVec.ofNat 8 (flagByte [a, b, c, d])
    y.getLsbD 0 = a ∧ y.getLsbD 1 = b ∧ y.getLsbD 2 = c ∧ y.getLsbD 3 = d ∧ y.toNat < 16 := by
  revert a b c d
  decide

theorem status_bits (q : PortState) : (q.status.getLsbD 0 = true ↔ q.link = .ready) ∧
    q.status.getLsbD 1 = q.replyWaiting ∧ q.status.getLsbD 2 = q.attention ∧
    q.status.getLsbD 3 = q.discarded ∧ q.status.toNat < 16 := by
  obtain ⟨ready, rest⟩ := fourMarks_bits (q.link = .ready) q.replyWaiting q.attention q.discarded
  exact ⟨(Bool.eq_iff_iff.mp ready).trans decide_eq_true_iff, rest⟩

/-- What a whole frame comes to at a READY port, as O59 states it. -/
theorem frame_outcomes {u : State} {p : Port} {q : PortState} {c n : Byte} {params : List Byte}
    (ready : q.link = .ready) (code : c ≠ 0) (fits : n.toNat ≤ 250) (whole : n.toNat ≤ params.length)
    (port : u.port p = q.offer p (c :: n :: params) true) :
    let f : Frame := { code := c, params := params.take n.toNat }
    (u.port p).discarded = false ∧
    (76 < c.toNat → (u.port p).link = .waiting ∧ (u.port p).held = some f ∧
      ∃ v, exec (.unknownCommand p) u = .next v ∧ Touches [.links] u v ∧
        Answers p c .unknownCommand [] u v) ∧
    (c.toNat ≤ 76 → permitted c p = false → Answers p c .notPermitted [] u u) ∧
    (c.toNat ≤ 76 → permitted c p = true → commandOf p f = none →
      Answers p c .badLength [] u u) ∧
    ∀ i, permitted c p = true → commandOf p f = some i →
      (u.port p).link = .waiting ∧ (u.port p).held = some f ∧
      (u.port p).reply = none ∧ (u.port p).replyWaiting = false ∧ u.canTake i = true := by
  intro f
  have checked : u.port p = (q.accepted f).check p f :=
    port.trans (offer_frame ready code fits whole)
  refine ⟨?_, unknownCommand_answers checked, fun named forbidden => ?_,
    fun named allowed unspelt => ?_, fun i allowed spelt => frame_waits checked allowed spelt⟩
  · rw [checked]
    exact check_discarded _ p f
  · exact answers_self (checked.trans (check_forbidden (namesCommand_of_le code named) forbidden))
  · exact answers_self
      (checked.trans (check_badLength (namesCommand_of_le code named) allowed unspelt))

/-- A read in pieces, as O59 states it. -/
theorem read_pieces (s : State) {p : Port} (spi : p ≠ .venue) (x y : List Byte) :
    let q := (s.port p).endRead
    let t := s.written p true (0x02 :: x) false
    t.port p = { q with
      shifted := q.readBytes.take (x.length + 1)
      replyWaiting := q.replyWaiting && decide (x.length + 1 < q.readBytes.length)
      reading := (t.port p).reading } ∧
    (t.port p).endRead = { q with
      shifted := q.readBytes.take (x.length + 1), replyWaiting := false } ∧
    t.written p false y false = s.written p true (0x02 :: (x ++ y)) false ∧
    t.written p false y true = s.mapPort p (·.read (x.length + 1 + y.length)) := by
  intro q t
  have opens : (s.port p).write p true (0x02 :: x) false = q.openRead (x.length + 1) false :=
    write_read p _ spi x false
  have port : t.port p = q.openRead (x.length + 1) false := (mapPort_same s p _).trans opens
  have goesOn (closes : Bool) : t.written p false y closes =
      s.setPort p ((q.openRead (x.length + 1) false).returnBytes (q.readLeft (x.length + 1))
        y.length closes) :=
    (written_written s p true false _ y false closes).trans (congrArg (s.setPort p)
      ((congrArg (fun r => r.write p false y closes) opens).trans
        (write_rest_of_reading p (openRead_reading q _) y closes)))
  refine ⟨?_, ?_, ?_, ?_⟩
  · rw [port, openRead_reading]
    exact openRead_eq q _
  · rw [port]
    exact endRead_openRead q _ rfl
  · rw [goesOn, openRead_more]
    have longer := write_read p (s.port p) spi (x ++ y) false
    rw [List.length_append, Nat.add_right_comm] at longer
    exact congrArg (s.setPort p) longer.symm
  · rw [goesOn, openRead_then q _ _ _ rfl (openRead_reading q _)]
    exact congrArg (fun r => s.setPort p (r.openRead (x.length + 1 + y.length) true))
      (endRead_idle q rfl)

/-- Settles O59: the port's rows are taken apart along the bytes that come; a frame is looked at by
`offer`, the bytes read by `returnBytes`, and each adds up over its pieces. -/
theorem portTransactionsAreTaken : Obligations.PortTransactionsAreTaken := by
  unfold Obligations.PortTransactionsAreTaken
  intro ended returned
  have ends : ended = PortState.endRead := rfl
  have returns : returned = PortState.readBytes := funext returned_eq
  clear_value ended returned
  subst ends returns
  refine ⟨⟨?whole, ?pieces⟩, ?spi, ?reads⟩
  case whole =>
    intro s p c n params bytes f q
    refine ⟨s.written p true (framed p (c :: n :: params)) true, rfl, written_touches _ _ _ _ _,
      written_other s p _ _ _, ?_⟩
    have port := written_port s p (c :: n :: params) true
    generalize s.written p true (framed p (c :: n :: params)) true = u at port ⊢
    obtain ⟨mask, shifted, -⟩ := offer_output (q.opened p) p (c :: n :: params) true
    have opened : q.opened p = { q with shifted := (u.port p).shifted } := by
      rw [port, shifted, PortState.opened]
      split <;> rfl
    refine ⟨?_, ?_, fun busy => ?_, fun ready => ⟨fun bad => ?_, fun code fits whole => ?_⟩⟩
    · rw [port, mask, opened]
    · rw [port, shifted, PortState.opened]
      split <;> rfl
    · have turned := port.trans
        (offer_of_not_ready (fun ready => busy ((opened_link q p).symm.trans ready)) p _ true)
      rw [opened] at turned
      exact turned
    · have turned := port.trans (offer_short ((opened_link q p).trans ready) bad)
      rw [opened] at turned
      rw [turned]
      exact ⟨rfl, rfl, rfl, rfl⟩
    · exact frame_outcomes ((opened_link q p).trans ready) code fits whole port
  case pieces =>
    intro s t u p x y idle kind first second
    obtain ⟨z, rfl⟩ : ∃ z, x = framed p z := by
      rcases kind with rfl | ⟨z, rfl⟩
      · exact ⟨x, rfl⟩
      · exact ⟨if p = .venue then 0x01 :: z else z, by cases p <;> rfl⟩
    cases first
    cases second
    have joined := (written_written s p true false (framed p z) y false true).trans
      (congrArg (s.setPort p) (write_framed_pieces idle p z y))
    exact congrArg Host.Outcome.next joined.symm
  case spi =>
    intro s p x y spi q
    refine ⟨fun k closes frame read => ?_, ?_, ?_⟩
    · have port : (s.written p true (k :: x) closes).port p =
          { q with shifted := [q.status], discarded := true } :=
        (mapPort_same s p _).trans (write_otherKind p _ spi frame read x closes)
      refine ⟨_, rfl, written_touches _ _ _ _ _, port, written_other s p _ _ _,
        fun idle b => congrArg Host.Outcome.next (written_ignored p ?_ ?_ y b)⟩
      · exact congrArg PortState.reading port
      · exact fun receiving => idle ((congrArg PortState.link port).symm.trans receiving)
    · exact congrArg (fun r => Host.Outcome.next (s.setPort p r)) (write_read p _ spi x true)
    · obtain ⟨port, ended, more, whole⟩ := read_pieces s spi x y
      exact ⟨_, rfl, written_touches _ _ _ _ _, written_other s p _ _ _, port, ended,
        ⟨_, rfl, congrArg Host.Outcome.next more.symm⟩, congrArg Host.Outcome.next whole⟩
  case reads =>
    intro s p n q
    exact ⟨_, rfl, mapPort_links s p _ (read_notices _ _), (mapPort_same s p _).trans (read_eq _ _),
      mapPort_other s p _, status_bits q⟩

end Sys2Proof.Machine
end

section
/-! The two resets (R192 and the reset tables; O4). -/

namespace Sys2Proof.Machine

/-! ## Power-on reset -/

/-- A power-on reset leaves every byte of the flash that no operation in progress names. -/
theorem flashThroughReset_read {s : State} {x : Nat} (outside : ∀ op n, s.font.store = .busy op n →
    x < op.range.1 ∨ op.range.1 + op.range.2 ≤ x) :
    Memory.read s.flashThroughReset.1 x = Memory.read s.flash x := by
  unfold State.flashThroughReset
  cases store : s.font.store with
  | busy op n => exact Memory.read_fill_outside _ _ _ _ _ (outside op n store)
  | scanning => rfl
  | ready => rfl
  | absent => rfl
  | maintenance => rfl

/-! ## What a session reset leaves of the title band -/

section
variable {s : State} (turn : s.turn = none) (empty : s.book.entries = [])
include turn

theorem hintTitle_of_bare : s.hintTitle.lines = { s.lines with hinted := none } ∧
    s.hintTitle.cache = s.cache := by
  have key : s.hintKey = none := if_neg (by rw [turn]; exact Bool.false_ne_true)
  unfold State.hintTitle
  rw [key]
  simp only
  split
  next same => exact ⟨by rw [same], rfl⟩
  · exact ⟨rfl, rfl⟩

include empty

theorem titleChoice_of_bare : s.titleChoice = .none := by
  have head : s.readyHead = none := by rw [State.readyHead, empty]
  rw [State.titleChoice, turn, head]

/-- With no turn and no entry the title band shows nothing, and gives up the pins it held. -/
theorem retitle_of_bare :
    s.retitle.lines = { s.lines with title := .none, titleRows := [], hinted := none } ∧
      s.retitle.cache = s.lines.titleRows.flatten.foldl Cache.release s.cache := by
  have choice := titleChoice_of_bare turn empty
  have shown : s.titleShown = [] := by rw [State.titleShown, choice]
  unfold State.retitle
  rw [choice, shown]
  simp only
  split
  next same =>
    obtain ⟨title, rows⟩ := Bool.and_eq_true_iff.mp same
    obtain ⟨lines, cache⟩ := hintTitle_of_bare turn
    have title := (of_decide_eq_true title).symm
    have rows := (of_decide_eq_true rows).symm
    refine ⟨lines.trans (congrArg₂ (fun t r =>
      ({ s.lines with title := t, titleRows := r, hinted := none } : LineScheduler)) title rows), ?_⟩
    rw [cache, rows]
    rfl
  · exact hintTitle_of_bare turn
      (s := ((s.mapLines fun l => { l with title := .none, titleRows := [] }).pin
        ([] : List (List Code)).flatten).unpin s.lines.titleRows.flatten)

end

/-! ## Session reset -/

/-- The state of a session reset before the title band is chosen anew. -/
def State.emptied (s : State) : State :=
  { s.emptyWindow.endScoreShow with
    sessionTime := 0
    book := s.book.sessionReset
    loop := s.loop.forget
    turn := none
    slots := s.slots.map Slot.sessionReset
    clock := s.clock.stop
    lines := { s.emptyWindow.endScoreShow.lines with rebuild := false }
    voice := s.voice.dropTone.mapChannels Channel.sessionReset
    ring := []
    best := [] }

theorem resetBlocks_eq (s : State) : s.resetBlocks = s.emptied.retitle := by
  have window : Touches [.lines, .cache] s s.emptyWindow.endScoreShow :=
    (emptyWindow_touches s).trans (endScoreShow_touches _)
  have book : s.emptyWindow.endScoreShow.book = s.book := window .book (by decide)
  have loop : s.emptyWindow.endScoreShow.loop = s.loop := window .loop (by decide)
  have slots : s.emptyWindow.endScoreShow.slots = s.slots := window .slots (by decide)
  have clock : s.emptyWindow.endScoreShow.clock = s.clock := window .clock (by decide)
  have voice : s.emptyWindow.endScoreShow.voice = s.voice := window .voice (by decide)
  unfold State.resetBlocks State.emptied
  simp only
  rw [book, loop, slots, clock, voice]
  rfl

/-- The state after a session reset. -/
def State.afterReset (s : State) : State := s.emptied.retitle.resetNotices

theorem afterReset_of_emptied (s : State) {k : Piece} (h : k ∉ [Piece.lines, .cache, .notices]) :
    k.same s.emptied s.afterReset :=
  (((retitle_touches s.emptied).mono rfl).trans ((resetNotices_touches _).mono rfl) :
    Touches [.lines, .cache, .notices] s.emptied s.afterReset) k h

theorem afterReset_lines (s : State) : s.afterReset.lines = { s.lines with
    window := [], pending := [], scroll := none, rebuild := false, scoreShow := none
    title := .none, titleRows := [], hinted := none } := by
  have notices : s.afterReset.lines = s.emptied.retitle.lines :=
    resetNotices_touches _ .lines (by decide)
  have window : s.emptyWindow.endScoreShow.lines = { s.lines with
      window := [], pending := [], scroll := none, scoreShow := none } := by
    rw [endScoreShow_lines, emptyWindow_lines]
  refine notices.trans ((retitle_of_bare (s := s.emptied) rfl rfl).1.trans ?_)
  unfold State.emptied
  simp only
  rw [window]

theorem emptyWindow_cache (s : State) : s.emptyWindow.cache =
    (s.lines.window.flatMap (·.pins)).foldl Cache.release s.cache := by
  have all : s.lines.window.filter (fun _ => true) = s.lines.window := List.filter_true _
  exact congrArg (fun w => (w.flatMap WindowLine.pins).foldl Cache.release s.cache) all

/-- The text of the score show, if there is one. -/
def LineScheduler.scoreText (l : LineScheduler) : List Code :=
  match l.scoreShow with
  | none => []
  | some x => headlineText x.headline

theorem endScoreShow_cache (s : State) :
    s.endScoreShow.cache = s.lines.scoreText.foldl Cache.release s.cache := by
  unfold State.endScoreShow LineScheduler.scoreText
  cases s.lines.scoreShow <;> rfl

theorem afterReset_cache (s : State) : s.afterReset.cache =
    ((s.lines.window.flatMap fun x => x.pins) ++ s.lines.scoreText ++
      s.lines.titleRows.flatten).foldl Cache.release s.cache := by
  have notices : s.afterReset.cache = s.emptied.retitle.cache :=
    resetNotices_touches _ .cache (by decide)
  have rows : s.emptied.lines.titleRows = s.lines.titleRows := by
    have shown : s.emptyWindow.endScoreShow.lines.titleRows = s.emptyWindow.lines.titleRows :=
      by rw [endScoreShow_lines]
    have window : s.emptyWindow.lines.titleRows = s.lines.titleRows :=
      by rw [emptyWindow_lines]
    exact shown.trans window
  have text : s.emptyWindow.lines.scoreText = s.lines.scoreText := by
    rw [emptyWindow_lines]
    rfl
  have emptied : s.emptied.cache = s.emptyWindow.endScoreShow.cache := rfl
  rw [notices, (retitle_of_bare (s := s.emptied) rfl rfl).2, rows, emptied, endScoreShow_cache, text,
    emptyWindow_cache, List.foldl_append, List.foldl_append]

theorem dropTone_eq (v : Voice) : v.dropTone = { v with
    tone := none
    lastTone := match v.tone with
      | none => v.lastTone
      | some x => some { mic := x.mic, note := x.note, voiced := x.voiced
                         average := x.average, outcome := .aborted } } := by
  obtain ⟨audio, quiet, frame, channels, scoring, tone, lastTone⟩ := v
  cases tone <;> rfl

/-- Each port has SESSION_RESET as its one pending class after a session reset. -/
theorem resetNotices_notices (s : State) (p : Port) (c : Fin 16) :
    (s.resetNotices.port p).notices[c] = if c = 0 then some .sessionReset else none := by
  have port : (s.resetNotices.port p).notices =
      (Vector.replicate 16 none).set 0 (some Notice.sessionReset) := by
    cases p <;> rfl
  rw [port]
  revert c
  decide

theorem sessionReset_slot (x : Slot) : x.sessionReset =
    if x.state = .free ∨ x.state = .scrub then x
    else { x with
      state := .scrub, ticket := none, timer := 1 + (x.bytes.length + 4095) / 4096 } := by
  unfold Slot.sessionReset
  exact if_congr (by simp) rfl rfl

section
variable (s : State)

theorem afterReset_panel (p : Fin 8) :
    s.afterReset.loop.panels[p] = { s.loop.panels[p] with stored := none } := by
  have loop : s.afterReset.loop = s.loop.forget := afterReset_of_emptied s (k := .loop) (by decide)
  rw [loop]
  exact Vector.getElem_map _ _

theorem afterReset_loop : s.afterReset.loop = { s.loop with panels := s.afterReset.loop.panels } := by
  have loop : s.afterReset.loop = s.loop.forget := afterReset_of_emptied s (k := .loop) (by decide)
  rw [loop]
  rfl

theorem afterReset_slot (i : Fin 4) : s.afterReset.slots[i] =
    if s.slots[i].state = .free ∨ s.slots[i].state = .scrub then s.slots[i]
    else { s.slots[i] with
      state := .scrub, ticket := none, timer := 1 + (s.slots[i].bytes.length + 4095) / 4096 } := by
  have slots : s.afterReset.slots = s.slots.map Slot.sessionReset :=
    afterReset_of_emptied s (k := .slots) (by decide)
  rw [slots]
  exact (Vector.getElem_map _ _).trans (sessionReset_slot _)

theorem afterReset_voice : s.afterReset.voice = { s.voice with
    channels := s.afterReset.voice.channels, tone := none
    lastTone := match s.voice.tone with
      | none => s.voice.lastTone
      | some x => some { mic := x.mic, note := x.note, voiced := x.voiced
                         average := x.average, outcome := .aborted } } := by
  have voice : s.afterReset.voice = s.voice.dropTone.mapChannels Channel.sessionReset :=
    afterReset_of_emptied s (k := .voice) (by decide)
  rw [voice, dropTone_eq]
  rfl

theorem afterReset_channel (m : Fin 4) :
    s.afterReset.voice.channels[m] = s.voice.channels[m].sessionReset := by
  have voice : s.afterReset.voice = s.voice.dropTone.mapChannels Channel.sessionReset :=
    afterReset_of_emptied s (k := .voice) (by decide)
  rw [voice, dropTone_eq]
  exact Vector.getElem_map _ _

theorem afterReset_touches : Touches sessionPieces s s.afterReset := by
  have touches := sessionReset_touches s
  rwa [resetBlocks_eq] at touches

theorem sessionResetBlock_eq : readOk s.resetBlocks.resetNotices [] = ⟨s.afterReset, .ok, []⟩ := by
  rw [resetBlocks_eq]
  rfl

end

/-- Settles O4: power-on reset leaves the values of `State.reset`; a session reset is taken apart
into the emptying of the blocks, the choice of the title band and the notices. -/
theorem resetsGiveTheirValues : Obligations.ResetsGiveTheirValues := by
  refine ⟨fun s => ?powerOn, fun s taken => ?session⟩
  case powerOn =>
    refine ⟨_, rfl, rfl, fun x outside => flashThroughReset_read outside, rfl, rfl,
      fun p => Vector.getElem_replicate _, rfl, rfl, rfl, rfl, fun i => ?_, rfl, rfl,
      ⟨List.length_replicate, fun e he => List.eq_of_mem_replicate he⟩, rfl, rfl, rfl, rfl, rfl, rfl,
      fun m => ?_, rfl, rfl, fun p => ?_⟩
    · fin_cases i <;> rfl
    · fin_cases m <;> rfl
    · have quiet : PortState.reset.attention = false := by decide
      cases p <;> exact ⟨rfl, quiet⟩
  case session =>
    have runs := runs_block (f := ⟨0x4C, []⟩) rfl rfl taken
      (sessionResetBlock_eq (s.accept .venue ⟨0x4C, []⟩))
      (afterReset_touches (s.accept .venue ⟨0x4C, []⟩)) (by decide)
    have after {k : Piece} (h : k ∉ [Piece.lines, .cache, .notices]) :=
      afterReset_of_emptied (s.accept .venue ⟨0x4C, []⟩) h
    have time := after (k := .sessionTime) (by decide)
    have book := after (k := .book) (by decide)
    have turn := after (k := .turn) (by decide)
    have clock := after (k := .clock) (by decide)
    have ring := after (k := .ring) (by decide)
    have best := after (k := .best) (by decide)
    clear after
    have panels := afterReset_panel (s.accept .venue ⟨0x4C, []⟩)
    have loop := afterReset_loop (s.accept .venue ⟨0x4C, []⟩)
    have slots := afterReset_slot (s.accept .venue ⟨0x4C, []⟩)
    have lines := afterReset_lines (s.accept .venue ⟨0x4C, []⟩)
    have cache := afterReset_cache (s.accept .venue ⟨0x4C, []⟩)
    have voice := afterReset_voice (s.accept .venue ⟨0x4C, []⟩)
    have channels := afterReset_channel (s.accept .venue ⟨0x4C, []⟩)
    have notices := resetNotices_notices (s.accept .venue ⟨0x4C, []⟩).emptied.retitle
    rw [← State.afterReset] at notices
    generalize (s.accept .venue ⟨0x4C, []⟩).afterReset = u at *
    refine ⟨_, runs, time, book, panels, loop, turn, slots, clock, lines, cache, voice, channels,
      ring, best, fun p c => ?_⟩
    cases p with
    | playback => exact notices .playback c
    | console => exact notices .console c
    | venue => exact notices .venue c

end Sys2Proof.Machine
end

section
/-! What a frame latch counts of the lines and glyphs it draws (R130, R152; O41). -/

namespace Sys2Proof.Machine

/-! ## Late marks -/

/-- The cache with the late mark set on some entries. -/
def Cache.marked (c : Cache) (p : Nat → Bool) : Cache :=
  { c with entries := c.entries.zipIdx.map fun e => if p e.2 then { e.1 with late := true } else e.1 }

section
variable (c : Cache) (p : Nat → Bool)

theorem marked_length : (c.marked p).entries.length = c.entries.length := by
  rw [Cache.marked, List.length_map, List.length_zipIdx]

theorem marked_getElem {i : Nat} (h : i < c.entries.length)
    (h' : i < (c.marked p).entries.length := by rwa [marked_length]) :
    (c.marked p).entries[i] = if p i then { c.entries[i] with late := true } else c.entries[i] := by
  unfold Cache.marked
  simp only [List.getElem_map, List.getElem_zipIdx, Nat.zero_add]

theorem entry_marked {i : Nat} (h : i < c.entries.length) :
    (c.marked p).entry i = if p i then { c.entry i with late := true } else c.entry i := by
  rw [entry_eq_getElem (by rwa [marked_length]), entry_eq_getElem h]
  exact marked_getElem c p h

/-- A lookup reads the codes alone. -/
theorem find_of_codes {c d : Cache} (h : d.entries.map (·.code) = c.entries.map (·.code)) (k : Code) :
    d.find k = c.find k := by
  have lookup (e : Cache) : e.find k = (e.entries.map (·.code)).findIdx? fun x => x = some k :=
    (List.findIdx?_map (f := fun x : CacheEntry => x.code) (p := fun x => decide (x = some k))).symm
  rw [lookup, lookup, h]

theorem find_marked (k : Code) : (c.marked p).find k = c.find k := by
  refine find_of_codes (List.ext_getElem ?_ fun i h h' => ?_) k
  · rw [List.length_map, List.length_map, marked_length]
  · have inside : i < c.entries.length := by rwa [List.length_map] at h'
    rw [List.getElem_map, List.getElem_map, marked_getElem c p inside]
    split <;> rfl

theorem marked_nowhere : (c.marked fun _ => false) = c := by
  have entries : c.entries.zipIdx.map (fun e => e.1) = c.entries := List.zipIdx_map_fst 0 c.entries
  unfold Cache.marked
  simp only [Bool.false_eq_true, if_false, entries]

theorem marked_setEntry {i : Nat} (h : i < c.entries.length) :
    (c.marked p).setEntry i { c.entry i with late := true } =
      c.marked fun j => p j || decide (j = i) := by
  have entries : (c.marked p).entries.set i { c.entry i with late := true } =
      (c.marked fun j => p j || decide (j = i)).entries := by
    refine List.ext_getElem ?_ fun j inside inside' => ?_
    · rw [List.length_set, marked_length, marked_length]
    · have within : j < c.entries.length := by rwa [marked_length] at inside'
      rw [List.getElem_set, marked_getElem c (fun j => p j || decide (j = i)) within]
      by_cases same : i = j
      · subst same
        rw [if_pos rfl, decide_eq_true rfl, Bool.or_true, if_pos rfl, entry_eq_getElem h]
      · rw [if_neg same, marked_getElem c p within, decide_eq_false (fun e => same e.symm),
          Bool.or_false]
  exact congrArg (fun es => { c.marked p with entries := es }) entries

end

/-- An entry that counts as late where it is drawn (R130). -/
def CacheEntry.runsLate (e : CacheEntry) : Bool := e.isFetching && e.bitmap.isNone && !e.late

/-- `u` is `s` with the late marks of `p` set, each counted once, up to 255. -/
def LateMarked (s : State) (p : Nat → Bool) (u : State) : Prop :=
  ∃ n, u = { s with cache := s.cache.marked p, video := { s.video with glyphLate := n } } ∧
    (s.video.glyphLate ≤ 255 →
      n = min 255 (s.video.glyphLate + ((List.range s.cache.entries.length).filter p).length))

theorem lateMarked_refl (s : State) : LateMarked s (fun _ => false) s := by
  refine ⟨s.video.glyphLate, ?_, fun held => ?_⟩
  · rw [marked_nowhere]
  · rw [List.filter_false, List.length_nil]
    omega

/-- The members of a list that satisfy a test, or are one member that does not. -/
theorem filter_insert {i : Nat} {p : Nat → Bool} (new : p i = false) {l : List Nat} (nodup : l.Nodup)
    (mem : i ∈ l) : (l.filter fun j => p j || decide (j = i)).length = (l.filter p).length + 1 := by
  induction l with
  | nil => exact absurd mem List.not_mem_nil
  | cons x xs ih =>
    obtain ⟨notin, nodup⟩ := List.nodup_cons.mp nodup
    by_cases same : x = i
    · subst same
      have rest : xs.filter (fun j => p j || decide (j = x)) = xs.filter p := by
        refine List.filter_congr fun j hj => ?_
        rw [decide_eq_false (fun e : j = x => notin (e ▸ hj)), Bool.or_false]
      rw [List.filter_cons_of_pos (by simp), List.filter_cons_of_neg (by simp [new]), rest,
        List.length_cons]
    · have tail := ih nodup ((List.mem_cons.mp mem).resolve_left fun e => same e.symm)
      have head : (p x || decide (x = i)) = p x := by rw [decide_eq_false same, Bool.or_false]
      rw [List.filter_cons, List.filter_cons, head]
      split
      · rw [List.length_cons, List.length_cons, tail]
      · exact tail

section
variable {s u : State} {p : Nat → Bool}

theorem lateMarked_countLate (h : LateMarked s p u) (k : Code) :
    LateMarked s (fun i => p i || (decide (s.cache.find k = some i) && (s.cache.entry i).runsLate))
      (u.countLate k) := by
  obtain ⟨n, state, count⟩ := h
  have cache : u.cache = s.cache.marked p := congrArg State.cache state
  have found : u.cache.find k = s.cache.find k := by rw [cache, find_marked]
  unfold State.countLate
  rw [found]
  cases lookup : s.cache.find k with
  | none =>
    have same : (fun i => p i || (decide ((none : Option Nat) = some i) && (s.cache.entry i).runsLate)) =
        p := by
      funext i
      exact Bool.or_false (p i)
    rw [same]
    exact ⟨n, state, count⟩
  | some i =>
    have inside := (s.cache.find_code i lookup).1
    have entry : u.cache.entry i =
        if p i then { s.cache.entry i with late := true } else s.cache.entry i := by
      rw [cache]
      exact entry_marked s.cache p inside
    have counts : ((u.cache.entry i).isFetching && (u.cache.entry i).bitmap.isNone &&
        !(u.cache.entry i).late) = (!p i && (s.cache.entry i).runsLate) := by
      rw [entry, CacheEntry.runsLate]
      cases p i with
      | true => simp
      | false => rfl
    simp only [counts]
    by_cases newly : (!p i && (s.cache.entry i).runsLate) = true
    · obtain ⟨unmarked, runs⟩ := Bool.and_eq_true_iff.mp newly
      have fresh : p i = false := Bool.not_eq_true' _ ▸ unmarked
      have grown : (fun j => p j || (decide (some i = some j) && (s.cache.entry j).runsLate)) =
          fun j => p j || decide (j = i) := by
        funext j
        by_cases own : j = i
        · rw [own, runs, decide_eq_true rfl, decide_eq_true rfl, Bool.true_and]
        · rw [decide_eq_false own, decide_eq_false (by simpa using fun e => own e.symm), Bool.false_and]
      have set : u.cache.setEntry i { u.cache.entry i with late := true } =
          s.cache.marked fun j => p j || decide (j = i) := by
        rw [entry, fresh, cache]
        exact marked_setEntry s.cache p inside
      have more := filter_insert fresh List.nodup_range (List.mem_range.mpr inside)
      rw [if_pos newly, grown, set, state]
      refine ⟨bump 255 n, rfl, fun held => ?_⟩
      rw [bump, count held, more]
      omega
    · have same : (fun j => p j || (decide (some i = some j) && (s.cache.entry j).runsLate)) = p := by
        funext j
        by_cases own : i = j
        · subst own
          cases marked : p i with
          | true => rfl
          | false =>
            rw [marked] at newly
            have never : (s.cache.entry i).runsLate = false := Bool.eq_false_iff.mpr newly
            rw [never, Bool.and_false, Bool.or_false]
        · rw [decide_eq_false (by simpa using own), Bool.false_and, Bool.or_false]
      rw [if_neg newly, same]
      exact ⟨n, state, count⟩

theorem lateMarked_foldl (h : LateMarked s p u) (gs : List GlyphBox) :
    LateMarked s (fun i => p i ||
        ((gs.any fun g => decide (s.cache.find g.code = some i)) && (s.cache.entry i).runsLate))
      (gs.foldl (fun s g => s.countLate g.code) u) := by
  induction gs generalizing u p with
  | nil =>
    have same : (fun i => p i || ((([] : List GlyphBox).any fun g =>
        decide (s.cache.find g.code = some i)) && (s.cache.entry i).runsLate)) = p := by
      funext i
      exact Bool.or_false (p i)
    rw [same]
    exact h
  | cons g gs ih =>
    have same : (fun i => p i || (((g :: gs).any fun g => decide (s.cache.find g.code = some i)) &&
        (s.cache.entry i).runsLate)) = fun i => (p i ||
          (decide (s.cache.find g.code = some i) && (s.cache.entry i).runsLate)) ||
        ((gs.any fun g => decide (s.cache.find g.code = some i)) && (s.cache.entry i).runsLate) := by
      funext i
      rw [List.any_cons, Bool.and_or_distrib_right, Bool.or_assoc]
    rw [same]
    exact ih (lateMarked_countLate h g.code)

/-- The late marks and their count after the glyphs drawn. -/
theorem countLate_foldl (s : State) (gs : List GlyphBox) :
    LateMarked s (fun i => (gs.any fun g => decide (s.cache.find g.code = some i)) &&
        (s.cache.entry i).runsLate)
      (gs.foldl (fun s g => s.countLate g.code) s) := by
  have marked := lateMarked_foldl (lateMarked_refl s) gs
  simp only [Bool.false_or] at marked
  exact marked

end

end Sys2Proof.Machine
end

section
/-! What a frame latch draws and counts (R105, R116, R117, R130, R148, R152; O41). -/

namespace Sys2Proof.Machine

/-! ## Glyphs placed one after the other -/

theorem zipIdx_cons_map {α β : Type} (x : α) (xs : List α) (f : α × Nat → β) :
    (x :: xs).zipIdx.map f = f (x, 0) :: xs.zipIdx.map fun z => f (z.1, z.2 + 1) := by
  rw [List.zipIdx_cons, List.map_cons, List.zipIdx_succ, List.map_map]
  rfl

theorem zipIdx_cons_flatMap {α β : Type} (x : α) (xs : List α) (f : α × Nat → List β) :
    (x :: xs).zipIdx.flatMap f = f (x, 0) ++ xs.zipIdx.flatMap fun z => f (z.1, z.2 + 1) := by
  rw [List.flatMap_def, zipIdx_cons_map, List.flatten_cons, ← List.flatMap_def]

section
variable (c : Cache) (y : Int) (sung unsung : Colour) (clip : Int)

theorem textWidth_cons (k : Code) (ks : List Code) :
    c.textWidth (k :: ks) = (c.drawnGlyph k).2 + c.textWidth ks := List.sum_cons

theorem textWidth_append (ks js : List Code) :
    c.textWidth (ks ++ js) = c.textWidth ks + c.textWidth js := by
  rw [Cache.textWidth, List.map_append, List.sum_append]
  rfl

/-- Each glyph stands after the widths of those before it. -/
theorem placeGlyphs_eq (split x : Int) (ks : List Code) :
    c.placeGlyphs y split sung unsung clip x ks = ks.zipIdx.map fun g =>
      { code := g.1, x := x + c.textWidth (ks.take g.2), y := y, drawn := (c.drawnGlyph g.1).1
        split := split, sung := sung, unsung := unsung, clip := clip } := by
  induction ks generalizing x with
  | nil => rfl
  | cons k ks ih =>
    rw [Cache.placeGlyphs, ih, zipIdx_cons_map]
    refine congrArg₂ List.cons ?_ (List.map_congr_left fun g _ => ?_)
    · simp [Cache.textWidth]
    · rw [List.take_succ_cons, textWidth_cons, Nat.cast_add, Int.add_assoc]

/-- Each syllable stands after the widths of those before it. -/
theorem placeSyllables_eq (t : Nat) (x : Int) (zs : List Syllable) :
    c.placeSyllables t y sung unsung clip x zs = zs.zipIdx.flatMap fun z =>
      let edge := x + c.textWidth ((zs.take z.2).flatMap (·.glyphs))
      c.placeGlyphs y (edge + sungWidth z.1 (c.textWidth z.1.glyphs) t) sung unsung clip edge
        z.1.glyphs := by
  induction zs generalizing x with
  | nil => rfl
  | cons z zs ih =>
    rw [Cache.placeSyllables, ih, zipIdx_cons_flatMap]
    refine congrArg₂ (· ++ ·) ?_ (List.flatMap_congr fun w _ => ?_)
    · simp [Cache.textWidth]
    · simp only [List.take_succ_cons, List.flatMap_cons, textWidth_append, Nat.cast_add,
        Int.add_assoc]

end

/-! ## What the drawing reads of the cache -/

theorem drawnGlyph_marked (c : Cache) (p : Nat → Bool) : (c.marked p).drawnGlyph = c.drawnGlyph := by
  funext k
  rw [Cache.drawnGlyph, Cache.drawnGlyph, find_marked]
  cases found : c.find k with
  | none => rfl
  | some i =>
    have bitmap : ((c.marked p).entry i).bitmap = (c.entry i).bitmap := by
      rw [entry_marked c p (c.find_code i found).1]
      split <;> rfl
    simp only [bitmap]

section
variable {s u : State}

/-- A line's cells are drawn from the glyphs, the track, the settings and the scroll. -/
theorem lineGlyphs_congr (drawn : u.cache.drawnGlyph = s.cache.drawnGlyph)
    (track : u.stageTrack = s.stageTrack) (invert : u.video.invert = s.video.invert)
    {w : List WindowLine} (lines : u.lines = { s.lines with window := w }) (t : Nat) (x : WindowLine) :
    u.lineGlyphs t x = s.lineGlyphs t x := by
  have width : u.cache.textWidth = s.cache.textWidth := by
    unfold Cache.textWidth
    rw [drawn]
  unfold State.lineGlyphs
  rw [track, invert, lines]
  simp only [placeSyllables_eq, placeGlyphs_eq, width, drawn]
  rfl

theorem drawnClipped_congr (drawn : u.cache.drawnGlyph = s.cache.drawnGlyph)
    (track : u.stageTrack = s.stageTrack) (invert : u.video.invert = s.video.invert)
    {w : List WindowLine} (lines : u.lines = { s.lines with window := w }) (t : Nat) (x : WindowLine) :
    u.drawnClipped t x = s.drawnClipped t x := by
  have width : u.cache.textWidth = s.cache.textWidth := by
    unfold Cache.textWidth
    rw [drawn]
  have codes : u.lineCodes x.index = s.lineCodes x.index := by
    unfold State.lineCodes
    rw [track]
  have layout : u.lines.layout = s.lines.layout := by
    rw [lines]
    rfl
  rw [State.drawnClipped, State.drawnClipped, lineGlyphs_congr drawn track invert lines, width, codes,
    layout]

end

/-! ## Clipped marks -/

/-- The clipped mark of a line, set where the line's index is marked. -/
def WindowLine.clipIf (q : Nat → Bool) (y : WindowLine) : WindowLine :=
  if q y.index then { y with clipped := true } else y

theorem clipIf_of_marked {q : Nat → Bool} {y : WindowLine} (h : q y.index = true) :
    y.clipIf q = { y with clipped := true } := if_pos h

theorem clipIf_of_unmarked {q : Nat → Bool} {y : WindowLine} (h : q y.index = false) :
    y.clipIf q = y := if_neg (by rw [h]; exact Bool.false_ne_true)

theorem clipIf_clipIf (q r : Nat → Bool) (y : WindowLine) :
    (y.clipIf q).clipIf r = y.clipIf fun i => q i || r i := by
  cases first : q y.index with
  | true =>
    rw [clipIf_of_marked first, clipIf_of_marked (q := fun i => q i || r i) (by rw [first]; rfl)]
    exact ite_self _
  | false =>
    rw [clipIf_of_unmarked first]
    cases second : r y.index with
    | true =>
      rw [clipIf_of_marked second, clipIf_of_marked (q := fun i => q i || r i) (by rw [second, Bool.or_true])]
    | false =>
      rw [clipIf_of_unmarked second,
        clipIf_of_unmarked (q := fun i => q i || r i) (by rw [first, second]; rfl)]

/-- A line of the window that counts as clipped where it is drawn (R105). -/
def State.clipsNow (s : State) (x : WindowLine) : Bool :=
  !x.clipped && s.drawnClipped s.clock.position x

/-- `u` is `s` with the clipped marks of `q` set and `n` lines counted, up to 255. -/
def ClipMarked (s : State) (q : Nat → Bool) (n : Nat) (u : State) : Prop :=
  ∃ m, u = { s with
      lines := { s.lines with window := s.lines.window.map (·.clipIf q) }
      video := { s.video with lineClipped := m } } ∧
    (s.video.lineClipped ≤ 255 → m = min 255 (s.video.lineClipped + n))

theorem clipMarked_refl (s : State) : ClipMarked s (fun _ => false) 0 s := by
  have unmarked : s.lines.window.map (·.clipIf fun _ => false) = s.lines.window := List.map_id _
  refine ⟨s.video.lineClipped, ?_, fun held => ?_⟩
  · rw [unmarked]
  · omega

theorem clipMarked_countClipped {s u : State} {q : Nat → Bool} {n : Nat} (h : ClipMarked s q n u)
    (x : WindowLine) : ClipMarked s (fun i => q i || (decide (x.index = i) && s.clipsNow x))
      (n + if s.clipsNow x then 1 else 0) (u.countClipped x) := by
  obtain ⟨m, state, count⟩ := h
  have drawn : u.drawnClipped u.clock.position x = s.drawnClipped s.clock.position x := by
    rw [state]
    exact drawnClipped_congr (w := s.lines.window.map (·.clipIf q)) rfl rfl rfl rfl _ x
  have counts : (!x.clipped && u.drawnClipped u.clock.position x) = s.clipsNow x := by
    rw [drawn, State.clipsNow]
  unfold State.countClipped
  rw [counts]
  cases clips : s.clipsNow x with
  | true =>
    have own (y : WindowLine) : (if y.index = x.index then { y with clipped := true } else y) =
        y.clipIf fun i => decide (x.index = i) && true :=
      if_congr (by simp [eq_comm]) rfl rfl
    have window : (s.lines.window.map (·.clipIf q)).map (fun y : WindowLine =>
        if y.index = x.index then { y with clipped := true } else y) =
        s.lines.window.map (·.clipIf fun i => q i || (decide (x.index = i) && true)) := by
      rw [List.map_map]
      exact List.map_congr_left fun y _ => (own _).trans (clipIf_clipIf q _ y)
    rw [if_pos rfl, if_pos rfl, state]
    refine ⟨bump 255 m, ?_, fun held => ?_⟩
    · rw [← window]
      rfl
    · rw [bump, count held]
      omega
  | false =>
    have same : (fun i => q i || (decide (x.index = i) && false)) = q := by
      funext i
      rw [Bool.and_false, Bool.or_false]
    rw [same, if_neg Bool.false_ne_true, if_neg Bool.false_ne_true]
    exact ⟨m, state, count⟩

theorem clipMarked_foldl {s u : State} {q : Nat → Bool} {n : Nat} (h : ClipMarked s q n u)
    (xs : List WindowLine) :
    ClipMarked s (fun i => q i || xs.any fun x => decide (x.index = i) && s.clipsNow x)
      (n + (xs.filter s.clipsNow).length) (xs.foldl State.countClipped u) := by
  induction xs generalizing u q n with
  | nil =>
    have same : (fun i => q i || ([] : List WindowLine).any fun x =>
        decide (x.index = i) && s.clipsNow x) = q := by
      funext i
      exact Bool.or_false (q i)
    rw [same]
    exact h
  | cons x xs ih =>
    have same : (fun i => q i || (x :: xs).any fun x => decide (x.index = i) && s.clipsNow x) =
        fun i => (q i || (decide (x.index = i) && s.clipsNow x)) ||
          xs.any fun x => decide (x.index = i) && s.clipsNow x := by
      funext i
      rw [List.any_cons, Bool.or_assoc]
    have more : n + ((x :: xs).filter s.clipsNow).length =
        (n + if s.clipsNow x then 1 else 0) + (xs.filter s.clipsNow).length := by
      rw [List.filter_cons]
      split
      · rw [List.length_cons]
        omega
      · omega
    rw [same, more]
    exact ih (clipMarked_countClipped h x)

/-- The clipped marks and their count after the lines of the window. -/
theorem countClipped_foldl (s : State) (xs : List WindowLine) :
    ClipMarked s (fun i => xs.any fun x => decide (x.index = i) && s.clipsNow x)
      (xs.filter s.clipsNow).length (xs.foldl State.countClipped s) := by
  have marked := clipMarked_foldl (clipMarked_refl s) xs
  simp only [Bool.false_or, Nat.zero_add] at marked
  exact marked

/-! ## The latch -/

/-- An entry that the latch of a capture counts as late (R130). -/
def State.lateNow (s : State) (i : Nat) : Bool :=
  ((s.drawnGlyphs s.capture).any fun g => decide (s.cache.find g.code = some i)) &&
    (s.cache.entry i).runsLate

/-- A line of the window that the latch of a capture counts as clipped (R105). -/
def State.clippedNow (s : State) (x : WindowLine) : Bool := s.drawnBands.lyric && s.clipsNow x

/-- The line indices that the latch of a capture marks as clipped. -/
def State.clippedAt (s : State) (i : Nat) : Bool :=
  s.lines.window.any fun x => decide (x.index = i) && s.clippedNow x

/-- All that steps 3 to 5 of a latch do. -/
theorem latchOverlay_eq (s : State) : ∃ late clipped,
    s.latchOverlay = { s with
      cache := s.cache.marked s.lateNow
      lines := { s.lines with window := s.lines.window.map fun y => y.clipIf s.clippedAt }
      video := { s.video with
        glyphLate := late, lineClipped := clipped, lastKeyed := s.keyed, frame := some s.capture } } ∧
    (s.video.glyphLate ≤ 255 → late = min 255 (s.video.glyphLate +
      ((List.range s.cache.entries.length).filter s.lateNow).length)) ∧
    (s.video.lineClipped ≤ 255 → clipped = min 255 (s.video.lineClipped +
      (s.lines.window.filter s.clippedNow).length)) := by
  obtain ⟨late, marked, lateCount⟩ := countLate_foldl s (s.drawnGlyphs s.capture)
  unfold State.latchOverlay State.countDrawn
  simp only
  cases lyric : s.drawnBands.lyric with
  | true =>
    rw [if_pos rfl]
    generalize (s.drawnGlyphs s.capture).foldl (fun s g => s.countLate g.code) s = u at marked ⊢
    have window : u.lines.window = s.lines.window := by rw [marked]
    have clips : u.clipsNow = s.clippedNow := by
      funext x
      have drawn : u.drawnClipped u.clock.position x = s.drawnClipped s.clock.position x := by
        have glyphs : u.cache.drawnGlyph = s.cache.drawnGlyph := by
          rw [marked]
          exact drawnGlyph_marked _ _
        have clock : u.clock = s.clock := by rw [marked]
        have track : u.stageTrack = s.stageTrack := by
          rw [marked]
          rfl
        have lines : u.lines = { s.lines with window := s.lines.window } := by rw [marked]
        rw [clock]
        exact drawnClipped_congr glyphs track (by rw [marked]) lines _ x
      rw [State.clipsNow, drawn, State.clippedNow, lyric, State.clipsNow, Bool.true_and]
    obtain ⟨clipped, state, clippedCount⟩ := countClipped_foldl u u.lines.window
    rw [clips, window] at state clippedCount
    refine ⟨late, clipped, ?_, lateCount, ?_⟩
    · rw [window, state, marked]
      rfl
    · rw [marked] at clippedCount
      exact clippedCount
  | false =>
    rw [if_neg Bool.false_ne_true, marked]
    have never : s.clippedNow = fun _ => false := by
      funext x
      rw [State.clippedNow, lyric, Bool.false_and]
    have window : s.lines.window.map (·.clipIf s.clippedAt) = s.lines.window := by
      refine (List.map_congr_left fun y _ => clipIf_of_unmarked ?_).trans (List.map_id' _)
      rw [State.clippedAt, never]
      simp
    refine ⟨late, s.video.lineClipped, ?_, lateCount, fun held => ?_⟩
    · rw [window]
      rfl
    · rw [never, List.filter_false, List.length_nil]
      omega

end Sys2Proof.Machine
end

section
/-! A rebuild of the window (R113, R114; O42). -/

namespace Sys2Proof.Machine

/-! ## Lists without repeats -/

theorem mem_of_mem_distinct {x : Code} {ks : List Code} (h : x ∈ distinct ks) : x ∈ ks := by
  induction ks with
  | nil => exact h
  | cons k ks ih =>
    rcases List.mem_cons.mp h with same | rest
    · exact List.mem_cons.mpr (.inl same)
    · exact List.mem_cons_of_mem k (ih (List.mem_of_mem_filter rest))

theorem filter_distinct (p : Code → Bool) (ks : List Code) :
    (distinct ks).filter p = distinct (ks.filter p) := by
  induction ks with
  | nil => rfl
  | cons k ks ih =>
    have swap : ((distinct ks).filter (· ≠ k)).filter p = ((distinct ks).filter p).filter (· ≠ k) := by
      rw [List.filter_filter, List.filter_filter]
      exact List.filter_congr fun x _ => Bool.and_comm _ _
    cases keeps : p k with
    | true => rw [distinct, List.filter_cons_of_pos keeps, List.filter_cons_of_pos keeps, distinct, swap, ih]
    | false =>
      have drops : ¬ p k = true := by rw [keeps]; exact Bool.false_ne_true
      rw [distinct, List.filter_cons_of_neg drops, List.filter_cons_of_neg drops, swap, ih]
      refine List.filter_eq_self.mpr fun x mem => decide_eq_true fun same => drops ?_
      exact same ▸ (List.mem_filter.mp (mem_of_mem_distinct mem)).2

theorem distinct_eq_eraseDups (ks : List Code) : distinct ks = ks.eraseDups := by
  match ks with
  | [] => rfl
  | k :: ks =>
    have shorter : (ks.filter fun x => !x == k).length ≤ ks.length := List.length_filter_le _ _
    have others : ks.filter (fun x => decide (x ≠ k)) = ks.filter fun x => !x == k :=
      List.filter_congr fun x _ => by rw [Bool.eq_iff_iff]; simp
    rw [List.eraseDups_cons, distinct, filter_distinct, others, distinct_eq_eraseDups]
termination_by ks.length
decreasing_by exact Nat.lt_succ_of_le shorter

/-! ## The lines and the cache of a rebuild -/

theorem prefetch_foldl (xs : List (Line × Nat)) (s : State) :
    xs.foldl (fun s x => s.prefetch x.1.codes) s = { s with
      cache := (xs.flatMap fun x => distinct x.1.codes).foldl (Cache.prefetch s.font.store) s.cache } := by
  induction xs generalizing s with
  | nil => rfl
  | cons x xs ih =>
    rw [List.foldl_cons, ih, List.flatMap_cons, List.foldl_append]
    rfl

section
variable (s : State) (ls : List (Line × Nat))

/-- The lines a rebuild keeps, with their rows. -/
def State.keptLines : List ((Line × Nat) × Nat) := s.lines.kept ls s.clock.position

/-- The window a rebuild makes. -/
def State.rebuiltWindow : List WindowLine :=
  (s.keptLines ls).map fun k =>
    { index := k.1.2, row := k.2, state := s.lines.stateAt k.1.1 s.clock.position
      clipped := s.lines.window.any fun o => o.index = k.1.2 && o.clipped
      linger := false, pins := k.1.1.codes }

/-- The cache a rebuild makes: releases, pins, prefetches. -/
def State.rebuiltCache : Cache :=
  let gone := s.lines.window.filter fun o => !((s.keptLines ls).any fun k => k.1.2 = o.index)
  let new := (s.keptLines ls).filter fun k => !(s.lines.window.any fun o => o.index = k.1.2)
  let coming := ls.filter fun x => s.lines.prefetchTime x.1 ≤ (s.clock.position : Int) &&
    (s.clock.position : Int) < s.lines.postTime x.1
  (coming.flatMap fun x => distinct x.1.codes).foldl (Cache.prefetch s.font.store)
    ((new.flatMap fun k => k.1.1.codes).foldl (Cache.lookupPin s.font.store)
      ((gone.flatMap (·.pins)).foldl Cache.release s.cache))

theorem rebuildFrom_eq : s.rebuildFrom ls = { s with
    lines := { s.lines with
      window := s.rebuiltWindow ls, pending := [], scroll := none, rebuild := false }
    cache := s.rebuiltCache ls } := by
  unfold State.rebuildFrom
  simp only
  rw [prefetch_foldl]
  rfl

end

section
variable {s : State}

theorem makeRebuild_of_none (h : s.lines.rebuild = false) : s.makeRebuild = s :=
  if_neg (by rw [h]; exact Bool.false_ne_true)

theorem makeRebuild_of_stage {t : Turn} (h : s.lines.rebuild = true) (turn : s.turn = some t) :
    s.makeRebuild = s.rebuildFrom s.stageLines := by
  rw [State.makeRebuild, turn]
  exact if_pos h

theorem makeRebuild_of_empty (h : s.lines.rebuild = true) (turn : s.turn = none) :
    s.makeRebuild = { s with lines := { s.lines with rebuild := false } } := by
  rw [State.makeRebuild, if_pos h, turn]
  simp only [State.mapLines]
  rw [turn]

/-- The settings stay at a rebuild, and none is pending after it. -/
theorem makeRebuild_lines (s : State) : s.makeRebuild.lines = { s.lines with
    window := s.makeRebuild.lines.window, pending := s.makeRebuild.lines.pending
    scroll := s.makeRebuild.lines.scroll, rebuild := false } := by
  cases pending : s.lines.rebuild with
  | false =>
    rw [makeRebuild_of_none pending, ← pending]
  | true =>
    cases turn : s.turn with
    | none => rw [makeRebuild_of_empty pending turn]
    | some t => rw [makeRebuild_of_stage pending turn, rebuildFrom_eq]

theorem countScroll_of_none (h : s.lines.scroll = none) : s.countScroll = s := by
  rw [State.countScroll, h]

end

/-- The state of a latch before the capture. -/
theorem readyToCapture_eq (s : State) : s.readyToCapture =
    (if s.lines.stepTwoMade then s.makeRebuild else s.makeRebuild.countScroll).mapLines
      fun l => { l with stepTwoMade := false } := by
  have made : s.makeRebuild.lines.stepTwoMade = s.lines.stepTwoMade := by
    rw [makeRebuild_lines]
  rw [State.readyToCapture, made]

/-! ## The lines due, and the rows they take -/

section
variable (l : LineScheduler) (x : Nat)

/-- The lines due at a position, by the times of R114. -/
def LineScheduler.dueAt (ls : List (Line × Nat)) : List (Line × Nat) :=
  ls.filter fun z => decide (z.1.start ≤ x + l.lead) && decide (x < z.1.stop + l.hold + l.linger)

theorem due_eq (ls : List (Line × Nat)) : l.due ls x = l.dueAt x ls := by
  refine List.filter_congr fun z _ => ?_
  have post : (l.postTime z.1 ≤ (x : Int)) ↔ z.1.start ≤ x + l.lead := by
    rw [LineScheduler.postTime]
    omega
  simp only [post]
  rfl

/-- The lines that stand in the rows after a rebuild. -/
def LineScheduler.rowsOf (due : List (Line × Nat)) : List (Line × Nat) :=
  match l.style with
  | .scroll => due.drop (due.length - l.layout.rows)
  | .alternate => (due.filter fun z => z.2 % 2 = 0).getLast?.toList ++
      (due.filter fun z => z.2 % 2 = 1).getLast?.toList

/-- The row of a line that stands at a place among them. -/
def LineScheduler.rowAt (z : (Line × Nat) × Nat) : Nat :=
  match l.style with
  | .scroll => z.2
  | .alternate => z.1.2 % 2

theorem lastOf_row {due : List (Line × Nat)} {r : Nat} {z : Line × Nat}
    (h : (due.filter fun z => z.2 % 2 = r).getLast? = some z) : z.2 % 2 = r :=
  of_decide_eq_true (List.mem_filter.mp (List.mem_of_getLast? h)).2

theorem kept_eq (ls : List (Line × Nat)) :
    l.kept ls x = (l.rowsOf (l.dueAt x ls)).zipIdx.map fun z => (z.1, l.rowAt z) := by
  unfold LineScheduler.kept LineScheduler.rowsOf LineScheduler.rowAt
  rw [due_eq]
  simp only
  cases l.style with
  | scroll => exact (List.map_id' _).symm
  | alternate =>
    simp only
    cases even : ((l.dueAt x ls).filter fun z => z.2 % 2 = 0).getLast? with
    | none =>
      cases odd : ((l.dueAt x ls).filter fun z => z.2 % 2 = 1).getLast? with
      | none => rfl
      | some b => simp [lastOf_row odd]
    | some a =>
      cases odd : ((l.dueAt x ls).filter fun z => z.2 % 2 = 1).getLast? with
      | none => simp [lastOf_row even]
      | some b => simp [lastOf_row even, lastOf_row odd]

theorem kept_fst (ls : List (Line × Nat)) :
    (l.kept ls x).map (·.1) = l.rowsOf (l.dueAt x ls) := by
  rw [kept_eq, List.map_map]
  exact List.zipIdx_map_fst 0 _

end

section
variable (s : State) (ls : List (Line × Nat))

/-- The lines that stand in the rows after a rebuild of this state. -/
def State.rowLines : List (Line × Nat) := s.lines.rowsOf (s.lines.dueAt s.clock.position ls)

theorem rebuiltWindow_eq : s.rebuiltWindow ls = (s.rowLines ls).zipIdx.map fun z =>
    { index := z.1.2, row := s.lines.rowAt z
      state := if s.clock.position < z.1.1.start then .posted
        else if s.clock.position < z.1.1.stop + s.lines.hold then .singing else .done
      clipped := s.lines.window.any fun w => w.index = z.1.2 && w.clipped
      linger := false, pins := z.1.1.codes } := by
  rw [State.rebuiltWindow, State.keptLines, kept_eq, List.map_map]
  rfl

theorem keptLines_fst : (s.keptLines ls).map (·.1) = s.rowLines ls :=
  kept_fst s.lines s.clock.position ls

theorem keptLines_any (w : WindowLine) :
    ((s.keptLines ls).any fun k => k.1.2 = w.index) = (s.rowLines ls).any fun z => z.2 = w.index := by
  rw [← keptLines_fst, List.any_map]
  rfl

theorem newLines_codes (old : List WindowLine) :
    (((s.keptLines ls).filter fun k => !(old.any fun o => o.index = k.1.2)).flatMap
      fun k => k.1.1.codes) =
    ((s.rowLines ls).filter fun z => !(old.any fun w => w.index = z.2)).flatMap
      fun z => z.1.codes := by
  rw [← keptLines_fst, List.filter_map, List.flatMap_map]
  rfl

theorem comingLines_codes (lines : List Line) : ((lines.zipIdx.filter fun x =>
      s.lines.prefetchTime x.1 ≤ (s.clock.position : Int) &&
        (s.clock.position : Int) < s.lines.postTime x.1).flatMap fun x => distinct x.1.codes) =
    (lines.filter fun y => decide (y.start ≤ s.clock.position + s.lines.lead + 1000) &&
      decide (s.clock.position + s.lines.lead < y.start)).flatMap fun y => y.codes.eraseDups := by
  have split : lines = lines.zipIdx.map (·.1) := (List.zipIdx_map_fst 0 lines).symm
  conv_rhs => rw [split, List.filter_map, List.flatMap_map]
  have times (y : Line) :
      (s.lines.prefetchTime y ≤ (s.clock.position : Int) ↔
        y.start ≤ s.clock.position + s.lines.lead + 1000) ∧
      ((s.clock.position : Int) < s.lines.postTime y ↔
        s.clock.position + s.lines.lead < y.start) := by
    rw [LineScheduler.prefetchTime, LineScheduler.postTime]
    omega
  simp only [(times _).1, (times _).2, distinct_eq_eraseDups]
  rfl

theorem rebuiltCache_eq (lines : List Line) : s.rebuiltCache lines.zipIdx =
    let rows := s.rowLines lines.zipIdx
    let gone := s.lines.window.filter fun w => !(rows.any fun z => z.2 = w.index)
    let new := rows.filter fun z => !(s.lines.window.any fun w => w.index = z.2)
    let coming := lines.filter fun y =>
      decide (y.start ≤ s.clock.position + s.lines.lead + 1000) &&
        decide (s.clock.position + s.lines.lead < y.start)
    (coming.flatMap fun y => y.codes.eraseDups).foldl (Cache.prefetch s.font.store)
      ((new.flatMap fun z => z.1.codes).foldl (Cache.lookupPin s.font.store)
        ((gone.flatMap fun w => w.pins).foldl Cache.release s.cache)) := by
  unfold State.rebuiltCache
  simp only [keptLines_any, newLines_codes, comingLines_codes]

end

/-! ## The latch of a rebuild (O42) -/

section
variable {s : State}

/-- A latch shows the lines and the cache it finds, but for the marks it sets. -/
theorem latchOverlay_marks (s : State) :
    (∃ q, s.latchOverlay.lines = { s.lines with window := s.lines.window.map (·.clipIf q) } ∧
      (s.drawnBands.lyric = false → ∀ i, q i = false)) ∧
    s.latchOverlay.video.lastKeyed = s.keyed ∧ ∃ p, s.latchOverlay.cache = s.cache.marked p := by
  obtain ⟨late, clipped, latch, -⟩ := latchOverlay_eq s
  rw [latch]
  refine ⟨⟨s.clippedAt, rfl, fun undrawn i => ?_⟩, rfl, _, rfl⟩
  rw [State.clippedAt]
  simp [State.clippedNow, undrawn]

/-- Nothing is drawn where nothing is keyed, and with a content other than NORMAL. -/
theorem drawnBands_lyric_of_not (h : s.keyed = none ∨ s.video.content ≠ .normal) :
    s.drawnBands.lyric = false := by
  rw [State.drawnBands]
  cases keyed : s.keyed with
  | none => rfl
  | some b =>
    simp only
    rw [if_neg (h.resolve_left (by rw [keyed]; exact nofun))]

theorem entry_marked_late (c : Cache) (p : Nat → Bool) (i : Nat) :
    (c.marked p).entry i = { c.entry i with late := ((c.marked p).entry i).late } := by
  by_cases inside : i < c.entries.length
  · rw [entry_marked c p inside]
    split <;> rfl
  · have beyond : c.entries.length ≤ i := Nat.le_of_not_lt inside
    rw [entry_of_beyond (c := c.marked p) (by rwa [marked_length]), entry_of_beyond beyond]

theorem clipIf_shown (q : Nat → Bool) (w : List WindowLine) :
    (w.map (·.clipIf q)).map (fun w => (w.index, w.row, w.state, w.linger, w.pins)) =
      w.map fun w => (w.index, w.row, w.state, w.linger, w.pins) := by
  rw [List.map_map]
  refine List.map_congr_left fun y _ => ?_
  rw [Function.comp_apply, WindowLine.clipIf]
  split <;> rfl

theorem clipIf_nowhere {q : Nat → Bool} (h : ∀ i, q i = false) (w : List WindowLine) :
    w.map (·.clipIf q) = w :=
  (List.map_congr_left fun y _ => clipIf_of_unmarked (h y.index)).trans (List.map_id' _)

/-- After a rebuild no scroll is in motion, so that the latch counts none. -/
theorem readyToCapture_of_still (h : s.makeRebuild.lines.scroll = none) : s.readyToCapture =
    { s.makeRebuild with lines := { s.makeRebuild.lines with stepTwoMade := false } } := by
  rw [readyToCapture_eq, countScroll_of_none h, ite_self]
  rfl

end

/-- Settles O42: `rebuildFrom` in closed form; the latch then sets marks alone. -/
theorem rebuildShowsTheLinesDue : Obligations.RebuildShowsTheLinesDue := by
  intro s t track pending turn checked x l due rows window gone new coming released pinned v
  have stage : s.stageLines = track.lines.zipIdx := by
    rw [State.stageLines, State.stageTrack, turn]
    simp only [checked]
  have rebuilt : v = s.rebuildFrom track.lines.zipIdx :=
    stage ▸ makeRebuild_of_stage pending turn
  have lines : v.lines = { l with window := window, pending := [], scroll := none, rebuild := false } := by
    rw [rebuilt, rebuildFrom_eq, rebuiltWindow_eq]
    rfl
  have cache : v.cache = (coming.flatMap fun y => y.codes.eraseDups).foldl
      (Cache.prefetch s.font.store) pinned := by
    rw [rebuilt, rebuildFrom_eq]
    exact rebuiltCache_eq s track.lines
  have ready := readyToCapture_of_still (s := s) (congrArg LineScheduler.scroll lines)
  obtain ⟨⟨q, latched, undrawn⟩, keyed, p, marked⟩ := latchOverlay_marks s.readyToCapture
  have still : v.video = s.video := makeRebuild_touches s .video (by decide)
  have shown : s.frameLatch.lines.window = window.map (·.clipIf q) := by
    rw [frameLatch_eq_latchOverlay, latched, ready]
    exact congrArg (fun m : LineScheduler => m.window.map (·.clipIf q)) lines
  have late : s.frameLatch.cache = v.cache.marked p := by
    rw [frameLatch_eq_latchOverlay, marked, ready]
  refine ⟨makeRebuild_touches s, lines, cache, s.frameLatch, rfl, ?_, ?_, ?_, fun quiet => ?_, ?_, ?_,
    ?_, fun i => ?_⟩
  · rw [frameLatch_eq_latchOverlay, latched, ready]
    exact congrArg LineScheduler.pending lines
  · rw [frameLatch_eq_latchOverlay, latched, ready]
    exact congrArg LineScheduler.scroll lines
  · rw [shown, clipIf_shown]
  · rw [shown]
    refine clipIf_nowhere (undrawn (drawnBands_lyric_of_not ?_)) window
    rw [readyToCapture_video]
    exact quiet.imp_left keyed.symm.trans
  · rw [late]
    rfl
  · rw [late]
    rfl
  · rw [late]
    rfl
  · rw [late]
    exact entry_marked_late _ _ i

end Sys2Proof.Machine
end

section
/-! The capture of a frame latch (R105, R116 to R118, R130, R148, R149; O41). -/

namespace Sys2Proof.Machine

/-! ## The glyphs the cache holds -/

section
variable (c : Cache)

/-- The bitmap the cache holds of a code. -/
def Cache.heldBitmap (k : Code) : Option Bitmap := (c.find k).bind fun i => (c.entry i).bitmap

theorem drawnGlyph_eq (k : Code) : c.drawnGlyph k =
    (((c.heldBitmap k).map fun b => Drawn.coverage b.coverage).getD .blank,
      ((c.heldBitmap k).map (·.advance)).getD 32) := by
  rw [Cache.drawnGlyph, Cache.heldBitmap]
  cases c.find k with
  | none => rfl
  | some i => cases h : (c.entry i).bitmap <;> simp [h]

theorem textWidth_eq (codes : List Code) : c.textWidth codes =
    (codes.map fun k => ((c.heldBitmap k).map (·.advance)).getD 32).sum := by
  rw [Cache.textWidth]
  exact congrArg List.sum (List.map_congr_left fun k _ => by rw [drawnGlyph_eq])

end

/-- The sung width of a syllable, over the integers (R116). -/
theorem sungWidth_eq (z : Syllable) (w t : Nat) : (sungWidth z w t : Int) =
    if z.duration = 0 then (if t < z.start then 0 else (w : Int))
    else max 0 (min (w : Int) (w * ((t : Int) - z.start) / z.duration)) := by
  rw [sungWidth]
  split
  · split <;> rfl
  next moving =>
    by_cases begun : z.start ≤ t
    · have elapsed : ((t - z.start : Nat) : Int) = (t : Int) - z.start := by omega
      rw [← elapsed]
      have quotient : (0 : Int) ≤ (w : Int) * ((t - z.start : Nat) : Int) / (z.duration : Int) := by
        positivity
      rw [max_eq_right (by omega)]
      push_cast
      rfl
    · have none_ : t - z.start = 0 := by omega
      have negative : (w : Int) * ((t : Int) - z.start) / z.duration ≤ 0 := by
        have product : (w : Int) * ((t : Int) - z.start) ≤ 0 :=
          mul_nonpos_of_nonneg_of_nonpos (by omega) (by omega)
        exact (Int.ediv_le_ediv (by omega) product).trans (Int.zero_ediv _).le
      rw [none_, Nat.mul_zero, Nat.zero_div, Nat.min_zero]
      omega

/-! ## The cells of a line and of a text -/

/-- The cells of one syllable from a column on. -/
def Cache.syllableCells (c : Cache) (t : Nat) (y edge clip : Int) (sung unsung : Colour)
    (z : Syllable) : List GlyphBox :=
  let w : Int := c.textWidth z.glyphs
  let wiped : Int :=
    if z.duration = 0 then (if t < z.start then 0 else w)
    else max 0 (min w (w * ((t : Int) - z.start) / z.duration))
  z.glyphs.zipIdx.map fun g =>
    { code := g.1, x := edge + c.textWidth (z.glyphs.take g.2), y := y
      drawn := (c.drawnGlyph g.1).1, split := edge + wiped, sung := sung, unsung := unsung
      clip := clip }

theorem syllableCells_clip {c : Cache} {t : Nat} {y edge clip : Int} {sung unsung : Colour}
    {z : Syllable} {g : GlyphBox} (h : g ∈ c.syllableCells t y edge clip sung unsung z) :
    g.clip = clip := by
  obtain ⟨k, -, rfl⟩ := List.mem_map.mp h
  rfl

theorem placeSyllables_cells (c : Cache) (t : Nat) (y : Int) (sung unsung : Colour) (clip x : Int)
    (zs : List Syllable) : c.placeSyllables t y sung unsung clip x zs = zs.zipIdx.flatMap fun z =>
      c.syllableCells t y (x + c.textWidth ((zs.take z.2).flatMap (·.glyphs))) clip sung unsung
        z.1 := by
  rw [placeSyllables_eq]
  refine List.flatMap_congr fun z _ => ?_
  simp only
  rw [placeGlyphs_eq, sungWidth_eq]
  rfl

theorem scrollOffset_eq (l : LineScheduler) :
    l.scrollOffset = (l.scroll.map fun z => 56 * (z.total - z.done) / z.total).getD 0 := by
  rw [LineScheduler.scrollOffset]
  cases l.scroll with
  | none => rfl
  | some sc =>
    simp only [Option.map_some, Option.getD_some]
    split
    next zero => rw [zero, Nat.div_zero]
    · rfl

section
variable (s : State)

/-- The line of the track on stage with an index. -/
def State.lineAt (n : Nat) : Option Line := s.stageTrack.bind fun track => track.lines[n]?

/-- The colours of a line's part, sung and not yet sung (R117, R152). -/
def State.sungOf (line : Line) : Colour :=
  if s.video.invert then s.lines.unsung else s.lines.sungColour line.tag

def State.unsungOf (line : Line) : Colour :=
  if s.video.invert then s.lines.sungColour line.tag else s.lines.unsung

theorem lineGlyphs_eq (t : Nat) (x : WindowLine) : s.lineGlyphs t x =
    ((s.lineAt x.index).map fun line =>
      (line.syllables.zipIdx.flatMap fun z =>
        s.cache.syllableCells t (s.lines.rowTop x + 4)
          ((leftEdge s.lines.layout.width (s.cache.textWidth line.codes) : Int) +
            s.cache.textWidth ((line.syllables.take z.2).flatMap (·.glyphs)))
          (s.lines.layout.width - 64 : Nat) (s.sungOf line) (s.unsungOf line) z.1).filter
        fun g => g.visible s.lines.layout.lyricTop (56 * s.lines.layout.rows : Nat)).getD [] := by
  rw [State.lineGlyphs, State.lineAt]
  cases s.stageTrack with
  | none => rfl
  | some track =>
    simp only [Option.bind_some]
    cases track.lines[x.index]? with
    | none => rfl
    | some line =>
      simp only [Option.map_some, Option.getD_some, placeSyllables_cells, State.sungOf, State.unsungOf]
      cases s.video.invert <;> rfl

theorem lineCodes_eq (n : Nat) : s.lineCodes n = ((s.lineAt n).map Line.codes).getD [] := by
  rw [State.lineCodes, State.lineAt]
  cases s.stageTrack <;> rfl

theorem textGlyphs_eq (codes : List Code) (y : Int) (colour : Colour) : s.textGlyphs codes y colour =
    (codes.zipIdx.map fun g =>
      { code := g.1
        x := (leftEdge s.lines.layout.width (s.cache.textWidth codes) +
          s.cache.textWidth (codes.take g.2) : Nat)
        y := y, drawn := (s.cache.drawnGlyph g.1).1
        split := leftEdge s.lines.layout.width (s.cache.textWidth codes), sung := colour
        unsung := colour, clip := (s.lines.layout.width - 64 : Nat) }).filter
      fun g : GlyphBox => g.x < g.clip := by
  rw [State.textGlyphs]
  simp only [placeGlyphs_eq]
  rfl

end

/-! ## The state of a latch before the capture -/

section
variable (s : State)

/-- The state of a latch after the rebuild and the scroll's count. -/
def State.counted (s : State) : State :=
  if s.lines.stepTwoMade then s.makeRebuild else s.makeRebuild.countScroll

theorem readyToCapture_counted :
    s.readyToCapture = { s.counted with lines := { s.counted.lines with stepTwoMade := false } } :=
  readyToCapture_eq s

theorem counted_touches : Touches [.lines, .cache] s s.counted := by
  unfold State.counted
  split
  · exact makeRebuild_touches s
  · exact (makeRebuild_touches s).trans (countScroll_touches _)

theorem counted_lines : s.counted.lines = { s.lines with
    window := s.counted.lines.window, pending := s.counted.lines.pending
    scroll := s.counted.lines.scroll, rebuild := false } := by
  unfold State.counted
  split
  · exact makeRebuild_lines s
  · rw [(countScroll_windowed s.makeRebuild).lines, makeRebuild_lines]

theorem counted_settings : s.readyToCapture.lines = { s.lines with
    window := s.counted.lines.window, pending := s.counted.lines.pending
    scroll := s.counted.lines.scroll, rebuild := false, stepTwoMade := false } := by
  rw [readyToCapture_counted, counted_lines]

theorem readyToCapture_touches : Touches [.lines, .cache] s s.readyToCapture := by
  rw [readyToCapture_counted]
  exact (counted_touches s).trans (mapLines_touches' s.counted fun l => { l with stepTwoMade := false })

theorem readyToCapture_lineAt (n : Nat) : s.readyToCapture.lineAt n =
    (s.turn.bind fun turn => s.slots[turn.slot].track).bind fun track => track.lines[n]? := by
  have touches := readyToCapture_touches s
  have turn : s.readyToCapture.turn = s.turn := touches .turn (by decide)
  have slots : s.readyToCapture.slots = s.slots := touches .slots (by decide)
  rw [State.lineAt, State.stageTrack, turn, slots]
  cases s.turn <;> rfl

end

/-- Settles O41: the capture is compared with the statement field by field; a lyric line by its cells
(`lineGlyphs_eq`), the marks and counts by what the latch does (`latchOverlay_eq`). -/
theorem frameLatchCapturesTheOverlay : Obligations.FrameLatchCapturesTheOverlay := by
  intro s v lay t held advance drawn width left clip bottom cells lineAt cellsOf
  have widths : width = v.cache.textWidth := funext fun codes => (textWidth_eq v.cache codes).symm
  have drawns : drawn = fun k => (v.cache.drawnGlyph k).1 := by
    funext k
    rw [drawnGlyph_eq]
    rfl
  have lefts : left = leftEdge lay.width := rfl
  have counted : v = s.counted := rfl
  have lineAts : lineAt = s.readyToCapture.lineAt := funext fun n => (readyToCapture_lineAt s n).symm
  clear_value width drawn left lineAt v
  subst widths drawns lefts counted lineAts
  have settings := counted_settings s
  have video := readyToCapture_video s
  have cache : s.readyToCapture.cache = s.counted.cache := by rw [readyToCapture_counted]
  have layout : s.readyToCapture.lines.layout = lay := by rw [settings]; rfl
  have cellsEq : cellsOf = s.readyToCapture.lineGlyphs t := by
    funext x
    rw [lineGlyphs_eq, layout, cache]
    refine congrArg (fun o : Option (List GlyphBox) => o.getD []) ?_
    cases s.readyToCapture.lineAt x.index with
    | none => rfl
    | some line =>
      refine congrArg some ?_
      have top : s.readyToCapture.lines.rowTop x = lay.lyricTop +
          56 * (if x.state = .leaving then -1 else (x.row : Int)) +
          ((s.counted.lines.scroll.map fun z => 56 * (z.total - z.done) / z.total).getD 0 : Nat) := by
        rw [LineScheduler.rowTop, scrollOffset_eq, layout, settings, WindowLine.isLeaving]
        simp only [decide_eq_true_eq]
      have invert : s.readyToCapture.video.invert = s.video.invert := by rw [video]
      have sung : s.readyToCapture.sungOf line = if s.video.invert then s.lines.unsung else
          match line.tag with
          | .a => s.lines.sungA
          | .b => s.lines.sungB
          | .both => s.lines.sungBoth := by
        rw [State.sungOf, invert, settings]
        cases line.tag <;> rfl
      have unsung : s.readyToCapture.unsungOf line = if s.video.invert then
          (match line.tag with
          | .a => s.lines.sungA
          | .b => s.lines.sungB
          | .both => s.lines.sungBoth) else s.lines.unsung := by
        rw [State.unsungOf, invert, settings]
        cases line.tag <;> rfl
      beta_reduce
      rw [top, sung, unsung]
      refine List.filter_congr fun g mem => ?_
      obtain ⟨z, -, mem⟩ := List.mem_flatMap.mp mem
      have own : g.clip = clip := syllableCells_clip mem
      have foot : (lay.lyricTop : Int) + (56 * lay.rows : Nat) = bottom := by push_cast; rfl
      rw [GlyphBox.visible, own, foot]
  clear_value cellsOf cells bottom
  subst cellsEq
  have clock : s.readyToCapture.clock = s.clock := readyToCapture_touches s .clock (by decide)
  have window : s.readyToCapture.lines.window = s.counted.lines.window := by rw [settings]
  obtain ⟨late, clipped, latch, lateCount, clipCount⟩ := latchOverlay_eq s.readyToCapture
  refine ⟨s.readyToCapture.latchOverlay, s.readyToCapture.capture, rfl, frameLatch_touches s, ?_, ?_, ?_,
    ?_, ?_, ?_, ?_, ?_, ?_, ?_, ?_, ?_, ?_, ?_, ?_, ?_, ?_⟩
  · rw [latch]
  · rw [latch, settings]
  · rw [latch, settings]
  · exact congrArg Clock.position clock
  · exact congrArg (fun w : Compositor => decide (w.path = .noInput)) video
  · exact layout
  · exact congrArg Compositor.planeOpacity video
  · exact congrArg Compositor.shade video
  · exact congrArg Compositor.shadeOpacity video
  · exact congrArg Compositor.fill video
  · exact congrArg (fun w : Compositor => decide (w.content = .fill)) video
  · exact congrArg Compositor.fmark video
  · rw [State.capture, window, clock]
  · have rows : s.readyToCapture.lines.titleRows = s.lines.titleRows := by rw [settings]
    have unsung : s.readyToCapture.lines.unsung = s.lines.unsung := by rw [settings]
    have title : s.readyToCapture.capture.titleGlyphs = s.readyToCapture.titleGlyphs := rfl
    rw [title, State.titleGlyphs, rows]
    refine List.flatMap_congr fun r _ => ?_
    rw [textGlyphs_eq, layout, cache, unsung]
    refine List.filter_congr fun g mem => ?_
    obtain ⟨k, -, rfl⟩ := List.mem_map.mp mem
    rfl
  · rw [latch]
    rfl
  · have keyed : s.readyToCapture.capture.keyed = s.readyToCapture.keyed := rfl
    rw [keyed, State.keyed, State.bandsInScope, layout, video]
    refine if_congr ?_ (by rw [Bool.decide_and, Bool.decide_and]) rfl
    simp only [Bool.and_eq_true, Bool.or_eq_true, decide_eq_true_eq, and_assoc]
  · intro drawnBands shown late' clippedNow
    have bands : drawnBands = s.readyToCapture.drawnBands := by
      rw [State.drawnBands, video]
      rfl
    have drawn : shown = s.readyToCapture.drawnGlyphs s.readyToCapture.capture := by
      rw [State.drawnGlyphs, ← bands]
    have lateEq : late' = s.readyToCapture.lateNow := by
      funext i
      rw [State.lateNow, ← drawn, CacheEntry.runsLate, cache, ← Bool.and_assoc, ← Bool.and_assoc]
    have clippedEq : clippedNow = s.readyToCapture.clippedNow := by
      funext x
      rw [State.clippedNow, State.clipsNow, State.drawnClipped, ← bands, layout, cache, lineCodes_eq,
        clock, Bool.and_comm (decide _), ← Bool.and_assoc, ← Bool.and_assoc]
    clear_value clippedNow late'
    subst lateEq clippedEq
    have finished : s.readyToCapture.lines = { s.counted.lines with stepTwoMade := false } := by
      rw [readyToCapture_counted]
    rw [latch]
    refine ⟨?_, ?_, ?_, ?_, ?_⟩
    · exact congrArg (fun c : Cache => c.marked s.readyToCapture.lateNow) cache
    · have marks : s.readyToCapture.clippedAt = fun i => s.counted.lines.window.any fun x =>
          decide (x.index = i) && s.readyToCapture.clippedNow x := by
        funext i
        rw [State.clippedAt, window]
      simp only
      rw [marks, finished]
      rfl
    · rw [video, cache] at lateCount
      exact lateCount
    · rw [video, window] at clipCount
      exact clipCount
    · simp only
      rw [video]

end Sys2Proof.Machine
end

section
/-! The composition of one output pixel (R145, R148, R150; O50). -/

namespace Sys2Proof.Machine

/-! ## Blending one colour over another -/

/-- One component of a colour, from the lowest up. -/
def component (n : Nat) (c : Colour) : Nat := c.toNat / 256 ^ n % 256

/-- A colour blended exactly over another, component by component. -/
def Blended (alpha : Nat) (ov vid out : Colour) : Prop := ∀ n : Nat, n < 3 →
  component n out = (alpha * component n ov + (16 - alpha) * component n vid + 8) / 16

theorem colour_components (c : Colour) : red c = component 2 c ∧ green c = component 1 c ∧
    blue c = component 0 c ∧ component 2 c < 256 ∧ component 1 c < 256 ∧ component 0 c < 256 := by
  have bound := c.isLt
  simp only [red, green, blue, component]
  omega

theorem blend_lt {alpha a b : Nat} (opacity : alpha ≤ 16) (ha : a < 256) (hb : b < 256) :
    blend alpha a b < 256 := by
  have over_ : alpha * a ≤ alpha * 255 := Nat.mul_le_mul_left _ (by omega)
  have under : (16 - alpha) * b ≤ (16 - alpha) * 255 := Nat.mul_le_mul_left _ (by omega)
  rw [blend]
  omega

theorem blendColour_blended {alpha : Nat} (opacity : alpha ≤ 16) (ov vid : Colour) :
    Blended alpha ov vid (blendColour alpha ov vid) := by
  obtain ⟨hr, hg, hb, r, g, b⟩ := colour_components ov
  obtain ⟨hr', hg', hb', r', g', b'⟩ := colour_components vid
  have top := blend_lt opacity r r'
  have middle := blend_lt opacity g g'
  have low := blend_lt opacity b b'
  have value : (blendColour alpha ov vid).toNat = blend alpha (component 2 ov) (component 2 vid) * 65536 +
      blend alpha (component 1 ov) (component 1 vid) * 256 +
      blend alpha (component 0 ov) (component 0 vid) := by
    rw [blendColour, hr, hg, hb, hr', hg', hb', BitVec.toNat_ofNat]
    exact Nat.mod_eq_of_lt (by omega)
  intro n place
  have part : component n (blendColour alpha ov vid) =
      blend alpha (component n ov) (component n vid) := by
    rw [component, value]
    interval_cases n <;> omega
  exact part

/-- A colour is its three components. -/
theorem colour_ext {c d : Colour} (h : ∀ n < 3, component n c = component n d) : c = d := by
  have value (c : Colour) : c.toNat = component 2 c * 65536 + component 1 c * 256 + component 0 c := by
    have bound := c.isLt
    simp only [component]
    omega
  apply BitVec.eq_of_toNat_eq
  rw [value, value d, h 0 (by decide), h 1 (by decide), h 2 (by decide)]

theorem blendColour_zero (ov vid : Colour) : blendColour 0 ov vid = vid := by
  refine colour_ext fun n place => ?_
  rw [blendColour_blended (by decide) ov vid n place]
  omega

theorem blendColour_whole (ov vid : Colour) : blendColour 16 ov vid = ov := by
  refine colour_ext fun n place => ?_
  rw [blendColour_blended (by decide) ov vid n place]
  omega

/-! ## One cell, bar or marker over a pixel -/

theorem baseAlpha_eq (level : Nat) : baseAlpha level =
    if level = 0 then 0 else if level = 1 then 5 else if level = 2 then 11 else 16 := by
  match level with
  | 0 => rfl
  | 1 => rfl
  | 2 => rfl
  | n + 3 => rw [if_neg (by omega), if_neg (by omega), if_neg (by omega)]; rfl

/-- One glyph cell over the pixel without it, as O50 states it. -/
def GlyphBox.Over (plane : Nat) (x y : Int) (g : GlyphBox) (vid out : Colour) : Prop :=
  if g.x ≤ x ∧ x < g.x + 32 ∧ x < g.clip ∧ g.y ≤ y ∧ y < g.y + 48 then
    let level := g.drawn.level (x - g.x).toNat (y - g.y).toNat
    Blended ((if level = 0 then 0 else if level = 1 then 5 else if level = 2 then 11 else 16) *
      plane / 16) (if x < g.split then g.sung else g.unsung) vid out
  else out = vid

theorem blendAt_over {plane : Nat} (opacity : plane ≤ 16) (x y : Int) (vid : Colour) (g : GlyphBox) :
    g.Over plane x y vid (g.blendAt plane x y vid) := by
  unfold GlyphBox.Over GlyphBox.blendAt
  simp only [Bool.and_eq_true, decide_eq_true_eq, and_assoc]
  split
  · rw [← baseAlpha_eq]
    have base : baseAlpha (g.drawn.level (x - g.x).toNat (y - g.y).toNat) ≤ 16 := by
      rw [baseAlpha_eq]
      split
      · omega
      · split
        · omega
        · split <;> omega
    refine blendColour_blended ?_ _ _
    calc _ ≤ 16 * 16 / 16 := Nat.div_le_div_right (Nat.mul_le_mul base opacity)
      _ = 16 := rfl
  · rfl

theorem glyph_blendAt_zero (x y : Int) (vid : Colour) (g : GlyphBox) : g.blendAt 0 x y vid = vid := by
  unfold GlyphBox.blendAt
  split
  · simp only [Nat.mul_zero, Nat.zero_div]
    exact blendColour_zero _ _
  · rfl

/-- One bar or marker over the pixel without it, as O50 states it. -/
def Patch.Over (plane : Nat) (x y : Int) (p : Patch) (vid out : Colour) : Prop :=
  if p.x0 ≤ x ∧ x < p.x1 ∧ p.y0 ≤ y ∧ y < p.y1 ∧
      (p.filled = true ∨ x = p.x0 ∨ x = p.x1 - 1 ∨ y = p.y0 ∨ y = p.y1 - 1) then
    Blended plane p.colour vid out
  else out = vid

theorem patch_blendAt_over {plane : Nat} (opacity : plane ≤ 16) (x y : Int) (vid : Colour)
    (p : Patch) : p.Over plane x y vid (p.blendAt plane x y vid) := by
  unfold Patch.Over Patch.blendAt Patch.covers
  simp only [Bool.and_eq_true, Bool.or_eq_true, decide_eq_true_eq, and_assoc, or_assoc]
  split
  · exact blendColour_blended opacity _ _
  · rfl

theorem patch_blendAt_zero (x y : Int) (vid : Colour) (p : Patch) : p.blendAt 0 x y vid = vid := by
  unfold Patch.blendAt
  split
  · exact blendColour_zero _ _
  · rfl

/-- What is blended with opacity 0 is not seen. -/
theorem foldl_unseen {α : Type} {f : Colour → α → Colour} (unseen : ∀ c a, f c a = c) (xs : List α)
    (c : Colour) : xs.foldl f c = c := by
  induction xs generalizing c with
  | nil => rfl
  | cons x xs ih => rw [List.foldl_cons, unseen, ih]

/-! ## The band a pixel lies in -/

section
variable (l : Layout) (x y : Nat)

def Layout.inTitle : Prop := 64 ≤ x ∧ x < l.width - 64 ∧ 32 ≤ y ∧ y < 32 + 56 * l.titleRows

def Layout.inLyric : Prop := 64 ≤ x ∧ x < l.width - 64 ∧ l.lyricTop ≤ y ∧ y < l.lyricTop + 56 * l.rows

def Layout.inGuide : Prop := 64 ≤ x ∧ x < l.width - 64 ∧ l.guideTop ≤ y ∧ y < l.guideTop + l.guide

variable {l x y}

theorem bandAt_title (h : l.inTitle x y) : l.bandAt x y = some 0 := by
  obtain ⟨left, right, top, bottom⟩ := h
  rw [Layout.bandAt, if_neg (by simp; omega), if_pos (by simp; omega)]

theorem bandAt_lyric (title : ¬ l.inTitle x y) (h : l.inLyric x y) : l.bandAt x y = some 1 := by
  obtain ⟨left, right, top, bottom⟩ := h
  have above : ¬ (32 ≤ y ∧ y < 32 + 56 * l.titleRows) := fun i => title ⟨left, right, i.1, i.2⟩
  rw [Layout.bandAt, if_neg (by simp; omega), if_neg (by simpa using above), if_pos (by simp; omega)]

theorem bandAt_guide (title : ¬ l.inTitle x y) (lyric : ¬ l.inLyric x y) (h : l.inGuide x y) :
    l.bandAt x y = some 2 := by
  obtain ⟨left, right, top, bottom⟩ := h
  have above : ¬ (32 ≤ y ∧ y < 32 + 56 * l.titleRows) := fun i => title ⟨left, right, i.1, i.2⟩
  have outside : ¬ (l.lyricTop ≤ y ∧ y < l.lyricTop + 56 * l.rows) :=
    fun i => lyric ⟨left, right, i.1, i.2⟩
  rw [Layout.bandAt, if_neg (by simp; omega), if_neg (by simpa using above),
    if_neg (by simpa using outside), if_pos (by simp; omega)]

theorem bandAt_none (title : ¬ l.inTitle x y) (lyric : ¬ l.inLyric x y) (guide : ¬ l.inGuide x y) :
    l.bandAt x y = none := by
  rw [Layout.bandAt]
  by_cases margin : x < 64 ∨ l.width - 64 ≤ x
  · exact if_pos (by simpa using margin)
  · have left : 64 ≤ x := by omega
    have right : x < l.width - 64 := by omega
    have above : ¬ (32 ≤ y ∧ y < 32 + 56 * l.titleRows) := fun i => title ⟨left, right, i.1, i.2⟩
    have outside : ¬ (l.lyricTop ≤ y ∧ y < l.lyricTop + 56 * l.rows) :=
      fun i => lyric ⟨left, right, i.1, i.2⟩
    have below : ¬ (l.guideTop ≤ y ∧ y < l.guideTop + l.guide) := fun i => guide ⟨left, right, i.1, i.2⟩
    rw [if_neg (by simpa using margin), if_neg (by simpa using above),
      if_neg (by simpa using outside), if_neg (by simpa using below)]

end

/-! ## The pixel of a capture -/

section
variable {f : OutputFrame} {x y : Nat} (input : Colour)

/-- The picture beneath the overlay. -/
def OutputFrame.beneath (f : OutputFrame) (input : Colour) : Colour :=
  if f.black = true then 0 else input

theorem pixel_of_unkeyed (h : f.keyed = none) : f.pixel x y input = f.beneath input := by
  rw [OutputFrame.pixel, h]
  rfl

theorem pixel_of_noBand (h : f.layout.bandAt x y = none) : f.pixel x y input = f.beneath input := by
  rw [OutputFrame.pixel, h]
  cases f.keyed <;> rfl

/-- Whether a set of bands holds a band. -/
def Bands.has (b : Bands) (band : Fin 3) : Bool :=
  match band with
  | 0 => b.title
  | 1 => b.lyric
  | 2 => b.guide

/-- The overlay of a band over the picture beneath it. -/
def OutputFrame.overlay (f : OutputFrame) (x y : Nat) (band : Fin 3) (beneath : Colour) : Colour :=
  match band with
  | 0 => f.titleGlyphs.foldl (GlyphBox.blendAt f.planeOpacity x y) beneath
  | 1 => f.lyricGlyphs.foldl (GlyphBox.blendAt f.planeOpacity x y)
      (blendColour (f.shadeOpacity * f.planeOpacity / 16) f.shade beneath)
  | 2 => f.guideGlyphs.foldl (GlyphBox.blendAt f.planeOpacity x y)
      (f.markers.foldl (Patch.blendAt f.planeOpacity x y)
        (f.bars.foldl (Patch.blendAt f.planeOpacity x y) beneath))

variable {b : Bands} {band : Fin 3} (keyed : f.keyed = some b) (at_ : f.layout.bandAt x y = some band)
include keyed at_

theorem pixel_of_band : f.pixel x y input =
    if b.has band = false then f.beneath input
    else if f.fillContent then blendColour 16 f.fill (f.beneath input)
    else f.overlay x y band (f.beneath input) := by
  rw [OutputFrame.pixel, keyed, at_]
  fin_cases band <;> simp [Bands.has, OutputFrame.overlay, OutputFrame.beneath]

end

end Sys2Proof.Machine
end

section
/-! The guide band of a capture, and the pixels of an output frame (R119 to R121, R150; O50). -/

namespace Sys2Proof.Machine

/-! ## The overlay of a band, element by element -/

section
variable (f : OutputFrame) (x y : Nat) (c : Colour)

theorem overlay_unseen (h : f.planeOpacity = 0) (band : Fin 3) : f.overlay x y band c = c := by
  have glyphs (gs : List GlyphBox) (c : Colour) : gs.foldl (GlyphBox.blendAt 0 x y) c = c :=
    foldl_unseen (glyph_blendAt_zero x y) gs c
  have patches (ps : List Patch) (c : Colour) : ps.foldl (Patch.blendAt 0 x y) c = c :=
    foldl_unseen (patch_blendAt_zero x y) ps c
  fin_cases band
  · simp only [OutputFrame.overlay, h]
    exact glyphs _ _
  · simp only [OutputFrame.overlay, h, Nat.mul_zero, Nat.zero_div]
    exact (glyphs _ _).trans (blendColour_zero _ _)
  · simp only [OutputFrame.overlay, h]
    exact (glyphs _ _).trans ((patches _ _).trans (patches _ _))

variable {f} {plane : Nat} (opacity : plane ≤ 16)
include opacity

theorem glyphs_last {all gs : List GlyphBox} {g : GlyphBox} (h : all = gs ++ [g]) (x y : Int) :
    g.Over plane x y (gs.foldl (GlyphBox.blendAt plane x y) c)
      (all.foldl (GlyphBox.blendAt plane x y) c) := by
  rw [h, List.foldl_append]
  exact blendAt_over opacity x y _ g

theorem patches_last {all ps : List Patch} {p : Patch} (h : all = ps ++ [p]) (x y : Int) :
    p.Over plane x y (ps.foldl (Patch.blendAt plane x y) c)
      (all.foldl (Patch.blendAt plane x y) c) := by
  rw [h, List.foldl_append]
  exact patch_blendAt_over opacity x y _ p

end

section
variable {f : OutputFrame} {x y : Nat} (input : Colour) {b : Bands} {band : Fin 3}
  (keyed : f.keyed = some b) (at_ : f.layout.bandAt x y = some band)
include keyed at_

theorem pixel_of_outOfScope (h : b.has band = false) : f.pixel x y input = f.beneath input :=
  (pixel_of_band input keyed at_).trans (if_pos h)

variable (scope : b.has band = true)
include scope

theorem pixel_of_inScope : f.pixel x y input = if f.fillContent then blendColour 16 f.fill (f.beneath input)
    else f.overlay x y band (f.beneath input) :=
  (pixel_of_band input keyed at_).trans (if_neg (by rw [scope]; exact Bool.true_eq_false_eq_False))

theorem pixel_of_fill (fill : f.fillContent = true) : f.pixel x y input = f.fill :=
  (pixel_of_inScope input keyed at_ scope).trans ((if_pos fill).trans (blendColour_whole _ _))

theorem pixel_of_overlay (fill : f.fillContent = false) :
    f.pixel x y input = f.overlay x y band (f.beneath input) :=
  (pixel_of_inScope input keyed at_ scope).trans (if_neg (by rw [fill]; exact Bool.false_ne_true))

end

section
variable {f : OutputFrame} {x y : Nat} (input : Colour) {b : Bands} (keyed : f.keyed = some b)
  (fill : f.fillContent = false) (opacity : f.planeOpacity ≤ 16)
include keyed fill opacity

theorem title_last (at_ : f.layout.bandAt x y = some 0) (scope : b.title = true) {gs : List GlyphBox}
    {g : GlyphBox} (h : f.titleGlyphs = gs ++ [g]) : g.Over f.planeOpacity x y
      (OutputFrame.pixel { f with titleGlyphs := gs } x y input) (f.pixel x y input) := by
  rw [pixel_of_overlay (f := { f with titleGlyphs := gs }) input keyed at_ scope fill,
    pixel_of_overlay input keyed at_ scope fill]
  exact glyphs_last _ opacity h x y

theorem lyric_last (at_ : f.layout.bandAt x y = some 1) (scope : b.lyric = true) {gs : List GlyphBox}
    {g : GlyphBox} (h : f.lyricGlyphs = gs ++ [g]) : g.Over f.planeOpacity x y
      (OutputFrame.pixel { f with lyricGlyphs := gs } x y input) (f.pixel x y input) := by
  rw [pixel_of_overlay (f := { f with lyricGlyphs := gs }) input keyed at_ scope fill,
    pixel_of_overlay input keyed at_ scope fill]
  exact glyphs_last _ opacity h x y

theorem lyric_shade (at_ : f.layout.bandAt x y = some 1) (scope : b.lyric = true)
    (shade : f.shadeOpacity ≤ 16) (h : f.lyricGlyphs = []) :
    Blended (f.shadeOpacity * f.planeOpacity / 16) f.shade (f.beneath input) (f.pixel x y input) := by
  have alpha : f.shadeOpacity * f.planeOpacity / 16 ≤ 16 :=
    calc _ ≤ 16 * 16 / 16 := Nat.div_le_div_right (Nat.mul_le_mul shade opacity)
      _ = 16 := rfl
  rw [pixel_of_overlay input keyed at_ scope fill, OutputFrame.overlay, h]
  exact blendColour_blended alpha _ _

theorem guide_last (at_ : f.layout.bandAt x y = some 2) (scope : b.guide = true) {gs : List GlyphBox}
    {g : GlyphBox} (h : f.guideGlyphs = gs ++ [g]) : g.Over f.planeOpacity x y
      (OutputFrame.pixel { f with guideGlyphs := gs } x y input) (f.pixel x y input) := by
  rw [pixel_of_overlay (f := { f with guideGlyphs := gs }) input keyed at_ scope fill,
    pixel_of_overlay input keyed at_ scope fill]
  exact glyphs_last _ opacity h x y

theorem marker_last (at_ : f.layout.bandAt x y = some 2) (scope : b.guide = true) {ps : List Patch}
    {p : Patch} (noText : f.guideGlyphs = []) (h : f.markers = ps ++ [p]) : p.Over f.planeOpacity x y
      (OutputFrame.pixel { f with markers := ps } x y input) (f.pixel x y input) := by
  rw [pixel_of_overlay (f := { f with markers := ps }) input keyed at_ scope fill,
    pixel_of_overlay input keyed at_ scope fill]
  simp only [OutputFrame.overlay, noText]
  exact patches_last _ opacity h x y

theorem bar_last (at_ : f.layout.bandAt x y = some 2) (scope : b.guide = true) {ps : List Patch}
    {p : Patch} (noText : f.guideGlyphs = []) (noMarker : f.markers = []) (h : f.bars = ps ++ [p]) :
    p.Over f.planeOpacity x y
      (OutputFrame.pixel { f with bars := ps } x y input) (f.pixel x y input) := by
  rw [pixel_of_overlay (f := { f with bars := ps }) input keyed at_ scope fill,
    pixel_of_overlay input keyed at_ scope fill]
  simp only [OutputFrame.overlay, noText, noMarker]
  exact patches_last _ opacity h x y

end

/-! ## The guide band of a capture -/

section
variable (s : State)

theorem stageTrack_of {turn : Turn} {track : Track} (onStage : s.turn = some turn)
    (checked : s.slots[turn.slot].track = some track) : s.stageTrack = some track := by
  rw [State.stageTrack, onStage]
  exact checked

theorem axis_of_no_notes {track : Track} (h : track.notes = []) (key : Int) :
    track.axis key = none := by
  rw [Track.axis, Track.lowest, h]

theorem marker_of_no_axis {track : Track} (onStage : s.stageTrack = some track)
    (axis : track.axis s.clock.key = none) (m : Fin 4) : s.marker m = none := by
  rw [State.marker, onStage]
  cases s.voice.channels[m].lastFrame with
  | none => rfl
  | some frame =>
    simp only [axis]
    cases frame.pitch <;> rfl

theorem bars_of_none (h : s.stageTrack = none ∨ s.lines.layout.guide = 0) : s.bars = [] := by
  rw [State.bars]
  cases track : s.stageTrack with
  | none => rfl
  | some t =>
    have flat := h.resolve_left (by rw [track]; exact nofun)
    cases axis : t.axis s.clock.key with
    | none => simp only [axis]
    | some lohi => simp [axis, flat]

theorem marker_of_none (h : s.stageTrack = none ∨ s.lines.layout.guide = 0) (m : Fin 4) :
    s.marker m = none := by
  rw [State.marker]
  cases track : s.stageTrack with
  | none => rfl
  | some t =>
    have flat := h.resolve_left (by rw [track]; exact nofun)
    simp only [flat, ne_eq, not_true_eq_false, decide_false, Bool.and_false, Bool.false_eq_true,
      if_false]
    cases s.voice.channels[m].lastFrame with
    | none => rfl
    | some frame =>
      simp only
      split <;> rfl

end

theorem le_foldl_min_iff (low : Nat) (ns : List Note) (n : Nat) :
    low ≤ ns.foldl (fun m x => min m x.number) n ↔ low ≤ n ∧ ∀ x ∈ ns, low ≤ x.number := by
  induction ns generalizing n with
  | nil => simp
  | cons y ys ih => rw [List.foldl_cons, ih, le_min_iff, List.forall_mem_cons, and_assoc]

theorem foldl_max_le_iff (high : Nat) (ns : List Note) (n : Nat) :
    ns.foldl (fun m x => max m x.number) n ≤ high ↔ n ≤ high ∧ ∀ x ∈ ns, x.number ≤ high := by
  induction ns generalizing n with
  | nil => simp
  | cons y ys ih => rw [List.foldl_cons, ih, max_le_iff, List.forall_mem_cons, and_assoc]

/-- The pitch axis of a track with its lowest and highest note (R119). -/
theorem axis_eq {track : Track} {lowest highest : Nat} (low : ∃ n ∈ track.notes, n.number = lowest)
    (high : ∃ n ∈ track.notes, n.number = highest)
    (range : ∀ n ∈ track.notes, lowest ≤ n.number ∧ n.number ≤ highest) (key : Int) :
    track.axis key = some (8 * ((lowest : Int) + key - 2), 8 * ((highest : Int) + key + 2)) := by
  rw [Track.axis, Track.lowest, Track.highest]
  cases notes : track.notes with
  | nil =>
    obtain ⟨n, mem, -⟩ := low
    rw [notes] at mem
    exact absurd mem List.not_mem_nil
  | cons n ns =>
    rw [notes] at low high range
    obtain ⟨l, lmem, rfl⟩ := low
    obtain ⟨h, hmem, rfl⟩ := high
    have lowest : ns.foldl (fun m x => min m x.number) n.number = l.number := by
      have bounds := (le_foldl_min_iff _ ns n.number).mp (Nat.le_refl _)
      have below := (le_foldl_min_iff l.number ns n.number).mpr
        (List.forall_mem_cons.mp fun x mem => (range x mem).1)
      have all : ∀ x ∈ n :: ns, ns.foldl (fun m x => min m x.number) n.number ≤ x.number :=
        List.forall_mem_cons.mpr bounds
      exact Nat.le_antisymm (all l lmem) below
    have highest : ns.foldl (fun m x => max m x.number) n.number = h.number := by
      have bounds := (foldl_max_le_iff _ ns n.number).mp (Nat.le_refl _)
      have above := (foldl_max_le_iff h.number ns n.number).mpr
        (List.forall_mem_cons.mp fun x mem => (range x mem).2)
      have all : ∀ x ∈ n :: ns, x.number ≤ ns.foldl (fun m x => max m x.number) n.number :=
        List.forall_mem_cons.mpr bounds
      exact Nat.le_antisymm above (all h hmem)
    simp only [lowest, highest]

/-! ## The bars and markers, as O50 states them -/

theorem assessed_eq (c : Channel) (track : Track) :
    c.assessed (some track) = if track.partCount = 1 then Part.a else c.part := rfl

theorem enabledParts_any {s : State} {track : Track} (onStage : s.stageTrack = some track) (n : Note) :
    (s.enabledParts.any fun p => n.tag.isOf p) = ([0, 1, 2, 3] : List (Fin 4)).any fun m =>
      s.voice.channels[m].enabled &&
        n.tag.isOf (if track.partCount = 1 then Part.a else s.voice.channels[m].part) := by
  rw [State.enabledParts, onStage, List.any_map, List.any_filter]
  rfl

/-- The colour of a note's bar (R119). -/
def LineScheduler.barColour (l : LineScheduler) (tag : PartTag) : Colour :=
  match tag with
  | .a => l.sungA
  | .b => l.sungB
  | .both => l.sungBoth

section
variable {s : State} {track : Track} {lo hi : Int} (onStage : s.stageTrack = some track)
  (axis : track.axis s.clock.key = some (lo, hi)) (tall : s.lines.layout.guide ≠ 0)
include onStage axis tall

theorem bars_eq (outside : s.clock.interlude = .outside) : s.bars =
    (track.notes.filter fun n =>
        (([0, 1, 2, 3] : List (Fin 4)).any fun m => s.voice.channels[m].enabled &&
          n.tag.isOf (if track.partCount = 1 then Part.a else s.voice.channels[m].part)) &&
        decide ((s.clock.position : Int) - 1000 < n.start + n.duration) &&
        decide ((n.start : Int) < s.clock.position + 3000)).map fun n =>
      let column := fun x : Int => 64 + (x - ((s.clock.position : Int) - 1000)) *
        (s.lines.layout.width - 128 : Nat) / 4000
      let y := s.lines.layout.guideTop +
        (hi - 8 * (n.number + s.clock.key)) * ((s.lines.layout.guide : Int) - 1) / (hi - lo)
      { x0 := max 64 (column n.start)
        x1 := min (s.lines.layout.width - 64 : Nat) (column (n.start + n.duration))
        y0 := y - 3, y1 := y + 3, colour := s.lines.barColour n.tag, filled := true } := by
  rw [State.bars, onStage]
  simp only [axis]
  rw [if_neg (by simp [tall, outside])]
  have seen (n : Note) : ((s.enabledParts.any fun p => n.tag.isOf p) &&
      decide (s.clock.position < n.stop + 1000) && decide (n.start < s.clock.position + 3000)) =
      ((([0, 1, 2, 3] : List (Fin 4)).any fun m => s.voice.channels[m].enabled &&
          n.tag.isOf (if track.partCount = 1 then Part.a else s.voice.channels[m].part)) &&
        decide ((s.clock.position : Int) - 1000 < n.start + n.duration) &&
        decide ((n.start : Int) < s.clock.position + 3000)) := by
    have ends : s.clock.position < n.stop + 1000 ↔
        (s.clock.position : Int) - 1000 < n.start + n.duration := by
      rw [Note.stop]
      omega
    have starts : n.start < s.clock.position + 3000 ↔
        (n.start : Int) < s.clock.position + 3000 := by omega
    rw [enabledParts_any onStage]
    simp only [ends, starts]
  rw [List.filter_congr fun n _ => seen n]
  refine List.map_congr_left fun n _ => ?_
  unfold guideRow guideColumn Note.stop LineScheduler.sungColour LineScheduler.barColour
  push_cast
  rfl

omit tall axis onStage in
/-- The note a marker refers to: at the position, or the latest before it, or the first (R120). -/
theorem markerNote_eq (notes : List Note) (t : Nat) : markerNote notes t =
    (notes.filter fun n => (n.start : Int) ≤ t ∧ (t : Int) < n.start + n.duration).head?.or
      ((notes.filter fun n => (n.start : Int) < t).getLast?.or notes.head?) := by
  have now : (notes.filter fun n => (n.start : Int) ≤ t ∧ (t : Int) < n.start + n.duration).head? =
      notes.find? fun n => decide (n.start ≤ t) && decide (t < n.stop) := by
    rw [List.head?_filter]
    refine congrArg (notes.find? ·) (funext fun n => ?_)
    rw [Bool.decide_and, Note.stop]
    exact congrArg₂ (· && ·) (decide_eq_decide.mpr (by omega)) (decide_eq_decide.mpr (by omega))
  have before : (notes.filter fun n => (n.start : Int) < t) = notes.filter fun n => n.start < t :=
    List.filter_congr fun n _ => decide_eq_decide.mpr (by omega)
  rw [now, before, markerNote]
  cases notes.find? fun n => decide (n.start ≤ t) && decide (t < n.stop) with
  | some n => rfl
  | none => cases (notes.filter fun n => n.start < t).getLast? <;> rfl

/-- The marker of a channel for the pitch it sang and the note it refers to. -/
def State.markerFor (s : State) (lo hi : Int) (m : Fin 4) (sungPitch : Option (Time × Int))
    (note : Option Note) : Option Patch :=
  match sungPitch, note with
  | some (at_, p), some n =>
    if s.voice.channels[m].enabled = true ∧ (s.sessionTime - at_).toNat ≤ 40 then
      let r := 8 * ((n.number : Int) + s.clock.key)
      let sung := r + ((p - r + 48) % 96 - 48)
      let y := s.lines.layout.guideTop + max 0 (min ((s.lines.layout.guide : Int) - 1)
        ((hi - sung) * ((s.lines.layout.guide : Int) - 1) / (hi - lo)))
      let x : Int := 64 + ((s.lines.layout.width - 128) / 4 : Nat)
      some { x0 := x - 4, x1 := x + 4, y0 := y - 4, y1 := y + 4
             colour := s.voice.channels[m].colour
             filled := decide (s.voice.channels[m].lock = .locked) }
    else none
  | _, _ => none

theorem marker_eq (m : Fin 4) : s.marker m = s.markerFor lo hi m
    (s.voice.channels[m].lastFrame.bind fun x => x.pitch.map fun p => (x.at_, p))
    (markerNote (track.notes.filter fun n =>
      n.tag.isOf (if track.partCount = 1 then Part.a else s.voice.channels[m].part))
      s.clock.position) := by
  unfold State.marker State.markerFor
  rw [onStage]
  simp only [assessed_eq]
  cases s.voice.channels[m].lastFrame with
  | none => rfl
  | some frame =>
    simp only [axis, Option.bind_some]
    generalize markerNote (track.notes.filter fun n =>
      n.tag.isOf (if track.partCount = 1 then Part.a else s.voice.channels[m].part))
      s.clock.position = note
    cases frame.pitch with
    | none => rfl
    | some p =>
      cases note with
      | none => rfl
      | some n =>
        refine if_congr (by simp [tall]) ?_ rfl
        simp only [clampInt, guideRow, fold, modInt]
        rw [min_comm]
        rfl

end

/-! ## The text of the score show -/

theorem digits_eq : ∀ n ≤ 100,
    (Nat.toDigits 10 n).map (fun d => BitVec.ofNat 16 d.toNat) = pointsText n := by
  decide

theorem headlineText_eq {h : Nat} (bound : h ≤ 10000) : headlineText h =
    ((Nat.toDigits 10 (h / 100)).map fun d => BitVec.ofNat 16 d.toNat) ++
      [0x2E, BitVec.ofNat 16 (0x30 + h / 10 % 10), BitVec.ofNat 16 (0x30 + h % 10)] := by
  have tens : h % 100 / 10 % 10 = h / 10 % 10 := by omega
  rw [digits_eq (h / 100) (by omega), headlineText, digitCode, digitCode, tens]

theorem headlineText_length (h : Nat) : (headlineText h).length ≤ 6 := by
  rw [headlineText, List.length_append, pointsText]
  split
  · simp
  · split <;> simp

theorem textWidth_le {c : Cache} (narrow : ∀ k, (c.drawnGlyph k).2 ≤ 32) (codes : List Code) :
    c.textWidth codes ≤ 32 * codes.length := by
  induction codes with
  | nil => exact Nat.le_refl 0
  | cons k ks ih =>
    have own := narrow k
    rw [textWidth_cons, List.length_cons]
    omega

theorem textWidth_take_le (c : Cache) (codes : List Code) (n : Nat) :
    c.textWidth (codes.take n) ≤ c.textWidth codes := by
  conv_rhs => rw [← List.take_append_drop n codes, textWidth_append]
  exact Nat.le_add_right _ _

/-- A text that is not too wide for the band stands whole in its middle. -/
theorem textGlyphs_of_narrow {s : State} {codes : List Code}
    (narrow : s.cache.textWidth codes + 128 < s.lines.layout.width) (y : Int) (colour : Colour) :
    s.textGlyphs codes y colour = codes.zipIdx.map fun g =>
      { code := g.1
        x := (64 + (s.lines.layout.width - 128 - s.cache.textWidth codes) / 2 +
          s.cache.textWidth (codes.take g.2) : Nat)
        y := y, drawn := (s.cache.drawnGlyph g.1).1
        split := leftEdge s.lines.layout.width (s.cache.textWidth codes), sung := colour
        unsung := colour, clip := (s.lines.layout.width - 64 : Nat) } := by
  have left : leftEdge s.lines.layout.width (s.cache.textWidth codes) =
      64 + (s.lines.layout.width - 128 - s.cache.textWidth codes) / 2 := if_pos (by omega)
  rw [textGlyphs_eq, List.filter_eq_self.mpr]
  · rw [left]
  · intro g mem
    obtain ⟨k, -, rfl⟩ := List.mem_map.mp mem
    have part := textWidth_take_le s.cache codes k.2
    rw [left]
    refine decide_eq_true ?_
    simp only
    omega

theorem layout_width (l : LineScheduler) : 1280 ≤ l.layout.width := by
  have width : l.layout.width = l.canvas.width := rfl
  rw [width]
  cases l.canvas <;> decide

theorem scoreGlyphs_of_none {s : State} (h : s.lines.scoreShow = none ∨ s.lines.layout.guide < 48) :
    s.scoreGlyphs = [] := by
  rw [State.scoreGlyphs]
  cases shown : s.lines.scoreShow with
  | none => rfl
  | some x => exact if_pos (h.resolve_left (by rw [shown]; exact nofun))

/-- The score show's text, centred (R121). -/
theorem scoreGlyphs_eq {s : State} {x : ScoreShow} (shown : s.lines.scoreShow = some x)
    (tall : 48 ≤ s.lines.layout.guide) (narrow : ∀ k, (s.cache.drawnGlyph k).2 ≤ 32) :
    s.scoreGlyphs = (headlineText x.headline).zipIdx.map fun g =>
      { code := g.1
        x := (64 + (s.lines.layout.width - 128 - s.cache.textWidth (headlineText x.headline)) / 2 +
          s.cache.textWidth ((headlineText x.headline).take g.2) : Nat)
        y := (s.lines.layout.guideTop + (s.lines.layout.guide - 48) / 2 : Nat)
        drawn := (s.cache.drawnGlyph g.1).1
        split := leftEdge s.lines.layout.width (s.cache.textWidth (headlineText x.headline))
        sung := s.lines.sungBoth, unsung := s.lines.sungBoth
        clip := (s.lines.layout.width - 64 : Nat) } := by
  have width := textWidth_le narrow (headlineText x.headline)
  have length := headlineText_length x.headline
  have canvas := layout_width s.lines
  rw [State.scoreGlyphs, shown]
  exact (if_neg (by omega)).trans (textGlyphs_of_narrow (by omega) _ _)

end Sys2Proof.Machine
end

section
/-! The guide band and the pixels of an output frame (O50). -/

namespace Sys2Proof.Machine

section
variable (s : State)

theorem readyToCapture_layout : s.readyToCapture.lines.layout = s.lines.layout := by
  rw [counted_settings]
  rfl

theorem readyToCapture_stageTrack : s.readyToCapture.stageTrack = s.stageTrack := by
  have turn : s.readyToCapture.turn = s.turn := readyToCapture_touches s .turn (by decide)
  have slots : s.readyToCapture.slots = s.slots := readyToCapture_touches s .slots (by decide)
  rw [State.stageTrack, State.stageTrack, turn, slots]

theorem readyToCapture_clock : s.readyToCapture.clock = s.clock :=
  readyToCapture_touches s .clock (by decide)

theorem readyToCapture_voice : s.readyToCapture.voice = s.voice :=
  readyToCapture_touches s .voice (by decide)

theorem readyToCapture_time : s.readyToCapture.sessionTime = s.sessionTime :=
  readyToCapture_touches s .sessionTime (by decide)

theorem readyToCapture_markerFor (lo hi : Int) (m : Fin 4) (sungPitch : Option (Time × Int))
    (note : Option Note) :
    s.readyToCapture.markerFor lo hi m sungPitch note = s.markerFor lo hi m sungPitch note := by
  unfold State.markerFor
  rw [readyToCapture_voice, readyToCapture_time, readyToCapture_clock, readyToCapture_layout]

theorem readyToCapture_cache_of_still (rebuild : s.lines.rebuild = false)
    (scroll : s.lines.scroll = none) : s.readyToCapture.cache = s.cache := by
  have made := makeRebuild_of_none rebuild
  rw [readyToCapture_of_still (s := s) (by rw [made]; exact scroll), made]

end

theorem tag_isOf_eq (n : Note) (p : Part) : n.tag.isOf p =
    decide (n.tag = .both ∨ (n.tag = .a ∧ p = .a) ∨ (n.tag = .b ∧ p = .b)) := by
  cases n.tag <;> cases p <;> rfl

theorem markers_of_none {s : State} (h : ∀ m, s.marker m = none) : micNumbers.filterMap s.marker = [] :=
  List.filterMap_eq_nil_iff.mpr fun m _ => h m

theorem bars_of_quiet {s : State} {track : Track} (onStage : s.stageTrack = some track)
    (quiet : track.notes = [] ∨ s.clock.interlude = .inside) : s.bars = [] := by
  rw [State.bars, onStage]
  simp only
  cases axis : track.axis s.clock.key with
  | none => rfl
  | some lohi =>
    have inside := quiet.resolve_left fun silent =>
      nomatch axis.symm.trans (axis_of_no_notes silent s.clock.key)
    exact if_pos (by simp [inside])

theorem heldAdvance_eq (c : Cache) (k : Code) : (c.drawnGlyph k).2 =
    match c.find k with
    | none => 32
    | some i => ((c.entry i).bitmap.map fun b => b.advance).getD 32 := by
  rw [drawnGlyph_eq, Cache.heldBitmap]
  cases c.find k <;> rfl

/-- Settles O50: a capture holds the bars, markers and text of `bars_eq`, `marker_eq` and
`scoreGlyphs_eq`; a pixel is told by its band, and the last element of a band is blended over the
pixel of the capture without it. -/
theorem guideBandAndPixelsAreExact : Obligations.GuideBandAndPixelsAreExact := by
  refine ⟨fun s => ⟨s.frameLatch, s.readyToCapture.capture, rfl, frameLatch_frame s, ?capture⟩, ?pixels⟩
  case capture =>
    intro lay t key guide
    have layout : s.readyToCapture.lines.layout = lay := readyToCapture_layout s
    have clock := readyToCapture_clock s
    have staged := readyToCapture_stageTrack s
    refine ⟨fun absent => ?_, fun turn track onStage checked quiet => ?_,
      fun turn track onStage checked silent => ?_, fun turn track lowest highest onStage checked tall low high range => ?_,
      fun absent => ?_, fun x shown tall bound rebuild scroll => ?_⟩
    · have nothing : s.readyToCapture.stageTrack = none ∨ s.readyToCapture.lines.layout.guide = 0 := by
        refine absent.imp (fun empty => ?_) fun flat => ?_
        · rw [staged, State.stageTrack, empty]
        · rw [layout]
          exact flat
      exact ⟨bars_of_none _ nothing, markers_of_none (marker_of_none _ nothing)⟩
    · refine bars_of_quiet (staged.trans (stageTrack_of s onStage checked)) ?_
      rw [clock]
      exact quiet
    · exact markers_of_none (marker_of_no_axis _ (staged.trans (stageTrack_of s onStage checked))
        (axis_of_no_notes silent _))
    · intro part isOf lo hi row column
      have shown := staged.trans (stageTrack_of s onStage checked)
      have axis := axis_eq low high range s.readyToCapture.clock.key
      have wide : s.readyToCapture.lines.layout.guide ≠ 0 := by
        rw [layout]
        exact tall
      have own (n : Note) (m : Fin 4) : n.tag.isOf
          (if track.partCount = 1 then Part.a else s.voice.channels[m].part) = decide (isOf n (part m)) :=
        tag_isOf_eq n (part m)
      have voice := readyToCapture_voice s
      refine ⟨fun outside => ?_, ?_⟩
      · have bars := bars_eq shown axis wide (by rw [clock]; exact outside)
        have colours (tag : PartTag) : s.readyToCapture.lines.barColour tag = s.lines.barColour tag := by
          rw [counted_settings]
          rfl
        rw [layout, clock, voice] at bars
        simp only [own, colours] at bars
        exact bars
      · refine List.filterMap_congr fun m _ => ?_
        have marker := marker_eq shown axis wide m
        rw [markerNote_eq, readyToCapture_markerFor, voice, clock] at marker
        simp only [own] at marker
        exact marker
    · refine scoreGlyphs_of_none ?_
      rw [layout, counted_settings]
      exact absent
    · intro advance h text narrow
      have cache := readyToCapture_cache_of_still s rebuild scroll
      have advances (k : Code) : (s.readyToCapture.cache.drawnGlyph k).2 = advance k := by
        rw [cache]
        exact heldAdvance_eq s.cache k
      have widths : s.readyToCapture.cache.textWidth = fun codes => (codes.map advance).sum := by
        funext codes
        rw [Cache.textWidth]
        exact congrArg List.sum (List.map_congr_left fun k _ => advances k)
      have shows : s.readyToCapture.lines.scoreShow = some x := by
        rw [counted_settings]
        exact shown
      have glyphs := scoreGlyphs_eq shows (by rw [layout]; exact tall)
        (fun k => (advances k).le.trans (narrow k))
      rw [layout, widths, headlineText_eq bound] at glyphs
      have both : s.readyToCapture.lines.sungBoth = s.lines.sungBoth := by rw [counted_settings]
      have text_ : s.readyToCapture.capture.guideGlyphs = s.readyToCapture.scoreGlyphs := rfl
      rw [text_, glyphs]
      refine ⟨?_, fun n g at_ => ?_⟩
      · rw [List.map_map]
        exact List.zipIdx_map_fst 0 text
      · rw [List.getElem?_map, List.getElem?_zipIdx] at at_
        obtain ⟨z, hz, rfl⟩ := Option.map_eq_some_iff.mp at_
        obtain ⟨k, -, rfl⟩ := Option.map_eq_some_iff.mp hz
        refine ⟨rfl, both, both, ?_⟩
        rw [Nat.zero_add]
  case pixels =>
    intro f x y input beneath inTitle inLyric inGuide blended glyph patch
    refine ⟨pixel_of_unkeyed input, fun title lyric guide => pixel_of_noBand input (bandAt_none title lyric guide),
      fun b keyed => ⟨fun title scope => pixel_of_outOfScope input keyed (bandAt_title title) scope,
        fun title lyric scope => pixel_of_outOfScope input keyed (bandAt_lyric title lyric) scope,
        fun title lyric guide scope => pixel_of_outOfScope input keyed (bandAt_guide title lyric guide) scope,
        fun drawn => ?_, fun fill opacity => ⟨fun title scope => ?_, fun title lyric scope shade => ?_,
          fun title lyric guide scope => ?_⟩⟩⟩
    · obtain ⟨band, at_, has⟩ : ∃ band, f.layout.bandAt x y = some band ∧ b.has band = true := by
        rcases drawn with ⟨title, scope⟩ | ⟨title, lyric, scope⟩ | ⟨title, lyric, guide, scope⟩
        · exact ⟨0, bandAt_title title, scope⟩
        · exact ⟨1, bandAt_lyric title lyric, scope⟩
        · exact ⟨2, bandAt_guide title lyric guide, scope⟩
      exact ⟨pixel_of_fill input keyed at_ has, fun fill plane =>
        (pixel_of_overlay input keyed at_ has fill).trans (overlay_unseen f x y _ plane band)⟩
    · have at_ : f.layout.bandAt x y = some 0 := bandAt_title title
      refine ⟨fun empty => ?_, fun gs g split => title_last input keyed fill opacity at_ scope split⟩
      rw [pixel_of_overlay input keyed at_ scope fill, OutputFrame.overlay, empty]
      rfl
    · have at_ : f.layout.bandAt x y = some 1 := bandAt_lyric title lyric
      exact ⟨lyric_shade input keyed fill opacity at_ scope shade,
        fun gs g split => lyric_last input keyed fill opacity at_ scope split⟩
    · have at_ : f.layout.bandAt x y = some 2 := bandAt_guide title lyric guide
      refine ⟨fun noText noMarker noBar => ?_,
        fun gs g split => guide_last input keyed fill opacity at_ scope split,
        fun ps p noText split => marker_last input keyed fill opacity at_ scope noText split,
        fun ps p noText noMarker split => bar_last input keyed fill opacity at_ scope noText noMarker split⟩
      rw [pixel_of_overlay input keyed at_ scope fill, OutputFrame.overlay, noText, noMarker, noBar]
      rfl

end Sys2Proof.Machine
end

section
/-! How the line window settles (R109 to R111). -/

namespace Sys2Proof.Machine

/-! ## When a step of the settling acts -/

section
variable {s : State}

theorem completeStep_of_none (h : s.lines.scroll = none) : s.completeStep = none := by
  rw [State.completeStep, h]

theorem completeStep_of_moving {sc : Scroll} (h : s.lines.scroll = some sc) (moving : sc.done < sc.total) :
    s.completeStep = none := by
  rw [State.completeStep, h]
  exact if_neg (by omega)

theorem completeStep_of_done {sc : Scroll} (h : s.lines.scroll = some sc) (done : sc.total ≤ sc.done) :
    s.completeStep = some
      ((s.dropLines WindowLine.isLeaving).mapLines fun l => { l with scroll := none }) := by
  rw [State.completeStep, h]
  exact if_pos done

theorem placeStep_of_empty (h : s.lines.pending = []) : s.placeStep = none := by
  rw [State.placeStep, h]

theorem placeStep_of_scroll {sc : Scroll} (h : s.lines.scroll = some sc) : s.placeStep = none := by
  rw [State.placeStep, h]
  cases s.lines.pending <;> rfl

theorem lingerStep_of_scroll {sc : Scroll} (h : s.lines.scroll = some sc) : s.lingerStep = none := by
  rw [State.lingerStep, h]
  exact if_neg (by simp)

theorem lingerStep_of_alternate (h : s.lines.style = .alternate) : s.lingerStep = none := by
  rw [State.lingerStep, h]
  exact if_neg (by simp)

/-- The line in a row, told by its place in the window. -/
theorem occupant_eq_none {l : LineScheduler} {r : Nat}
    (h : ∀ w ∈ l.window, w.state ≠ .leaving → w.row ≠ r) : l.occupant r = none := by
  refine List.find?_eq_none.mpr fun w mem found => ?_
  simp only [WindowLine.isLeaving, Bool.and_eq_true, Bool.not_eq_true', decide_eq_false_iff_not,
    decide_eq_true_eq] at found
  exact h w mem found.1 found.2

theorem occupant_spec {l : LineScheduler} {r : Nat} {w : WindowLine} (h : l.occupant r = some w) :
    w ∈ l.window ∧ w.state ≠ .leaving ∧ w.row = r := by
  have found := List.find?_some h
  simp only [WindowLine.isLeaving, Bool.and_eq_true, Bool.not_eq_true', decide_eq_false_iff_not,
    decide_eq_true_eq] at found
  exact ⟨List.mem_of_find?_eq_some h, found⟩

theorem occupant_isSome {l : LineScheduler} {r : Nat} {w : WindowLine} (mem : w ∈ l.window)
    (stays : w.state ≠ .leaving) (row : w.row = r) : ∃ o, l.occupant r = some o := by
  refine Option.isSome_iff_exists.mp (List.find?_isSome.mpr ⟨w, mem, ?_⟩)
  simp [WindowLine.isLeaving, stays, row]

theorem lingerStep_of_calm (h : ∀ w ∈ s.lines.window, w.state ≠ .leaving → w.row = 0 → w.linger = false) :
    s.lingerStep = none := by
  rw [State.lingerStep]
  split
  · cases top : s.lines.occupant 0 with
    | none => rfl
    | some o =>
      obtain ⟨mem, stays, row⟩ := occupant_spec top
      exact if_neg (by rw [h o mem stays row]; exact Bool.false_ne_true)
  · rfl

theorem emptyRow_eq_some {l : LineScheduler} {r : Nat} (within : r < l.layout.rows)
    (empty : l.occupant r = none) (first : ∀ q < r, l.occupant q ≠ none) : l.emptyRow = some r := by
  refine List.find?_range_eq_some.mpr ⟨by rw [empty]; rfl, List.mem_range.mpr within, fun q hq => ?_⟩
  obtain ⟨o, ho⟩ := Option.ne_none_iff_exists'.mp (first q hq)
  rw [ho]
  rfl

theorem emptyRow_eq_none {l : LineScheduler} (full : ∀ r < l.layout.rows, l.occupant r ≠ none) :
    l.emptyRow = none := by
  refine List.find?_eq_none.mpr fun r hr => ?_
  obtain ⟨o, ho⟩ := Option.ne_none_iff_exists'.mp (full r (List.mem_range.mp hr))
  rw [ho]
  exact Bool.false_ne_true

/-! ## The settling step by step -/

theorem settle_eq (s : State) : ∃ n, s.settle = settleLines (n + 8) s := ⟨_, rfl⟩

theorem settleLines_of_still (complete : s.completeStep = none) (place : s.placeStep = none)
    (linger : s.lingerStep = none) (n : Nat) : settleLines n s = s := by
  cases n with
  | zero => rfl
  | succ n => rw [settleLines, complete, place, linger]

theorem settle_of_still (complete : s.completeStep = none) (place : s.placeStep = none)
    (linger : s.lingerStep = none) : s.settle = s :=
  settleLines_of_still complete place linger _

theorem settleLines_complete {t : State} (complete : s.completeStep = some t) (n : Nat) :
    settleLines (n + 1) s = settleLines n t := by
  rw [settleLines, complete]

theorem settleLines_place {t : State} (complete : s.completeStep = none)
    (place : s.placeStep = some t) (n : Nat) : settleLines (n + 1) s = settleLines n t := by
  rw [settleLines, complete, place]

theorem settleLines_linger {t : State} (complete : s.completeStep = none) (place : s.placeStep = none)
    (linger : s.lingerStep = some t) (n : Nat) : settleLines (n + 1) s = settleLines n t := by
  rw [settleLines, complete, place, linger]

/-- While a scroll is in motion nothing is placed and nothing leaves. -/
theorem settleLines_of_moving {sc : Scroll} (h : s.lines.scroll = some sc) (moving : sc.done < sc.total)
    (n : Nat) : settleLines n s = s :=
  settleLines_of_still (completeStep_of_moving h moving) (placeStep_of_scroll h)
    (lingerStep_of_scroll h) n

/-- With nothing waiting and no linger mark on the top line nothing is to be settled. -/
theorem settleLines_of_calm (scroll : s.lines.scroll = none) (pending : s.lines.pending = [])
    (calm : ∀ w ∈ s.lines.window, w.state ≠ .leaving → w.row = 0 → w.linger = false) (n : Nat) :
    settleLines n s = s :=
  settleLines_of_still (completeStep_of_none scroll) (placeStep_of_empty pending)
    (lingerStep_of_calm calm) n

end

/-! ## Where a line enters the window -/

/-- The new line stands behind the lines of lower rows. -/
def Entered (old : List WindowLine) (w : WindowLine) (result : List WindowLine) : Prop :=
  ∃ a b, old = a ++ b ∧ result = a ++ w :: b ∧ (∀ y ∈ a, y.row < w.row) ∧
    ∀ y, b.head? = some y → w.row ≤ y.row

theorem insertByRow_entered {old : List WindowLine} (stays : ∀ y ∈ old, y.state ≠ .leaving)
    (w : WindowLine) : Entered old w (insertByRow old w) := by
  unfold insertByRow
  simp only
  generalize ahead_eq : (fun l : WindowLine => decide (l.state = .leaving) || decide (l.row < w.row)) = ahead
  refine ⟨old.takeWhile ahead, old.dropWhile ahead, (List.takeWhile_append_dropWhile).symm, rfl,
    fun y mem => ?_, fun y first => ?_⟩
  · have test : ahead y = true := List.mem_takeWhile_imp mem
    have staying := stays y (List.takeWhile_subset _ mem)
    rw [← ahead_eq] at test
    simpa [staying] using test
  · have test : ahead y = false := by
      have head := List.head?_dropWhile_not ahead old
      rw [first] at head
      exact head
    rw [← ahead_eq] at test
    simp only [Bool.or_eq_false_iff, decide_eq_false_iff_not] at test
    omega

theorem insertByRow_last {old : List WindowLine} {w : WindowLine}
    (below : ∀ y ∈ old, y.state = .leaving ∨ y.row < w.row) : insertByRow old w = old ++ [w] := by
  have all (y : WindowLine) (mem : y ∈ old) :
      (decide (y.state = .leaving) || decide (y.row < w.row)) = true := by
    simpa using below y mem
  rw [insertByRow, List.takeWhile_eq_self_iff.mpr all, List.dropWhile_eq_nil_iff.mpr all]

/-- A line of the track as it enters the window. -/
def State.newLine (s : State) (k r : Nat) (st : LineState) : WindowLine :=
  { index := k, row := r, state := st, clipped := false, linger := false, pins := s.lineCodes k }

/-- The cache with the pins of a line of the track. -/
def State.pinnedLine (s : State) (k : Nat) (c : Cache) : Cache :=
  (s.lineCodes k).foldl (Cache.lookupPin s.font.store) c

theorem enterLine_eq (s : State) (z : PendingLine) (r : Nat) : s.enterLine z r = { s with
    lines := { s.lines with window := insertByRow s.lines.window (s.newLine z.index r z.state) }
    cache := s.pinnedLine z.index s.cache } := rfl

theorem startScroll_none (s : State) : s.startScroll none = { s with lines := { s.lines with
    window := s.lines.window.map WindowLine.moveUp
    scroll := some { total := s.lines.scrollTime, done := 0 } } } := rfl

theorem moveUp_below {w : WindowLine} {rows : Nat} (within : w.row < rows) :
    w.moveUp.state = .leaving ∨ w.moveUp.row < rows - 1 := by
  unfold WindowLine.moveUp
  split
  · exact .inl rfl
  · exact .inr (by simp only; omega)

theorem startScroll_some (s : State) (z : PendingLine)
    (within : ∀ w ∈ s.lines.window, w.row < s.lines.layout.rows) :
    s.startScroll (some z) = { s with
      lines := { s.lines with
        window := s.lines.window.map WindowLine.moveUp ++
          [s.newLine z.index (s.lines.layout.rows - 1) z.state]
        scroll := some { total := s.lines.scrollTime, done := 0 } }
      cache := s.pinnedLine z.index s.cache } := by
  have last : insertByRow (s.lines.window.map WindowLine.moveUp)
      (s.newLine z.index (s.lines.layout.rows - 1) z.state) =
      s.lines.window.map WindowLine.moveUp ++ [s.newLine z.index (s.lines.layout.rows - 1) z.state] := by
    refine insertByRow_last fun y mem => ?_
    obtain ⟨w, inside, rfl⟩ := List.mem_map.mp mem
    exact moveUp_below (within w inside)
  rw [← last]
  rfl

/-! ## The front of the pending list, placed (R109, R112) -/

/-- The state with its pending list taken. -/
def State.unpending (s : State) : State := { s with lines := { s.lines with pending := [] } }

section
variable {s : State} {z : PendingLine} (waiting : s.lines.pending = [z]) (still : s.lines.scroll = none)
include waiting still

theorem placeStep_scroll_row (style : s.lines.style = .scroll) {r : Nat}
    (empty : s.lines.emptyRow = some r) : s.placeStep = some (s.unpending.enterLine z r) := by
  rw [State.placeStep, waiting, still, style, empty]
  rfl

theorem placeStep_scroll_start (style : s.lines.style = .scroll) (full : s.lines.emptyRow = none)
    {top : WindowLine} (first : s.lines.occupant 0 = some top) (done : top.state = .done) :
    s.placeStep = some (s.unpending.startScroll (some z)) := by
  rw [State.placeStep, waiting, still, style, full, first]
  exact if_pos done

theorem placeStep_scroll_wait (style : s.lines.style = .scroll) (full : s.lines.emptyRow = none)
    {top : WindowLine} (first : s.lines.occupant 0 = some top) (sung : top.state ≠ .done) :
    s.placeStep = none := by
  rw [State.placeStep, waiting, still, style, full, first]
  exact if_neg sung

theorem placeStep_alternate_row (style : s.lines.style = .alternate)
    (empty : s.lines.occupant (z.index % 2) = none) :
    s.placeStep = some (s.unpending.enterLine z (z.index % 2)) := by
  rw [State.placeStep, waiting, still, style]
  simp only [empty]
  rfl

theorem placeStep_alternate_done (style : s.lines.style = .alternate) {o : WindowLine}
    (held : s.lines.occupant (z.index % 2) = some o) (done : o.state = .done) : s.placeStep =
      some ((s.unpending.dropLines fun y => y.index = o.index).enterLine z (z.index % 2)) := by
  rw [State.placeStep, waiting, still, style]
  simp only [held]
  exact if_pos done

theorem placeStep_alternate_wait (style : s.lines.style = .alternate) {o : WindowLine}
    (held : s.lines.occupant (z.index % 2) = some o) (sung : o.state ≠ .done) : s.placeStep = none := by
  rw [State.placeStep, waiting, still, style]
  simp only [held]
  exact if_neg sung

end

end Sys2Proof.Machine
end

section
/-! The events of a line, with no line leaving and no linger mark (R107 to R112; O40). -/

namespace Sys2Proof.Machine

theorem mem_insertByRow {old : List WindowLine} {w y : WindowLine} (h : y ∈ insertByRow old w) :
    y = w ∨ y ∈ old := by
  unfold insertByRow at h
  rcases List.mem_append.mp h with ahead | behind
  · exact .inr (List.takeWhile_subset _ ahead)
  · rcases List.mem_cons.mp behind with own | behind
    · exact .inl own
    · exact .inr (List.dropWhile_subset _ behind)

theorem countPostLate_of_placed {s : State} (h : s.lines.pending = []) (k : Nat) :
    s.countPostLate k = s := by
  rw [State.countPostLate, h]
  exact if_neg (by simp)

theorem countPostLate_of_scroll {s : State} {sc : Scroll} (h : s.lines.scroll = some sc) (k : Nat) :
    s.countPostLate k = s := by
  rw [State.countPostLate, h]
  exact if_neg (by simp)

theorem countPostLate_of_waiting {s : State} {z : PendingLine} (waiting : s.lines.pending = [z])
    (still : s.lines.scroll = none) : s.countPostLate z.index =
      { s with video := { s.video with postLate := min 255 (s.video.postLate + 1) } } := by
  rw [State.countPostLate, waiting, still]
  exact if_pos (by simp)

/-- The state with one line waiting. -/
def State.withWaiting (s : State) (z : PendingLine) : State :=
  { s with lines := { s.lines with pending := [z] } }

theorem moveUp_isLeaving {w : WindowLine} (stays : w.state ≠ .leaving) :
    w.moveUp.isLeaving = decide (w.row = 0) := by
  unfold WindowLine.moveUp WindowLine.isLeaving
  split
  next first => rw [decide_eq_true rfl, decide_eq_true first]
  next behind => rw [decide_eq_false stays, decide_eq_false behind]

theorem moveUp_pins (w : WindowLine) : w.moveUp.pins = w.pins := by
  unfold WindowLine.moveUp
  split <;> rfl

/-- As a scroll completes, the lines that stood in row 0 have left. -/
theorem moveUp_staying {ws : List WindowLine} (stays : ∀ w ∈ ws, w.state ≠ .leaving) :
    (ws.map WindowLine.moveUp).filter (fun y => !y.isLeaving) =
      (ws.filter fun w => w.row ≠ 0).map WindowLine.moveUp := by
  rw [List.filter_map]
  refine congrArg (List.map WindowLine.moveUp) (List.filter_congr fun w mem => ?_)
  rw [Function.comp_apply, moveUp_isLeaving (stays w mem), ← decide_not]

theorem moveUp_leaving {ws : List WindowLine} (stays : ∀ w ∈ ws, w.state ≠ .leaving) :
    ((ws.map WindowLine.moveUp).filter WindowLine.isLeaving).flatMap (·.pins) =
      (ws.filter fun w => w.row = 0).flatMap (·.pins) := by
  have first : ws.filter (WindowLine.isLeaving ∘ WindowLine.moveUp) = ws.filter fun w => w.row = 0 :=
    List.filter_congr fun w mem => moveUp_isLeaving (stays w mem)
  rw [List.filter_map, first, List.flatMap_map]
  exact List.flatMap_congr fun w _ => moveUp_pins w

section
variable {s : State} {k : Nat} (scroll : s.lines.scroll = none) (pending : s.lines.pending = [])
  (calm : ∀ w ∈ s.lines.window, w.state ≠ .leaving ∧ w.linger = false)

include pending in
theorem unpending_withWaiting (z : PendingLine) : (s.withWaiting z).unpending = s := by
  have same : { s.lines with pending := [] } = s.lines := by rw [← pending]
  exact congrArg (fun l : LineScheduler => { s with lines := l }) same

include pending in
theorem post_eq (absent : ∀ w ∈ s.lines.window, w.index ≠ k) (x : Line) :
    s.takeLineEvent .post (x, k) = (s.withWaiting ⟨k, .posted⟩).settle.countPostLate k := by
  have holds : s.lines.holds k = false := by
    rw [LineScheduler.holds, pending]
    simpa using absent
  have event : s.lineEvent x k .post = s.withWaiting ⟨k, .posted⟩ := by
    rw [State.lineEvent, if_neg (by rw [holds]; exact Bool.false_ne_true), State.mapLines, pending]
    rfl
  rw [State.takeLineEvent, event]
  exact if_pos rfl

/-- A line placed with no scroll settles the window. -/
theorem settle_of_entered {t : State} {z : PendingLine} {r : Nat} (still : t.lines.scroll = none)
    (empty : t.lines.pending = []) (calm : ∀ w ∈ t.lines.window, w.linger = false) (n : Nat) :
    settleLines n (t.enterLine z r) = t.enterLine z r := by
  refine settleLines_of_calm (s := t.enterLine z r) still empty (fun w mem _ _ => ?_) n
  rcases mem_insertByRow mem with rfl | old
  · rfl
  · exact calm w old

section
variable (absent : ∀ w ∈ s.lines.window, w.index ≠ k) (x : Line)
include scroll pending calm absent

/-- A posted line that is placed in an empty row. -/
theorem post_placed {r : Nat}
    (place : (s.withWaiting ⟨k, .posted⟩).placeStep = some (s.enterLine ⟨k, .posted⟩ r)) :
    s.takeLineEvent .post (x, k) = s.enterLine ⟨k, .posted⟩ r := by
  obtain ⟨n, settles⟩ := settle_eq (s.withWaiting ⟨k, .posted⟩)
  rw [post_eq pending absent, settles,
    settleLines_place (s := s.withWaiting ⟨k, .posted⟩) (completeStep_of_none scroll) place,
    settle_of_entered scroll pending fun w mem => (calm w mem).2]
  exact countPostLate_of_placed (s := s.enterLine ⟨k, .posted⟩ r) pending k

/-- A posted line that finds no room waits. -/
theorem post_waits (place : (s.withWaiting ⟨k, .posted⟩).placeStep = none) :
    s.takeLineEvent .post (x, k) = { s with
      lines := { s.lines with pending := [{ index := k, state := .posted }] }
      video := { s.video with postLate := min 255 (s.video.postLate + 1) } } := by
  have settled : (s.withWaiting ⟨k, .posted⟩).settle = s.withWaiting ⟨k, .posted⟩ :=
    settle_of_still (completeStep_of_none scroll) place
      (lingerStep_of_calm fun w mem _ _ => (calm w mem).2)
  rw [post_eq pending absent, settled]
  exact countPostLate_of_waiting (z := ⟨k, .posted⟩) rfl scroll

/-- A posted line that comes in as a scroll of no time ends at once. -/
theorem post_scrolls_at_once (place : (s.withWaiting ⟨k, .posted⟩).placeStep =
      some (s.startScroll (some ⟨k, .posted⟩))) (atOnce : s.lines.scrollTime = 0)
    (within : ∀ w ∈ s.lines.window, w.row < s.lines.layout.rows) :
    s.takeLineEvent .post (x, k) = { s with
      lines := { s.lines with
        window := (s.lines.window.filter fun w => w.row ≠ 0).map WindowLine.moveUp ++
          [s.newLine k (s.lines.layout.rows - 1) .posted] }
      cache := ((s.lines.window.filter fun w => w.row = 0).flatMap (·.pins)).foldl Cache.release
        (s.pinnedLine k s.cache) } := by
  obtain ⟨n, settles⟩ := settle_eq (s.withWaiting ⟨k, .posted⟩)
  have started := startScroll_some s ⟨k, .posted⟩ within
  have arrives : ([s.newLine k (s.lines.layout.rows - 1) .posted].filter fun y => !y.isLeaving) =
      [s.newLine k (s.lines.layout.rows - 1) .posted] := rfl
  have arrived : [s.newLine k (s.lines.layout.rows - 1) .posted].filter WindowLine.isLeaving = [] := rfl
  have staying := moveUp_staying fun w mem => (calm w mem).1
  have leaving := moveUp_leaving fun w mem => (calm w mem).1
  have completed : ((s.startScroll (some ⟨k, .posted⟩)).dropLines WindowLine.isLeaving).mapLines
      (fun l => { l with scroll := none }) = { s with
        lines := { s.lines with
          window := (s.lines.window.filter fun w => w.row ≠ 0).map WindowLine.moveUp ++
            [s.newLine k (s.lines.layout.rows - 1) .posted] }
        cache := ((s.lines.window.filter fun w => w.row = 0).flatMap (·.pins)).foldl Cache.release
          (s.pinnedLine k s.cache) } := by
    have still : { s.lines with scroll := none } = s.lines := by rw [← scroll]
    rw [started]
    unfold State.dropLines State.unpin State.mapLines
    simp only [List.filter_append, arrives, arrived, staying, List.append_nil, leaving]
    rw [scroll]
  have done : (s.startScroll (some ⟨k, .posted⟩)).completeStep = some _ :=
    completeStep_of_done (sc := { total := s.lines.scrollTime, done := 0 }) rfl atOnce.le
  rw [completed] at done
  rw [post_eq pending absent, settles,
    settleLines_place (s := s.withWaiting ⟨k, .posted⟩) (completeStep_of_none scroll) place,
    settleLines_complete done]
  refine (congrArg (fun u : State => u.countPostLate k) (settleLines_of_calm ?still ?empty ?calm _)).trans
    (countPostLate_of_placed ?empty k)
  case still => exact scroll
  case empty => exact pending
  case calm =>
    intro w mem _ _
    rcases List.mem_append.mp mem with moved | new
    · obtain ⟨y, inside, rfl⟩ := List.mem_map.mp moved
      have own := (calm y (List.mem_of_mem_filter inside)).2
      unfold WindowLine.moveUp
      split <;> exact own
    · rw [List.mem_singleton.mp new]
      rfl

end

include scroll pending in
/-- A posted line that comes in as a scroll starts. -/
theorem post_scrolls (absent : ∀ w ∈ s.lines.window, w.index ≠ k) (x : Line)
    (place : (s.withWaiting ⟨k, .posted⟩).placeStep = some (s.startScroll (some ⟨k, .posted⟩)))
    (moves : 0 < s.lines.scrollTime) :
    s.takeLineEvent .post (x, k) = s.startScroll (some ⟨k, .posted⟩) := by
  obtain ⟨n, settles⟩ := settle_eq (s.withWaiting ⟨k, .posted⟩)
  have moving : (s.startScroll (some ⟨k, .posted⟩)).lines.scroll =
      some { total := s.lines.scrollTime, done := 0 } := rfl
  rw [post_eq pending absent, settles,
    settleLines_place (s := s.withWaiting ⟨k, .posted⟩) (completeStep_of_none scroll) place,
    settleLines_of_moving moving moves]
  exact countPostLate_of_scroll moving k

end

end Sys2Proof.Machine
end

section
/-! The start, done, leave and prefetch events of a line (R107, R109, R111, R112; O40). -/

namespace Sys2Proof.Machine

section
variable {s : State} (x : Line) {k : Nat} {e : LineEvent}

theorem takeLineEvent_of_not_post (other : e ≠ .post) :
    s.takeLineEvent e (x, k) = (s.lineEvent x k e).settle := if_neg other

/-- An event that leaves nothing to settle. -/
theorem takeLineEvent_of_calm {t : State} (other : e ≠ .post) (event : s.lineEvent x k e = t)
    (scroll : t.lines.scroll = none) (pending : t.lines.pending = [])
    (calm : ∀ w ∈ t.lines.window, w.state ≠ .leaving → w.row = 0 → w.linger = false) :
    s.takeLineEvent e (x, k) = t := by
  rw [takeLineEvent_of_not_post x other, event]
  exact settleLines_of_calm scroll pending calm _

/-- An event during a scroll leaves nothing to settle. -/
theorem takeLineEvent_of_moving {t : State} {sc : Scroll} (other : e ≠ .post)
    (event : s.lineEvent x k e = t) (scroll : t.lines.scroll = some sc) (moving : sc.done < sc.total) :
    s.takeLineEvent e (x, k) = t := by
  rw [takeLineEvent_of_not_post x other, event]
  exact settleLines_of_moving scroll moving _

end

/-! ## The marks -/

theorem after_start (st : LineState) :
    st.after .start = if st = .posted then .singing else st := by
  cases st <;> rfl

theorem after_done (st : LineState) :
    st.after .done = if st = .posted ∨ st = .singing then .done else st := by
  cases st <;> rfl

/-- The lines of a list marked by a start or a done event. -/
theorem mark_start (k : Nat) (ws : List WindowLine) :
    (ws.map fun w => if w.index = k then { w with state := w.state.after .start } else w) =
      ws.map fun w => if w.index = k ∧ w.state = .posted then { w with state := .singing } else w := by
  refine List.map_congr_left fun w _ => ?_
  rw [after_start]
  by_cases own : w.index = k
  · by_cases posted : w.state = .posted
    · rw [if_pos own, if_pos posted, if_pos ⟨own, posted⟩]
    · rw [if_pos own, if_neg posted, if_neg fun h => posted h.2]
  · rw [if_neg own, if_neg fun h => own h.1]

theorem mark_done (k : Nat) (ws : List WindowLine) :
    (ws.map fun w => if w.index = k then { w with state := w.state.after .done } else w) =
      ws.map fun w => if w.index = k ∧ (w.state = .posted ∨ w.state = .singing) then
        { w with state := .done } else w := by
  refine List.map_congr_left fun w _ => ?_
  rw [after_done]
  by_cases own : w.index = k
  · by_cases sung : w.state = .posted ∨ w.state = .singing
    · rw [if_pos own, if_pos sung, if_pos ⟨own, sung⟩]
    · rw [if_pos own, if_neg sung, if_neg fun h => sung h.2]
  · rw [if_neg own, if_neg fun h => own h.1]

theorem mark_done_pending (k : Nat) (zs : List PendingLine) :
    (zs.map fun w => if w.index = k then { w with state := w.state.after .done } else w) =
      zs.map fun w => if w.index = k ∧ (w.state = .posted ∨ w.state = .singing) then
        { w with state := .done } else w := by
  refine List.map_congr_left fun w _ => ?_
  rw [after_done]
  by_cases own : w.index = k
  · by_cases sung : w.state = .posted ∨ w.state = .singing
    · rw [if_pos own, if_pos sung, if_pos ⟨own, sung⟩]
    · rw [if_pos own, if_neg sung, if_neg fun h => sung h.2]
  · rw [if_neg own, if_neg fun h => own h.1]

theorem lineEvent_start (s : State) (x : Line) (k : Nat) : s.lineEvent x k .start = { s with
    lines := { s.lines with
      window := s.lines.window.map fun w =>
        if w.index = k ∧ w.state = .posted then { w with state := .singing } else w
      pending := s.lines.pending.map fun z =>
        if z.index = k then { z with state := z.state.after .start } else z } } := by
  rw [← mark_start]
  rfl

theorem lineEvent_done (s : State) (x : Line) (k : Nat) : s.lineEvent x k .done = { s with
    lines := { s.lines with
      window := s.lines.window.map fun w =>
        if w.index = k ∧ (w.state = .posted ∨ w.state = .singing) then { w with state := .done } else w
      pending := s.lines.pending.map fun w =>
        if w.index = k ∧ (w.state = .posted ∨ w.state = .singing) then
          { w with state := .done } else w } } := by
  rw [← mark_done, ← mark_done_pending]
  rfl

theorem lineEvent_prefetch (s : State) (x : Line) (k : Nat) : s.lineEvent x k .prefetch = { s with
    cache := x.codes.eraseDups.foldl (Cache.prefetch s.font.store) s.cache } := by
  rw [← distinct_eq_eraseDups]
  rfl

theorem lineEvent_leave_scroll {s : State} (style : s.lines.style = .scroll) (x : Line) (k : Nat) :
    s.lineEvent x k .leave = { s with lines := { s.lines with
      pending := s.lines.pending.filter fun w => w.index ≠ k
      window := s.lines.window.map fun w => if w.index = k then { w with linger := true } else w } } := by
  have same : (s.mapLines fun l => { l with pending := l.pending.filter (·.index ≠ k) }).lines.style =
      .scroll := style
  rw [State.lineEvent]
  simp only
  rw [same]
  rfl

theorem lineEvent_leave_alternate {s : State} (style : s.lines.style = .alternate) (x : Line) (k : Nat) :
    s.lineEvent x k .leave = { s with
      lines := { s.lines with
        pending := s.lines.pending.filter fun w => w.index ≠ k
        window := s.lines.window.filter fun w => w.index ≠ k }
      cache := ((s.lines.window.filter fun w => w.index = k).flatMap fun w => w.pins).foldl
        Cache.release s.cache } := by
  have same : (s.mapLines fun l => { l with pending := l.pending.filter (·.index ≠ k) }).lines.style =
      .alternate := style
  have others : (s.lines.window.filter fun w => !decide (w.index = k)) =
      s.lines.window.filter fun w => w.index ≠ k :=
    List.filter_congr fun w _ => (decide_not ..).symm
  rw [State.lineEvent, ← others]
  simp only
  rw [same]
  rfl

/-! ## The events with no line leaving and no linger mark -/

section
variable {s : State} (x : Line) {k : Nat} (scroll : s.lines.scroll = none)
  (pending : s.lines.pending = []) (calm : ∀ w ∈ s.lines.window, w.state ≠ .leaving ∧ w.linger = false)
include scroll pending calm

theorem take_start : s.takeLineEvent .start (x, k) = { s with lines := { s.lines with
    window := s.lines.window.map fun w =>
      if w.index = k ∧ w.state = .posted then { w with state := .singing } else w } } := by
  have event : s.lineEvent x k .start = { s with lines := { s.lines with
      window := s.lines.window.map fun w =>
        if w.index = k ∧ w.state = .posted then { w with state := .singing } else w } } := by
    rw [lineEvent_start, pending]
    simp only [List.map_nil]
    rw [← pending]
  refine takeLineEvent_of_calm x (by decide) event scroll pending fun w mem _ _ => ?_
  obtain ⟨y, inside, rfl⟩ := List.mem_map.mp mem
  split
  · exact (calm y inside).2
  · exact (calm y inside).2

theorem take_done : s.takeLineEvent .done (x, k) = { s with lines := { s.lines with
    window := s.lines.window.map fun w =>
      if w.index = k ∧ (w.state = .posted ∨ w.state = .singing) then
        { w with state := .done } else w } } := by
  have event : s.lineEvent x k .done = { s with lines := { s.lines with
      window := s.lines.window.map fun w =>
        if w.index = k ∧ (w.state = .posted ∨ w.state = .singing) then
          { w with state := .done } else w } } := by
    rw [lineEvent_done, pending]
    simp only [List.map_nil]
    rw [← pending]
  refine takeLineEvent_of_calm x (by decide) event scroll pending fun w mem _ _ => ?_
  obtain ⟨y, inside, rfl⟩ := List.mem_map.mp mem
  split
  · exact (calm y inside).2
  · exact (calm y inside).2

theorem take_prefetch : s.takeLineEvent .prefetch (x, k) = { s with
    cache := x.codes.eraseDups.foldl (Cache.prefetch s.font.store) s.cache } :=
  takeLineEvent_of_calm x (by decide) (lineEvent_prefetch s x k) scroll pending
    fun w mem _ _ => (calm w mem).2

theorem take_leave_alternate (style : s.lines.style = .alternate) :
    s.takeLineEvent .leave (x, k) = { s with
      lines := { s.lines with window := s.lines.window.filter fun w => w.index ≠ k }
      cache := ((s.lines.window.filter fun w => w.index = k).flatMap fun w => w.pins).foldl
        Cache.release s.cache } := by
  have event : s.lineEvent x k .leave = { s with
      lines := { s.lines with window := s.lines.window.filter fun w => w.index ≠ k }
      cache := ((s.lines.window.filter fun w => w.index = k).flatMap fun w => w.pins).foldl
        Cache.release s.cache } := by
    rw [lineEvent_leave_alternate style, pending]
    simp only [List.filter_nil]
    rw [← pending]
  exact takeLineEvent_of_calm x (by decide) event scroll pending
    fun w mem _ _ => (calm w (List.mem_of_mem_filter mem)).2

omit scroll calm in
/-- The effect of a leave event in SCROLL itself: a linger mark. -/
theorem lineEvent_leave_marks (style : s.lines.style = .scroll) : s.lineEvent x k .leave = { s with
    lines := { s.lines with window := s.lines.window.map fun w =>
      if w.index = k then { w with linger := true } else w } } := by
  rw [lineEvent_leave_scroll style, pending]
  simp only [List.filter_nil]
  rw [← pending]

theorem take_leave_below (style : s.lines.style = .scroll)
    (below : ∀ w ∈ s.lines.window, w.index = k → w.row ≠ 0) :
    s.takeLineEvent .leave (x, k) = { s with lines := { s.lines with
      window := s.lines.window.map fun w =>
        if w.index = k then { w with linger := true } else w } } := by
  refine takeLineEvent_of_calm x (by decide) (lineEvent_leave_marks x pending style) scroll
    pending fun w mem _ first => ?_
  obtain ⟨y, inside, rfl⟩ := List.mem_map.mp mem
  split at first
  next own => exact absurd first (below y inside own)
  next other =>
    rw [if_neg other]
    exact (calm y inside).2

omit pending calm in
theorem lingerStep_of_top {top : WindowLine} (style : s.lines.style = .scroll)
    (first : s.lines.occupant 0 = some top) (lingers : top.linger = true) :
    s.lingerStep = some (s.startScroll none) := by
  rw [State.lingerStep, style, scroll, first]
  exact if_pos lingers

/-- The state with another window. -/
def State.withWindow (s : State) (ws : List WindowLine) : State :=
  { s with lines := { s.lines with window := ws } }

/-- The top line leaves: a scroll starts from row 0. -/
theorem take_leave_first (style : s.lines.style = .scroll) (moves : 0 < s.lines.scrollTime)
    (stands : ∃ w ∈ s.lines.window, w.index = k)
    (first : ∀ w ∈ s.lines.window, w.index = k ↔ w.row = 0) :
    s.takeLineEvent .leave (x, k) = { s with lines := { s.lines with
      window := s.lines.window.map fun w =>
        if w.row = 0 then { w with state := .leaving, linger := true }
        else { w with row := w.row - 1 }
      scroll := some { total := s.lines.scrollTime, done := 0 } } } := by
  obtain ⟨window, marked⟩ : ∃ window, window = s.lines.window.map fun w : WindowLine =>
    if w.index = k then { w with linger := true } else w := ⟨_, rfl⟩
  have event : s.lineEvent x k .leave = s.withWindow window := by
    rw [lineEvent_leave_marks x pending style, marked]
    rfl
  obtain ⟨y, inside, own⟩ := stands
  obtain ⟨top, found⟩ : ∃ o, (s.withWindow window).lines.occupant 0 = some o := by
    refine occupant_isSome (w := { y with linger := true }) ?_ (calm y inside).1 ((first y inside).mp own)
    change _ ∈ window
    rw [marked]
    exact List.mem_map.mpr ⟨y, inside, if_pos own⟩
  have lingers : top.linger = true := by
    obtain ⟨mem, -, row⟩ := occupant_spec found
    change top ∈ window at mem
    rw [marked] at mem
    obtain ⟨z, zin, rfl⟩ := List.mem_map.mp mem
    by_cases zown : z.index = k
    · rw [if_pos zown]
    · rw [if_neg zown] at row
      exact absurd ((first z zin).mpr row) zown
  obtain ⟨n, settles⟩ := settle_eq (s.withWindow window)
  have step := lingerStep_of_top (s := s.withWindow window) scroll style found lingers
  rw [takeLineEvent_of_not_post x (by decide), event, settles,
    settleLines_linger (s := s.withWindow window) (completeStep_of_none scroll)
      (placeStep_of_empty pending) step,
    settleLines_of_moving (sc := { total := s.lines.scrollTime, done := 0 }) rfl moves, startScroll_none]
  have moved : s.lines.window.map (WindowLine.moveUp ∘ fun w : WindowLine =>
      if w.index = k then { w with linger := true } else w) = s.lines.window.map fun w =>
        if w.row = 0 then { w with state := .leaving, linger := true }
        else { w with row := w.row - 1 } := by
    refine List.map_congr_left fun w mem => ?_
    rw [Function.comp_apply]
    by_cases top : w.row = 0
    · rw [if_pos ((first w mem).mpr top), if_pos top, WindowLine.moveUp]
      exact if_pos top
    · rw [if_neg fun own => top ((first w mem).mp own), if_neg top, WindowLine.moveUp]
      exact if_neg top
  rw [← moved, ← List.map_map, ← marked]
  rfl

/-- The state with another pending list. -/
def State.withWaitingLines (s : State) (zs : List PendingLine) : State :=
  { s with lines := { s.lines with pending := zs } }

/-- A line waiting comes in as the top line is done. -/
theorem take_done_waiting {z : PendingLine} {j : Nat} (style : s.lines.style = .scroll)
    (own : z.index = k) (other : j ≠ k) (moves : 0 < s.lines.scrollTime)
    (full : ∀ r < s.lines.layout.rows, ∃ w ∈ s.lines.window, w.row = r)
    (some_ : 0 < s.lines.layout.rows)
    (first : ∀ w ∈ s.lines.window, w.row < s.lines.layout.rows ∧ (w.index = j ↔ w.row = 0)) :
    State.takeLineEvent { s with lines := { s.lines with pending := [z] } } .done (x, j) = { s with
      lines := { s.lines with
        window := s.lines.window.map WindowLine.moveUp ++
          [s.newLine k (s.lines.layout.rows - 1) z.state]
        scroll := some { total := s.lines.scrollTime, done := 0 } }
      cache := s.pinnedLine k s.cache } := by
  obtain ⟨window, marked⟩ : ∃ window, window = s.lines.window.map fun w : WindowLine =>
    if w.index = j ∧ (w.state = .posted ∨ w.state = .singing) then { w with state := .done } else w :=
    ⟨_, rfl⟩
  have shape (w : WindowLine) (mem : w ∈ window) : ∃ y ∈ s.lines.window, w.row = y.row ∧
      w.index = y.index ∧ w.state ≠ .leaving ∧ (y.row = 0 → w.state = .done) := by
    rw [marked] at mem
    obtain ⟨y, inside, rfl⟩ := List.mem_map.mp mem
    have stays := (calm y inside).1
    refine ⟨y, inside, ?_⟩
    split
    next sung => exact ⟨rfl, rfl, nofun, fun _ => rfl⟩
    next kept =>
      refine ⟨rfl, rfl, stays, fun top => ?_⟩
      have own := (first y inside).2.mpr top
      cases state : y.state with
      | done => rfl
      | leaving => exact absurd state stays
      | posted => exact absurd ⟨own, .inl state⟩ kept
      | singing => exact absurd ⟨own, .inr state⟩ kept
  have moved : window.map WindowLine.moveUp = s.lines.window.map WindowLine.moveUp := by
    rw [marked, List.map_map]
    refine List.map_congr_left fun w mem => ?_
    rw [Function.comp_apply]
    split
    next sung =>
      have top := (first w mem).2.mp sung.1
      rw [WindowLine.moveUp, WindowLine.moveUp, if_pos top, if_pos top]
    · rfl
  have holds (r : Nat) (within : r < s.lines.layout.rows) :
      ∃ o, ((s.withWindow window).withWaiting z).lines.occupant r = some o := by
    obtain ⟨w, mem, row⟩ := full r within
    obtain ⟨v, vmem, vrow⟩ : ∃ v ∈ window, v.row = w.row := by
      rw [marked]
      refine ⟨_, List.mem_map_of_mem mem, ?_⟩
      split <;> rfl
    obtain ⟨_, _, _, _, stays, _⟩ := shape v vmem
    exact occupant_isSome (l := ((s.withWindow window).withWaiting z).lines) vmem stays (vrow.trans row)
  obtain ⟨top, found⟩ := holds 0 some_
  have done : top.state = .done := by
    obtain ⟨mem, -, row⟩ := occupant_spec found
    obtain ⟨y, -, same, -, -, sung⟩ := shape top mem
    exact sung (same.symm.trans row)
  have event : State.lineEvent (s.withWaiting z) x j .done = (s.withWindow window).withWaiting z := by
    have kept : ([z].map fun w : PendingLine => if w.index = j ∧ (w.state = .posted ∨ w.state = .singing)
        then { w with state := .done } else w) = [z] :=
      congrArg (fun y => [y]) (if_neg fun h => other (h.1.symm.trans own))
    rw [lineEvent_done, marked]
    exact congrArg (State.withWaitingLines (s.withWindow _)) kept
  have within (w : WindowLine) (mem : w ∈ window) : w.row < s.lines.layout.rows := by
    obtain ⟨y, inside, row, -⟩ := shape w mem
    rw [row]
    exact (first y inside).1
  obtain ⟨n, settles⟩ := settle_eq ((s.withWindow window).withWaiting z)
  have place := placeStep_scroll_start (s := (s.withWindow window).withWaiting z) rfl scroll style
    (emptyRow_eq_none fun r inside => Option.ne_none_iff_exists'.mpr (holds r inside)) found done
  rw [unpending_withWaiting (s := s.withWindow window) pending] at place
  have started := startScroll_some (s.withWindow window) z within
  have take : State.takeLineEvent (s.withWaiting z) .done (x, j) =
      (s.withWindow window).startScroll (some z) := by
    rw [takeLineEvent_of_not_post x (by decide), event, settles,
      settleLines_place (s := (s.withWindow window).withWaiting z) (completeStep_of_none scroll) place,
      settleLines_of_moving (sc := { total := s.lines.scrollTime, done := 0 }) rfl moves]
  refine take.trans (started.trans ?_)
  have lines : (s.withWindow window).lines.window = window := rfl
  rw [lines, moved, own]
  rfl

end

end Sys2Proof.Machine
end

section
/-! The events of a line during a scroll, and the scroll itself (R110, R149; O40). -/

namespace Sys2Proof.Machine

/-! ## During a scroll -/

section
variable {s : State} (x : Line) {k : Nat} {sc : Scroll} (scroll : s.lines.scroll = some sc)
  (moving : sc.done < sc.total)
include scroll moving

theorem post_during_scroll (absent : s.lines.holds k = false) : s.takeLineEvent .post (x, k) =
    { s with lines := { s.lines with
      pending := s.lines.pending ++ [{ index := k, state := .posted }] } } := by
  obtain ⟨waiting, added⟩ : ∃ waiting, waiting = s.lines.pending ++ [{ index := k, state := .posted }] :=
    ⟨_, rfl⟩
  have event : s.lineEvent x k .post = s.withWaitingLines waiting := by
    rw [added]
    exact if_neg (by rw [absent]; exact Bool.false_ne_true)
  have settled : (s.lineEvent x k .post).settle = s.withWaitingLines waiting := by
    rw [event]
    exact settleLines_of_moving (s := s.withWaitingLines waiting) scroll moving _
  rw [State.takeLineEvent, settled, ← added]
  exact (if_pos rfl).trans (countPostLate_of_scroll (s := s.withWaitingLines waiting) scroll k)

theorem leave_during_scroll (style : s.lines.style = .scroll) : s.takeLineEvent .leave (x, k) =
    { s with lines := { s.lines with
      pending := s.lines.pending.filter fun w => w.index ≠ k
      window := s.lines.window.map fun w =>
        if w.index = k then { w with linger := true } else w } } :=
  takeLineEvent_of_moving x (by decide) (lineEvent_leave_scroll style x k) scroll moving

theorem done_during_scroll : s.takeLineEvent .done (x, k) = { s with lines := { s.lines with
    window := s.lines.window.map fun w =>
      if w.index = k ∧ (w.state = .posted ∨ w.state = .singing) then { w with state := .done } else w
    pending := s.lines.pending.map fun w =>
      if w.index = k ∧ (w.state = .posted ∨ w.state = .singing) then
        { w with state := .done } else w } } :=
  takeLineEvent_of_moving x (by decide) (lineEvent_done s x k) scroll moving

end

/-! ## A latch counted against the scroll -/

/-- The clipped marks of a list of lines taken away. -/
def unclipped (ws : List WindowLine) : List WindowLine := ws.map fun w => { w with clipped := false }

theorem unclipped_clipIf (q : Nat → Bool) (ws : List WindowLine) :
    unclipped (ws.map (·.clipIf q)) = unclipped ws := by
  rw [unclipped, List.map_map]
  refine List.map_congr_left fun w _ => ?_
  rw [Function.comp_apply, WindowLine.clipIf]
  split <;> rfl

/-- The lines after a latch are those it counted, but for clipped marks. -/
theorem frameLatch_lines (s : State) : ∃ q, s.frameLatch.lines = { s.counted.lines with
    window := s.counted.lines.window.map (·.clipIf q), stepTwoMade := false } := by
  obtain ⟨⟨q, latched, -⟩, -⟩ := latchOverlay_marks s.readyToCapture
  refine ⟨q, ?_⟩
  rw [frameLatch_eq_latchOverlay, latched, readyToCapture_counted]

section
variable {s : State} {sc : Scroll} (scroll : s.lines.scroll = some sc)
  (rebuild : s.lines.rebuild = false)
include scroll

theorem countScroll_of_moving (more : sc.done + 1 < sc.total) : s.countScroll = { s with
    lines := { s.lines with scroll := some { sc with done := sc.done + 1 } } } := by
  rw [State.countScroll, scroll]
  exact settleLines_of_moving (sc := { sc with done := sc.done + 1 }) rfl more _

/-- The last latch of a scroll: the LEAVING line leaves, and the rest stays. -/
theorem countScroll_of_last (last : sc.total ≤ sc.done + 1) (pending : s.lines.pending = [])
    (calm : ∀ x ∈ s.lines.window, x.state ≠ .leaving → x.row = 0 → x.linger = false) :
    s.countScroll = { s with
      lines := { s.lines with
        window := s.lines.window.filter fun x => x.state ≠ .leaving, scroll := none }
      cache := ((s.lines.window.filter fun x => x.state = .leaving).flatMap (·.pins)).foldl
        Cache.release s.cache } := by
  have staying : (s.lines.window.filter fun x => !x.isLeaving) =
      s.lines.window.filter fun x => x.state ≠ .leaving :=
    List.filter_congr fun x _ => (decide_not ..).symm
  obtain ⟨n, settles⟩ := settle_eq
    (s.mapLines fun l => { l with scroll := some { sc with done := sc.done + 1 } })
  have completes := completeStep_of_done
    (s := s.mapLines fun l => { l with scroll := some { sc with done := sc.done + 1 } }) rfl last
  rw [State.countScroll, scroll]
  simp only
  rw [settles, settleLines_complete completes, ← staying]
  refine settleLines_of_calm ?still ?empty ?calm _
  case still => rfl
  case empty => exact pending
  case calm => exact fun w mem stays row => calm w (List.mem_of_mem_filter mem) stays row

include rebuild

theorem frameLatch_of_moving (more : s.lines.stepTwoMade = true ∨ sc.done + 1 < sc.total) :
    s.frameLatch.lines = { s.lines with
      window := s.frameLatch.lines.window, stepTwoMade := false
      scroll := some { sc with done :=
        if s.lines.stepTwoMade = true then sc.done else sc.done + 1 } } ∧
    unclipped s.frameLatch.lines.window = unclipped s.lines.window := by
  have made := makeRebuild_of_none rebuild
  have counted : s.counted.lines = { s.lines with scroll := some { sc with done :=
      if s.lines.stepTwoMade = true then sc.done else sc.done + 1 } } := by
    rw [State.counted, made]
    by_cases stepTwo : s.lines.stepTwoMade = true
    · rw [if_pos stepTwo, if_pos stepTwo, ← scroll]
    · rw [if_neg stepTwo, if_neg stepTwo, countScroll_of_moving scroll (more.resolve_left stepTwo)]
  obtain ⟨q, lines⟩ := frameLatch_lines s
  rw [lines, counted]
  exact ⟨rfl, unclipped_clipIf q _⟩

theorem frameLatch_of_last (last : sc.total ≤ sc.done + 1) (stepTwo : s.lines.stepTwoMade = false)
    (pending : s.lines.pending = [])
    (calm : ∀ x ∈ s.lines.window, x.state ≠ .leaving → x.row = 0 → x.linger = false) :
    s.frameLatch.lines.pending = [] ∧ s.frameLatch.lines.scroll = none ∧
      s.frameLatch.lines.stepTwoMade = false ∧ unclipped s.frameLatch.lines.window =
        unclipped (s.lines.window.filter fun x => x.state ≠ .leaving) := by
  have counted : s.counted = s.countScroll := by
    rw [State.counted, makeRebuild_of_none rebuild]
    exact if_neg (by rw [stepTwo]; exact Bool.false_ne_true)
  obtain ⟨q, lines⟩ := frameLatch_lines s
  rw [lines, counted, countScroll_of_last scroll last pending calm]
  exact ⟨pending, rfl, rfl, unclipped_clipIf q _⟩

theorem scrollComplete_of_last (last : sc.total ≤ sc.done + 1) (stepTwo : s.lines.stepTwoMade = false)
    (pending : s.lines.pending = [])
    (calm : ∀ x ∈ s.lines.window, x.state ≠ .leaving → x.row = 0 → x.linger = false) :
    exec .scrollComplete s = .next { s with
      lines := { s.lines with
        window := s.lines.window.filter fun x => x.state ≠ .leaving, scroll := none
        stepTwoMade := true }
      cache := ((s.lines.window.filter fun x => x.state = .leaving).flatMap (·.pins)).foldl
        Cache.release s.cache } := by
  have row : exec .scrollComplete s = execScrollComplete s := rfl
  rw [row, execScrollComplete, scroll]
  simp only
  rw [if_pos (by simp [last, rebuild, stepTwo]), countScroll_of_last scroll last pending calm]
  rfl

end

/-! ## The score show's end -/

theorem scoreShowExpiry_ends {s : State} {h : Nat}
    (out : s.lines.scoreShow = some { headline := h, left := 0 }) :
    exec .scoreShowExpiry s = .next { s with
      lines := { s.lines with scoreShow := none }
      cache := (headlineText h).foldl Cache.release s.cache } := by
  have row : exec .scoreShowExpiry s = .next s.passScoreShow := rfl
  rw [row, State.passScoreShow, out]
  simp only [if_true]
  rw [State.endScoreShow, out]
  rfl

/-! ## The events of one song time -/

theorem lineEvent_times (l : LineScheduler) (x : Line) :
    l.eventTime x .prefetch = (x.start : Int) - l.lead - 1000 ∧
    l.eventTime x .post = (x.start : Int) - l.lead ∧ l.eventTime x .start = x.start ∧
    l.eventTime x .done = x.stop + l.hold ∧ l.eventTime x .leave = x.stop + l.hold + l.linger :=
  ⟨rfl, rfl, rfl, rfl, rfl⟩

theorem lineEventsAt_of_none {s : State} (n : Nat) (h : s.lines.rebuild = true ∨ s.turn = none) :
    s.lineEventsAt n = s := by
  refine if_pos ?_
  rcases h with rebuild | empty
  · rw [rebuild, Bool.true_or]
  · rw [empty]
    exact Bool.or_true _

/-- What the times of a line's events are read from. -/
def SameTimes (s t : State) : Prop :=
  t.stageLines = s.stageLines ∧ ∀ x e, t.lines.eventTime x e = s.lines.eventTime x e

theorem takeLineEvent_sameTimes (s : State) (e : LineEvent) (z : Line × Nat) :
    SameTimes s (s.takeLineEvent e z) := by
  have touches := takeLineEvent_touches s e z
  have turn : (s.takeLineEvent e z).turn = s.turn := touches .turn (by decide)
  have slots : (s.takeLineEvent e z).slots = s.slots := touches .slots (by decide)
  refine ⟨?_, fun x e' => ?_⟩
  · rw [State.stageLines, State.stageLines, State.stageTrack, State.stageTrack, turn, slots]
  · rw [(takeLineEvent_windowed s e z).lines]
    cases e' <;> rfl

theorem foldl_sameTimes (zs : List (LineEvent × Line × Nat)) (s : State) :
    SameTimes s (zs.foldl (fun s z => s.takeLineEvent z.1 z.2) s) := by
  induction zs generalizing s with
  | nil => exact ⟨rfl, fun _ _ => rfl⟩
  | cons z zs ih =>
    obtain ⟨lines, times⟩ := takeLineEvent_sameTimes s z.1 z.2
    obtain ⟨lines', times'⟩ := ih (s.takeLineEvent z.1 z.2)
    exact ⟨lines'.trans lines, fun x e => (times' x e).trans (times x e)⟩

/-- The events of a kind at a song time. -/
def State.eventsOf (s : State) (n : Nat) (e : LineEvent) : List (LineEvent × Line × Nat) :=
  (s.stageLines.filter fun z => s.lines.eventTime z.1 e = (n : Int)).map fun z => (e, z)

theorem eventsOf_congr {s t : State} (h : SameTimes s t) (n : Nat) (e : LineEvent) :
    t.eventsOf n e = s.eventsOf n e := by
  rw [State.eventsOf, State.eventsOf, h.1]
  simp only [h.2]

theorem lineEventsAt_foldl (s : State) (n : Nat) (es : List LineEvent) {t : State}
    (same : SameTimes s t) :
    es.foldl (fun s e => (s.stageLines.filter fun x => s.lines.eventTime x.1 e = (n : Int)).foldl
        (fun s x => s.takeLineEvent e x) s) t =
      (es.flatMap (s.eventsOf n)).foldl (fun s z => s.takeLineEvent z.1 z.2) t := by
  induction es generalizing t with
  | nil => rfl
  | cons e es ih =>
    have kind : (t.stageLines.filter fun x => t.lines.eventTime x.1 e = (n : Int)).foldl
        (fun s x => s.takeLineEvent e x) t =
        (s.eventsOf n e).foldl (fun s z => s.takeLineEvent z.1 z.2) t := by
      rw [← eventsOf_congr same, State.eventsOf, List.foldl_map]
    have after := foldl_sameTimes (s.eventsOf n e) t
    rw [List.foldl_cons, kind, List.flatMap_cons, List.foldl_append]
    exact ih ⟨after.1.trans same.1, fun x e => (after.2 x e).trans (same.2 x e)⟩

theorem lineEventsAt_eq {s : State} (n : Nat) (rebuild : s.lines.rebuild = false)
    (staged : s.turn.isSome = true) : s.lineEventsAt n =
      (LineEvent.all.flatMap (s.eventsOf n)).foldl (fun s z => s.takeLineEvent z.1 z.2) s := by
  have taken : ¬ (s.lines.rebuild || s.turn.isNone) = true := by
    obtain ⟨t, turn⟩ := Option.isSome_iff_exists.mp staged
    rw [rebuild, turn]
    exact Bool.false_ne_true
  exact (if_neg taken).trans (lineEventsAt_foldl s n LineEvent.all ⟨rfl, fun _ _ => rfl⟩)

/-! ## The tick of one advance -/

/-- The state of a tick at its one advance, before the followers take the time passed. -/
def State.ticked (s : State) : State :=
  { s.tickTimers.withTempo with clock := s.tickTimers.withTempo.clock.stepped }

theorem ticked_touches (s : State) :
    Touches [.sessionTime, .loop, .slots, .lines, .font, .video, .voice, .clock] s s.ticked := by
  intro k hk
  cases k with
  | sessionTime => exact absurd (by decide) hk
  | loop => exact absurd (by decide) hk
  | slots => exact absurd (by decide) hk
  | lines => exact absurd (by decide) hk
  | font => exact absurd (by decide) hk
  | video => exact absurd (by decide) hk
  | voice => exact absurd (by decide) hk
  | clock => exact absurd (by decide) hk
  | links => exact fun _ => rfl
  | notices => exact fun _ => rfl
  | _ => rfl

theorem ticked_stageLines (s : State) : s.ticked.stageLines = s.stageLines := by
  have slots (i : Fin 4) : s.ticked.slots[i].track = s.slots[i].track := by
    have tick : s.ticked.slots[i] = s.slots[i].tick := tickTimers_slot s i
    rw [tick]
    rfl
  have turn : s.ticked.turn = s.turn := rfl
  rw [State.stageLines, State.stageLines, State.stageTrack, State.stageTrack, turn]
  cases s.turn with
  | none => rfl
  | some t => simp only [slots]

theorem ticked_font (s : State) : s.ticked.font.store.place = s.font.store.place := by
  have font : s.ticked.font = s.font.tick := rfl
  rw [font, FontPort.tick]
  cases s.font.store <;> rfl

theorem exec_tick_lines {s : State} (upToDate : s.upToDate) (running : s.clock.state = .running)
    (room : s.clock.position < 3599999) (one : 1000 ≤ s.clock.accumulator + s.clock.tempo)
    (only : s.clock.accumulator + s.clock.tempo < 2000)
    (stays : ¬ (s.autoEnd = true ∧ s.clock.endTime = some (s.clock.position + 1))) :
    ∃ u, exec .timebaseTick s = .next u ∧
      u.lines = (s.ticked.lineEventsAt (s.clock.position + 1)).lines ∧
      u.cache = (s.ticked.lineEventsAt (s.clock.position + 1)).cache ∧
      u.video = (s.ticked.lineEventsAt (s.clock.position + 1)).video := by
  have tick := tickClock_of_one_advance (s := s.tickTimers) running room one only stays
  have marking : Marking (s.ticked.lineEventsAt (s.clock.position + 1))
      s.tickTimers.withTempo.advanced := tallyPassed_marking _ _
  refine ⟨s.tickTimers.withTempo.advanced, ?_, marking.touches .lines (by decide),
    marking.touches .cache (by decide), marking.touches .video (by decide)⟩
  rw [exec_tick_of_upToDate upToDate, tick]

end Sys2Proof.Machine
end

section
/-! Lines placed, started, done and left; scrolls and the score show (O40). -/

namespace Sys2Proof.Machine

/-! ## A posted line, by the rows that stand -/

section
variable {s : State} (x : Line) {k : Nat} (scroll : s.lines.scroll = none)
  (pending : s.lines.pending = []) (calm : ∀ w ∈ s.lines.window, w.state ≠ .leaving ∧ w.linger = false)

include calm in
/-- A row in which a line stands has an occupant, of which the window tells the state. -/
theorem occupant_of_row {r : Nat} (stands : ∃ w ∈ s.lines.window, w.row = r) :
    ∃ o ∈ s.lines.window, o.row = r ∧ s.lines.occupant r = some o := by
  obtain ⟨w, mem, row⟩ := stands
  obtain ⟨o, found⟩ := occupant_isSome mem (calm w mem).1 row
  obtain ⟨inside, -, row⟩ := occupant_spec found
  exact ⟨o, inside, row, found⟩

include calm in
theorem emptyRow_of_full (full : ∀ r < s.lines.layout.rows, ∃ w ∈ s.lines.window, w.row = r) :
    s.lines.emptyRow = none := by
  refine emptyRow_eq_none fun r within => ?_
  obtain ⟨o, -, -, found⟩ := occupant_of_row calm (full r within)
  rw [found]
  exact nofun

variable (absent : ∀ w ∈ s.lines.window, w.index ≠ k)
include scroll pending calm absent

theorem post_into_row (style : s.lines.style = .scroll) {r : Nat} (within : r < s.lines.layout.rows)
    (empty : ∀ w ∈ s.lines.window, w.row ≠ r) (behind : ∀ q < r, ∃ w ∈ s.lines.window, w.row = q) :
    s.takeLineEvent .post (x, k) = s.enterLine ⟨k, .posted⟩ r := by
  have row : s.lines.emptyRow = some r := by
    refine emptyRow_eq_some within (occupant_eq_none fun w mem _ => empty w mem) fun q hq => ?_
    obtain ⟨o, -, -, found⟩ := occupant_of_row calm (behind q hq)
    rw [found]
    exact nofun
  have place := placeStep_scroll_row (s := s.withWaiting ⟨k, .posted⟩) rfl scroll style row
  rw [unpending_withWaiting pending] at place
  exact post_placed scroll pending calm absent x place

omit absent in
/-- The step of a posted line that finds the rows full and the top line done. -/
theorem place_of_done (style : s.lines.style = .scroll) (some_ : 0 < s.lines.layout.rows)
    (full : ∀ r < s.lines.layout.rows, ∃ w ∈ s.lines.window, w.row = r)
    (done : ∀ w ∈ s.lines.window, w.row = 0 → w.state = .done) :
    (s.withWaiting ⟨k, .posted⟩).placeStep = some (s.startScroll (some ⟨k, .posted⟩)) := by
  obtain ⟨o, mem, row, found⟩ := occupant_of_row calm (full 0 some_)
  have place := placeStep_scroll_start (s := s.withWaiting ⟨k, .posted⟩) rfl scroll style
    (emptyRow_of_full calm full) found (done o mem row)
  rwa [unpending_withWaiting pending] at place

theorem post_into_full (style : s.lines.style = .scroll) (some_ : 0 < s.lines.layout.rows)
    (full : ∀ r < s.lines.layout.rows, ∃ w ∈ s.lines.window, w.row = r)
    (sung : ∀ w ∈ s.lines.window, w.row = 0 → w.state ≠ .done) :
    s.takeLineEvent .post (x, k) = { s with
      lines := { s.lines with pending := [{ index := k, state := .posted }] }
      video := { s.video with postLate := min 255 (s.video.postLate + 1) } } := by
  obtain ⟨o, mem, row, found⟩ := occupant_of_row calm (full 0 some_)
  exact post_waits scroll pending calm absent x (placeStep_scroll_wait
    (s := s.withWaiting ⟨k, .posted⟩) rfl scroll style (emptyRow_of_full calm full) found
    (sung o mem row))

theorem post_alternate_empty (style : s.lines.style = .alternate)
    (empty : ∀ w ∈ s.lines.window, w.row ≠ k % 2) :
    s.takeLineEvent .post (x, k) = s.enterLine ⟨k, .posted⟩ (k % 2) := by
  have place := placeStep_alternate_row (s := s.withWaiting ⟨k, .posted⟩) rfl scroll style
    (occupant_eq_none fun w mem _ => empty w mem)
  rw [unpending_withWaiting pending] at place
  exact post_placed scroll pending calm absent x place

variable {ahead behind : List WindowLine} {w : WindowLine} (split : s.lines.window = ahead ++ w :: behind)
  (row : w.row = k % 2) (others : ∀ y ∈ ahead ++ behind, y.row ≠ k % 2 ∧ y.index ≠ w.index)
include split row others

omit scroll pending absent in
theorem occupant_of_split : s.lines.occupant (k % 2) = some w := by
  refine find?_of_split split ?_ fun y mem => ?_
  · have stays := (calm w (by rw [split]; simp)).1
    simp [WindowLine.isLeaving, stays, row]
  · simp [(others y (List.mem_append_left _ mem)).1]

theorem post_alternate_sung (style : s.lines.style = .alternate) (sung : w.state ≠ .done) :
    s.takeLineEvent .post (x, k) = { s with
      lines := { s.lines with pending := [{ index := k, state := .posted }] }
      video := { s.video with postLate := min 255 (s.video.postLate + 1) } } :=
  post_waits scroll pending calm absent x (placeStep_alternate_wait (s := s.withWaiting ⟨k, .posted⟩) rfl
    scroll style (occupant_of_split calm split row others) sung)

theorem post_alternate_done (style : s.lines.style = .alternate) (done : w.state = .done) :
    s.takeLineEvent .post (x, k) = { s with
      lines := { s.lines with window := insertByRow (ahead ++ behind) (s.newLine k (k % 2) .posted) }
      cache := s.pinnedLine k (w.pins.foldl Cache.release s.cache) } := by
  have staying : s.lines.window.filter (fun y => !decide (y.index = w.index)) = ahead ++ behind := by
    have stay (ys : List WindowLine) (h : ∀ y ∈ ys, y.index ≠ w.index) :
        ys.filter (fun y => !decide (y.index = w.index)) = ys :=
      List.filter_eq_self.mpr fun y mem => by simpa using h y mem
    rw [split, List.filter_append, List.filter_cons_of_neg (by simp),
      stay ahead fun y mem => (others y (List.mem_append_left _ mem)).2,
      stay behind fun y mem => (others y (List.mem_append_right _ mem)).2]
  have gone : s.lines.window.filter (fun y => decide (y.index = w.index)) = [w] := by
    have leave (ys : List WindowLine) (h : ∀ y ∈ ys, y.index ≠ w.index) :
        ys.filter (fun y => decide (y.index = w.index)) = [] :=
      List.filter_eq_nil_iff.mpr fun y mem => by simpa using h y mem
    rw [split, List.filter_append, List.filter_cons_of_pos (by simp),
      leave ahead fun y mem => (others y (List.mem_append_left _ mem)).2,
      leave behind fun y mem => (others y (List.mem_append_right _ mem)).2]
    rfl
  have dropped : (s.dropLines fun y => y.index = w.index) = { s with
      lines := { s.lines with window := ahead ++ behind }
      cache := w.pins.foldl Cache.release s.cache } := by
    unfold State.dropLines
    rw [gone, List.flatMap_singleton, ← staying]
    rfl
  have place := placeStep_alternate_done (s := s.withWaiting ⟨k, .posted⟩) rfl scroll style
    (occupant_of_split calm split row others) done
  rw [unpending_withWaiting pending, dropped] at place
  obtain ⟨n, settles⟩ := settle_eq (s.withWaiting ⟨k, .posted⟩)
  rw [post_eq pending absent, settles,
    settleLines_place (s := s.withWaiting ⟨k, .posted⟩) (completeStep_of_none scroll) place]
  refine (congrArg (fun u : State => u.countPostLate k) (settle_of_entered ?still ?empty ?calm _)).trans
    (countPostLate_of_placed ?placed k)
  case still => exact scroll
  case empty => exact pending
  case placed => exact pending
  case calm =>
    intro y mem
    refine (calm y ?_).2
    rw [split]
    rcases List.mem_append.mp mem with inside | inside
    · exact List.mem_append_left _ inside
    · exact List.mem_append_right _ (List.mem_cons_of_mem w inside)

end

theorem linesCache_touches (s : State) (l : LineScheduler) (c : Cache) :
    Touches [.lines, .cache] s { s with lines := l, cache := c } := by
  intro k hk
  cases k with
  | lines => exact absurd (by decide) hk
  | cache => exact absurd (by decide) hk
  | links => exact fun _ => rfl
  | notices => exact fun _ => rfl
  | _ => rfl

/-- Settles O40: each event by its own effect and what the window then settles to; the scroll by its
count at a latch. -/
theorem linesArePlacedAndScroll : Obligations.LinesArePlacedAndScroll := by
  refine ⟨lineEvent_times, fun s n => ⟨lineEventsAt_of_none n, lineEventsAt_eq n⟩, ?tick, ?still,
    ?moving, ?counted, fun s h out => scoreShowExpiry_ends out, ?last⟩
  case tick =>
    intro s upToDate running room one only stays
    obtain ⟨u, run, lines, cache, video⟩ := exec_tick_lines upToDate running room one only stays
    exact ⟨s.ticked, u, run, ticked_touches s, ticked_font s, rfl, ticked_stageLines s, rfl, lines,
      cache, video⟩
  case still =>
    intro s x k scroll pending calm l pinned new entered up full
    refine ⟨fun absent => ?_, take_start x scroll pending calm, take_done x scroll pending calm,
      take_prefetch x scroll pending calm, take_leave_alternate x scroll pending calm,
      take_leave_below x scroll pending calm, take_leave_first x scroll pending calm,
      fun z j style own other moves full first =>
        take_done_waiting x scroll pending calm style own other moves full.2 full.1 first⟩
    intro u waits
    refine ⟨fun style => ⟨fun r within empty behind => ?_, fun full done => ⟨fun moves => ?_, fun atOnce => ?_⟩,
      fun full sung => ?_⟩, fun style => ⟨fun empty => ?_, fun ahead w behind split row others =>
        ⟨fun done => ?_, fun sung => ?_⟩⟩⟩
    · have placed : u = _ := post_into_row x scroll pending calm absent style within empty behind
      rw [placed]
      exact ⟨insertByRow_entered (fun w mem => (calm w mem).1) _, rfl⟩
    · have within (w : WindowLine) (mem : w ∈ s.lines.window) := (done w mem).1
      have place := place_of_done (k := k) scroll pending calm style full.1 full.2
        fun w mem => (done w mem).2
      exact (post_scrolls scroll pending absent x place moves).trans
        (startScroll_some s ⟨k, .posted⟩ within)
    · have place := place_of_done (k := k) scroll pending calm style full.1 full.2
        fun w mem => (done w mem).2
      exact post_scrolls_at_once scroll pending calm absent x place atOnce fun w mem => (done w mem).1
    · exact post_into_full x scroll pending calm absent style full.1 full.2 sung
    · have placed : u = _ := post_alternate_empty x scroll pending calm absent style empty
      rw [placed]
      exact ⟨insertByRow_entered (fun w mem => (calm w mem).1) _, rfl⟩
    · have placed : u = _ := post_alternate_done x scroll pending calm absent split row others style done
      have stays (y : WindowLine) (mem : y ∈ ahead ++ behind) : y.state ≠ .leaving := by
        refine (calm y ?_).1
        rw [split]
        rcases List.mem_append.mp mem with inside | inside
        · exact List.mem_append_left _ inside
        · exact List.mem_append_right _ (List.mem_cons_of_mem w inside)
      rw [placed]
      exact ⟨insertByRow_entered stays _, rfl⟩
    · exact post_alternate_sung x scroll pending calm absent split row others style sung
  case moving =>
    exact fun s x k sc scroll moving => ⟨post_during_scroll x scroll moving,
      leave_during_scroll x scroll moving, done_during_scroll x scroll moving⟩
  case counted =>
    exact fun s sc scroll rebuild => ⟨s.frameLatch, rfl, frameLatch_of_moving scroll rebuild⟩
  case last =>
    intro s sc scroll last rebuild stepTwo pending calm window
    exact ⟨⟨_, scrollComplete_of_last scroll rebuild last stepTwo pending calm, linesCache_touches s _ _, rfl, rfl⟩,
      s.frameLatch, rfl, frameLatch_of_last scroll rebuild last stepTwo pending calm⟩

end Sys2Proof.Machine
end
